-- ==== Sys2Proof/Word.lean ====
section
/-! DEFINITION. The words of the module: bytes, registers, lanes, and the numbers that name its parts (R7, R27). -/

namespace Sys2Proof

/-- A byte of memory. -/
abbrev Byte := BitVec 8

/-- A scalar register or a 64-bit register of a register block. -/
abbrev Word := BitVec 64

/-- A lane of a vector register. -/
abbrev Lane := BitVec 32

/-- A vector register: 256 lanes of 32 bits (R179). -/
abbrev VReg := Vector Lane 256

/-- A logical core, 16d + k for core k of die d. -/
abbrev CoreId := Fin 64

/-- A scalar register s0-s31 or a vector register v0-v31. -/
abbrev Reg := Fin 32

/-- A compute die. -/
abbrev DieId := Fin 4

/-- A physical core of a die. -/
abbrev PCoreNo := Fin 18

/-- A Runnel: 2 x logical core + Runnel number (R242). -/
abbrev RunId := Fin 128

/-- A memory stack; stack s belongs to die s / 8 (R12). -/
abbrev StackId := Fin 32

/-- A fabric port. -/
abbrev PortId := Fin 24

/-- A hardware queue (R244). -/
abbrev QId := Fin 65536

/-- A bundle index in the instruction store. -/
abbrev BIdx := BitVec 13

end Sys2Proof
end

