-- ==== Sys2Proof/Syntax.lean ====
section
/-! DEFINITION. The commands of the module: one constructor of `Instr` per row of spec/opcode_table.json, with the operands the
row's rule needs. What happens outside the module (a sensor reading, a symbol error, a frame of another module) is an
operand of the event that brings it. -/

namespace Sys2Proof

/-- The second operand of a vector operation: a register, or the 1 KiB row at `SA` + `OFF` (`MSRC` = 1, R178, R181). -/
inductive VSrc where
  | reg (vb : Reg)
  | row (sa : Reg) (off : BitVec 24)
  deriving DecidableEq, Repr

/-- The operands of a matrix-slot operation (R189). -/
structure MxArgs where
  dreg : Reg
  doff : BitVec 19
  tile : BitVec 6
  df : BitVec 2
  start : BitVec 2
  arm : Bool
  deriving DecidableEq, Repr

/-- What a faulty array presents for the elements of one tile row of one core of the chain (0 for an ordinary operation) in
place of its own results (R103-R106). [DEDUCED: log 15] -/
structure FaultyRow where
  part : Nat
  row : Nat
  lanes : List Lane
  deriving DecidableEq, Repr

/-- The codewords that a block read takes: 0-63 its data, 64 that of the bib table which holds its bib, 65 that of the poison map which
holds its mark (R401, R402). -/
abbrev CwNo := Fin 66

/-- What the decoder makes of one codeword with symbol errors, those of a lane that the code carries apart, and the 64 bytes that it hands on
where they are not those stored (Table: HBM code outcomes, R329, R408). [DEDUCED: log 15] -/
inductive CwOutcome where
  | corrected (n : Fin 5)
  | uncorrectable (n : Nat) (data : List Byte)
  | miscorrected (n : Nat) (data : List Byte)
  | undetected (n : Nat) (data : List Byte)
  deriving DecidableEq, Repr

/-- An SRAM word the scrubber can find an upset in (R332). -/
inductive SramWord where
  | scalar (r : Reg)
  | vector (r : Reg) (lane : Fin 256)
  | memory (addr : BitVec 48)
  | tileMeta (t : Fin 64)
  | counter (c : Fin 48)
  deriving DecidableEq, Repr

/-- An upset of one SRAM word (R332). [DEDUCED: log 15] -/
inductive Upset where
  | none
  | single
  | double
  deriving DecidableEq, Repr

/-- A core, and what the code of R332 finds in the SRAM words that its work reads. -/
structure CoreRead where
  core : CoreId
  upset : Upset
  deriving DecidableEq, Repr

/-- A slot of a core, and what the code of R332 finds in the SRAM words that its operation reads. -/
structure SlotRead where
  core : CoreId
  slot : BitVec 3
  upset : Upset
  deriving DecidableEq, Repr

/-- One block of a far access: the access's place in its core's list of far accesses, and the first or the second block (R200). -/
structure FarBlkNo where
  acc : Nat
  blk : Fin 2
  deriving DecidableEq, Repr

/-- One block of a far access and the Runnel that serves it (R200). -/
structure FarServe where
  no : FarBlkNo
  runnel : Fin 2
  upset : Upset
  deriving DecidableEq, Repr

/-- How one block of a far access completes (R200, R327, R332): its read arrived corrupted, its write was found bad at the hub, and what
the code of R332 finds in the words that a store reads. -/
structure FarDone where
  corrupt : Bool
  hubBad : Bool
  upset : Upset
  deriving DecidableEq, Repr

/-- A tile of an outbound stream that has reached its destination, and its blocks found bad at the hub (R207, R327). -/
structure TileArrival where
  run : RunId
  tile : Nat
  bad : List Nat
  deriving DecidableEq, Repr

/-- How many blocks a checkpoint command moves next, and whether the host port fails meanwhile (R258, R270). -/
structure CkptMove where
  blocks : Nat
  hostFail : Bool
  deriving DecidableEq, Repr

/-- The sender of a Baton block: the member or its backup (R310), to a receive half that runs, or to one whose command has ended: which of
the queue's ended halves of that place, the newest first. -/
structure SenderCopy where
  backup : Bool
  ended : Option Nat
  deriving DecidableEq, Repr

/-- One end of a die-link port (R392). -/
inductive LinkEnd where
  | hub
  | die
  deriving DecidableEq, Repr

/-- A sideband message of a die link (R379, R382, R384, R387, R389). -/
inductive Sideband where
  | cap (v : Word)
  | negResult (v : Word)
  | mask (m : BitVec 12)
  /-- A reset notice: whether the training that follows is full (R389, R391). -/
  | resetNotice (full : Bool)
  /-- A bundle leaves service for good: the new striping applies from a `USEQ` on (R387). -/
  | dropBundle (b : Fin 12) (useq : BitVec 12)
  /-- The chunk from which a logical lane's bits are taken from the free lane (R384). -/
  | switchLane (b : Fin 12) (up : Bool) (lane : Fin 16) (chunk : Nat)
  deriving DecidableEq, Repr

/-- A unit of a die link (Table: Link units): its header bits and its contents after the header. -/
structure LinkUnit where
  header : Word
  payload : List Byte
  deriving DecidableEq, Repr

/-- Bits flipped on a lane while a unit crosses a die link: the bundle and its data lane, which of the unit's chunks on that bundle, and the
bits of the chunk's byte (R375). [DESIGN CHOICE: log 92] -/
structure LaneErr where
  bundle : Fin 12
  lane : Fin 16
  nth : Nat
  flip : Byte
  deriving DecidableEq, Repr

/-- A unit that crosses a die link, and what happens to it on the lanes. -/
structure LinkArrival where
  unit : LinkUnit
  errs : List LaneErr
  deriving DecidableEq, Repr

/-- A DXT frame as received (Table: DXT frame): the 256-bit header, the payload, whether its destination is the link-local
address, whether the Ethernet FCS is right, and the FEC codewords corrected and uncorrectable that came with it (R414, R430).
[DEDUCED: log 15] -/
structure DxtFrame where
  header : BitVec 256
  payload : List Byte
  linkLocal : Bool
  fcsOk : Bool
  fecCe : Nat
  fecUe : Nat
  deriving DecidableEq, Repr

/-- Which Baton transfer a message speaks of: a ring step (R285) or a pair of ranks of a permutation (R288). -/
inductive XferKey where
  | shift (axis : BitVec 2) (dir : Bool) (dist : BitVec 16)
  | perm (entry : Nat)
  deriving DecidableEq, Repr

/-- A handshake of a send half (R285, R288, R311). -/
structure Handshake where
  group : BitVec 12
  gfp : BitVec 32
  tag : BitVec 16
  key : XferKey
  fromRank : BitVec 16
  /-- The endpoint that sent it. -/
  fromEp : BitVec 24
  nblk : Nat
  /-- The tag and the index of each block that the source bibs carry (R282, R285). -/
  srcTag : BitVec 12
  srcIdx : List (BitVec 20)
  /-- Of a PERMR: the positions of the run of rows that it returns, from the first up to the end (R292). [DESIGN CHOICE: log 51] -/
  run : Nat × Nat
  backup : Bool
  deriving DecidableEq, Repr

/-- The receiver's answer to a handshake (R285). -/
inductive HsAnswer where
  | accepted
  | refused
  | mismatch
  deriving DecidableEq, Repr

/-- What a receiver says of blocks that it was sent (R282, R286, R298): acknowledged, requested once more, failed a second time, or
refused by a stopped half. -/
inductive BlkAnswer where
  | acked
  | again
  | failed
  | refused
  deriving DecidableEq, Repr

/-- A message of a PERMI (R291): a rank's count of rows for this rank, or the first position and the accepted count that a
destination returns. -/
inductive PermiMsg where
  | count (rank : BitVec 16) (rows : Nat)
  | positions (rank : BitVec 16) (first accepted : Nat)
  deriving DecidableEq, Repr

/-- A fabric barrier message (R297). -/
structure FabMsg where
  release : Bool
  fromRank : BitVec 16
  fromBackup : Bool
  gen : BitVec 16
  gfp : BitVec 32
  deriving DecidableEq, Repr

/-- The measurements a power-control tick works from (R479, R482): demand and input power in hundredths of a watt, input
voltage
and current in mV and mA, hotspots of the compute dies and of the hub and board temperatures in tenths of a degree, coolant
temperatures in hundredths of a degree, flow in hundredths of a litre per minute, pressure drop in tenths of a kPa, and for
each
rail its voltage in mV, current in 0.1 A and power in 0.1 W. [DEDUCED: log 15] -/
structure PowerReading where
  demand : Nat
  pin : Nat
  vin : Nat
  iin : Nat
  dieHot : Vector Int 4
  hubHot : Int
  boards : Vector Int 4
  inlet : Int
  outlet : Int
  flow : Nat
  dpres : Nat
  rails : List (Nat × Nat × Nat)
  deriving DecidableEq, Repr

/-- How a boot step ended (R451, R452). [DEDUCED: log 15] -/
inductive BootOutcome where
  | done
  | failed
  | stackFailed (s : StackId)
  /-- A lane of a channel fails the lane test of step 7, with or without a redundant lane left for it (R408). -/
  | laneFailed (s : StackId) (ch : Fin 32) (lane : Fin 72) (spare : Bool)
  | linkFailed (d : DieId)
  /-- The factory records of a flash device (false: device 0) carry this serial (R465). -/
  | flashSerial (device : Bool) (serial : Word)
  /-- The copy of a flash record on a device fails its CRC-32C (R449). -/
  | copyBad (off : BitVec 32) (device : Bool)
  | baselineBad (d : Fin 5)
  deriving DecidableEq, Repr

/-- What a PCIe configuration write changes (R431, R432, R438). -/
inductive CfgWrite where
  | powerState (d3hot : Bool)
  | bar (n : Fin 3) (base : Word)
  | bar4Size (log2Gib : Fin 9)
  | msixEnable (on : Bool)
  /-- An entry of the MSI-X table, in BAR2. -/
  | msixEntry (n : Fin 2048) (addr : Word) (data : BitVec 32) (masked : Bool)
  /-- Max_Payload_Size (128 B shifted left) and Max_Read_Request_Size. -/
  | maxPayload (log2 : Fin 3)
  | maxReadRequest (log2 : Fin 6)
  | completionTimeout (range : BitVec 4)
  deriving DecidableEq, Repr

/-- A PLL that loses lock (R26). -/
inductive Pll where
  | reference
  | hubRoot
  | dieRoot (d : DieId)
  deriving DecidableEq, Repr

/-- Why a thermal stop or trip came (Table: Thermal limits, R487). -/
inductive ThermalCause where
  | inlet
  | flow
  | dieHotspot (d : DieId)
  | stack (s : StackId)
  | hub
  deriving DecidableEq, Repr

/-- What one region of Cooldown is: a physical core, the logic of a die, or the hub (R353, R354). -/
inductive CdTarget where
  | core (d : DieId) (p : PCoreNo)
  | dieLogic (d : DieId)
  | hub
  deriving DecidableEq, Repr

/-- The envelope of a mailbox command: its slot, and the header fields that host software writes: sequence number, vector, `MBLEN` and
`MBSTAT` (R441-R443). -/
structure MbEnv where
  slot : Fin 8
  seq : BitVec 16
  vec : BitVec 11
  len : BitVec 16
  stat : Byte
  deriving DecidableEq, Repr

/-- A Baton queue, and what the code finds in the SRAM that a step of its command reads (R332). -/
structure BatonRead where
  queue : QId
  upset : Upset
  deriving DecidableEq, Repr

/-- What a stream reads: it arrives corrupted, and what the code finds in the SRAM it is read from (R212, R332). -/
structure StreamRead where
  corrupt : Bool
  upset : Upset
  deriving DecidableEq, Repr

/-- How a bundle's window ends (R386, R387): lanes that failed, by direction, and the `USEQ` from which a new striping applies if it does
not rejoin. -/
structure WindowEnd where
  failed : List (Bool × Fin 18)
  useq : BitVec 12
  deriving DecidableEq, Repr

/-- An acknowledgement frame, and the marked port whose capability frame the peer acknowledges with it (R420, R423). -/
structure DxtAck where
  frame : DxtFrame
  probe : Option PortId
  deriving DecidableEq, Repr

/-- An event ring in host memory, and whether the host port fails the writes to it (R438, R446). -/
structure HostRing where
  haddr : Word
  fail : Bool
  deriving DecidableEq, Repr

/-- The commands of the module, one per row of spec/opcode_table.json. -/
inductive Instr where
  -- sequencer (R133-R161)
  | bundleIssue (r : CoreRead)
  | gapExpiry (k : CoreId)
  | prefixStop (k : CoreId)
  | operationLanding (r : SlotRead)
  | flowNext (k : CoreId)
  | br (k : CoreId) (target : BIdx)
  | brc (k : CoreId) (reg : Reg) (fmode : Bool) (cond : BitVec 3) (bitn : BitVec 6) (target : BIdx)
  | loop (k : CoreId) (csrc : Bool) (cimm : BitVec 16) (reg : Reg) (target : BIdx)
  | call (k : CoreId) (target : BIdx)
  | ret (k : CoreId)
  | wait (k : CoreId) (wslot : Fin 16)
  | fence (k : CoreId)
  | halt (k : CoreId)
  -- scalar slot (R173-R177)
  | add (k : CoreId) (sd sa sb : Reg)
  | addi (k : CoreId) (sd sa : Reg) (imm : BitVec 32)
  | sub (k : CoreId) (sd sa sb : Reg)
  | subi (k : CoreId) (sd sa : Reg) (imm : BitVec 32)
  | and (k : CoreId) (sd sa sb : Reg)
  | andi (k : CoreId) (sd sa : Reg) (imm : BitVec 32)
  | or (k : CoreId) (sd sa sb : Reg)
  | ori (k : CoreId) (sd sa : Reg) (imm : BitVec 32)
  | xor (k : CoreId) (sd sa sb : Reg)
  | xori (k : CoreId) (sd sa : Reg) (imm : BitVec 32)
  | shl (k : CoreId) (sd sa sb : Reg)
  | shli (k : CoreId) (sd sa : Reg) (imm : BitVec 32)
  | shr (k : CoreId) (sd sa sb : Reg)
  | shri (k : CoreId) (sd sa : Reg) (imm : BitVec 32)
  | sar (k : CoreId) (sd sa sb : Reg)
  | sari (k : CoreId) (sd sa : Reg) (imm : BitVec 32)
  | min (k : CoreId) (sd sa sb : Reg)
  | mini (k : CoreId) (sd sa : Reg) (imm : BitVec 32)
  | max (k : CoreId) (sd sa sb : Reg)
  | maxi (k : CoreId) (sd sa : Reg) (imm : BitVec 32)
  | minu (k : CoreId) (sd sa sb : Reg)
  | minui (k : CoreId) (sd sa : Reg) (imm : BitVec 32)
  | maxu (k : CoreId) (sd sa sb : Reg)
  | maxui (k : CoreId) (sd sa : Reg) (imm : BitVec 32)
  | seq (k : CoreId) (sd sa sb : Reg)
  | seqi (k : CoreId) (sd sa : Reg) (imm : BitVec 32)
  | slt (k : CoreId) (sd sa sb : Reg)
  | slti (k : CoreId) (sd sa : Reg) (imm : BitVec 32)
  | sltu (k : CoreId) (sd sa sb : Reg)
  | sltui (k : CoreId) (sd sa : Reg) (imm : BitVec 32)
  | movi (k : CoreId) (sd : Reg) (imm : BitVec 32)
  | movhi (k : CoreId) (sd sa : Reg) (imm : BitVec 32)
  | sel (k : CoreId) (sd sa sb : Reg) (imm : BitVec 32)
  | mul (k : CoreId) (sd sa sb : Reg)
  | mulh (k : CoreId) (sd sa sb : Reg)
  | mulhu (k : CoreId) (sd sa sb : Reg)
  | rdcr (k : CoreId) (sd : Reg) (sx : BitVec 9)
  | wrcr (k : CoreId) (sa : Reg) (sx : BitVec 9)
  | rdtm (k : CoreId) (sd : Reg) (sx : BitVec 9)
  | wrtm (k : CoreId) (sa : Reg) (sx : BitVec 9)
  -- vector slot (R178-R188)
  | vadd (k : CoreId) (fmt : BitVec 4) (vd va : Reg) (b : VSrc)
  | vsub (k : CoreId) (fmt : BitVec 4) (vd va : Reg) (b : VSrc)
  | vmul (k : CoreId) (fmt : BitVec 4) (vd va : Reg) (b : VSrc)
  | vmin (k : CoreId) (fmt : BitVec 4) (vd va : Reg) (b : VSrc)
  | vmax (k : CoreId) (fmt : BitVec 4) (vd va : Reg) (b : VSrc)
  | vmaxmag (k : CoreId) (fmt : BitVec 4) (vd va : Reg) (b : VSrc)
  | vabs (k : CoreId) (fmt : BitVec 4) (vd va : Reg)
  | vneg (k : CoreId) (fmt : BitVec 4) (vd va : Reg)
  | vmov (k : CoreId) (vd va : Reg)
  | vcmp (k : CoreId) (fmt : BitVec 4) (cc : BitVec 3) (vd va : Reg) (b : VSrc)
  | vsel (k : CoreId) (vd va vc : Reg) (b : VSrc)
  | vand (k : CoreId) (vd va : Reg) (b : VSrc)
  | vor (k : CoreId) (vd va : Reg) (b : VSrc)
  | vxor (k : CoreId) (vd va : Reg) (b : VSrc)
  | vshl (k : CoreId) (vd va : Reg) (b : VSrc)
  | vshr (k : CoreId) (vd va : Reg) (b : VSrc)
  | vbcast (k : CoreId) (vd sa : Reg)
  | viota (k : CoreId) (vd sa : Reg)
  | vperm (k : CoreId) (vd va vb : Reg)
  | vdiv (k : CoreId) (fmt : BitVec 4) (vd va vb : Reg)
  | vsqrt (k : CoreId) (fmt : BitVec 4) (vd va : Reg)
  | vrsum (k : CoreId) (fmt : BitVec 4) (sa va : Reg)
  | vrmax (k : CoreId) (fmt : BitVec 4) (sa va : Reg)
  | vrmin (k : CoreId) (fmt : BitVec 4) (sa va : Reg)
  | vrmaxmag (k : CoreId) (fmt : BitVec 4) (sa va : Reg)
  | vwidl (k : CoreId) (vd va : Reg)
  | vwidh (k : CoreId) (vd va : Reg)
  | vnar (k : CoreId) (vd va vb : Reg)
  | venc (k : CoreId) (vd va ss sf : Reg) (auto : Bool) (cnt : Option Reg)
  | vdec (k : CoreId) (vd ss sf sa : Reg) (off : BitVec 24)
  | vfexp (k : CoreId) (va ss sf : Reg)
  | vout (k : CoreId) (vd ss sf : Reg) (tile : BitVec 6) (trow : BitVec 7) (auto : Bool) (cnt : Option Reg)
  | vpaceStep (k : CoreId) (ss scnt sa : Reg) (off : BitVec 24)
  | vpaceFirst (k : CoreId) (ss scnt sa : Reg) (off : BitVec 24)
  | vtail (k : CoreId) (vd va vb vc : Reg) (cnt : Option Reg)
  -- matrix slot and array (R57-R109, R189, R190)
  | mmul (k : CoreId) (a : MxArgs)
  | mrelay (k : CoreId) (a : MxArgs)
  | mlend (k : CoreId) (dreg : Reg) (doff : BitVec 19) (tile : BitVec 6) (lead : Fin 16)
  | matrixPassBegin (k : CoreId)
  | relayChainLent (k : CoreId)
  | relayLendTimeout (k : CoreId)
  | matrixRowWrite (k : CoreId) (faulty : Option FaultyRow)
  | matrixPassEnd (k : CoreId) (faulty : Option FaultyRow)
  | replayHoldEnd (k : CoreId) (faulty : Option (Nat × FaultyRow))
  | matrixLanding (k : CoreId)
  -- load and store slots, far accesses (R169-R172, R191, R192, R200, R201)
  | ldb (k : CoreId) (dst areg : Reg) (ctr : BitVec 6) (off : BitVec 40)
  | ldh (k : CoreId) (dst areg : Reg) (ctr : BitVec 6) (off : BitVec 40)
  | ldw (k : CoreId) (dst areg : Reg) (ctr : BitVec 6) (off : BitVec 40)
  | ldd (k : CoreId) (dst areg : Reg) (ctr : BitVec 6) (off : BitVec 40)
  | ldv (k : CoreId) (dst areg : Reg) (ctr : BitVec 6) (size : BitVec 3) (off : BitVec 40)
  | ldvw (k : CoreId) (dst areg : Reg) (ctr : BitVec 6) (size : BitVec 3) (off : BitVec 40)
  | stb (k : CoreId) (src areg : Reg) (ctr : BitVec 6) (off : BitVec 40)
  | sth (k : CoreId) (src areg : Reg) (ctr : BitVec 6) (off : BitVec 40)
  | stw (k : CoreId) (src areg : Reg) (ctr : BitVec 6) (off : BitVec 40)
  | std (k : CoreId) (src areg : Reg) (ctr : BitVec 6) (off : BitVec 40)
  | stv (k : CoreId) (src areg : Reg) (ctr : BitVec 6) (size : BitVec 3) (off : BitVec 40)
  | farAccessService (k : CoreId) (b : FarServe)
  | farAccessComplete (k : CoreId) (b : FarBlkNo) (d : FarDone)
  -- sync slot, watches, barriers (R193-R241, R296, R297)
  | cinc (k : CoreId) (ctr : BitVec 6) (imm : BitVec 16)
  | cset (k : CoreId) (ctr : BitVec 6) (imm : BitVec 16)
  | cadd (k : CoreId) (ctr : BitVec 6) (sreg : Reg)
  | crd (k : CoreId) (ctr : BitVec 6) (sreg : Reg)
  | cincr (k lcore : CoreId) (ctr : BitVec 6) (imm : BitVec 16)
  | watch (k : CoreId) (wslot : Fin 16) (lcore : CoreId) (ctr : BitVec 6) (cond : BitVec 3) (imm : BitVec 16)
  | unwatch (k : CoreId) (wslot : Fin 16)
  | bar (k : CoreId) (wslot : Fin 16) (scope : BitVec 2) (imm : BitVec 16)
  | counterDelivery (k : CoreId) (picks : List Nat)
  | watchRegistrationArrival (k : CoreId) (wslot : Fin 16)
  | watchNotification (k : CoreId) (wslot : Fin 16)
  | barrierArrival (k : CoreId)
  | dieBarrierMessage (d : DieId) (i : Nat)
  | fabricBarrierMessage (ctx : Fin 8) (m : FabMsg)
  | fabricBarrierResend (ctx : Fin 8)
  | barCfgWrite (d : DieId) (ctx : Fin 16) (v : Word)
  | babort (d : DieId) (ctx : Fin 16)
  | fbarCfgWrite (ctx : Fin 8) (v : Word)
  | fabort (ctx : Fin 8)
  | fbarBindWrite (ctx : Fin 8) (v : Word)
  -- queues (R242-R258, R504)
  | doorbell (q : QId) (v : Word) (whole : Bool)
  | stop (q : QId)
  | resume (q : QId)
  | skip (q : QId)
  | flush (q : QId)
  | dependencyMet (q : QId)
  | commandDispatch (q : QId)
  | commandCompletion (q : QId)
  -- engine commands (R259-R272, R284, R288-R292)
  | launch (q : QId)
  | mark (q : QId)
  | stream (q : QId)
  | ctrset (q : QId)
  | talloc (q : QId)
  | tfree (q : QId)
  | hcopy (q : QId) (blocks : Nat) (hostFail : Bool)
  | dump (q : QId) (blocks : Nat) (hostFail : Bool)
  | stepclose (q : QId)
  | rotationCopyComplete (k : CoreId)
  | ckptExport (q : QId) (m : CkptMove)
  | ckptImport (q : QId) (m : CkptMove)
  | shift (r : BatonRead)
  | permt (r : BatonRead)
  | permi (r : BatonRead)
  | permr (r : BatonRead)
  -- Baton events (R282-R292, R310-R316, R500)
  | batonHandshake (h : Handshake)
  | handshakeRetry (r : BatonRead) (entry : Nat) (backup : Bool) (answer : HsAnswer)
  | batonBlockArrival (q : QId) (entry : Nat) (blk : Nat) (data : List Byte) (bib : Word) (sender : SenderCopy)
  | batonBlockAck (r : BatonRead) (entry : Nat) (blks : List Nat) (backup : Bool) (answer : BlkAnswer)
  | permiCountMessage (q : QId) (m : PermiMsg)
  | backupRequest (r : BatonRead) (entry : Nat) (byBackup : Bool) (blks : List Nat) (finished : Bool)
  | graceExpiry (q : QId) (entry : Nat) (backup : Bool)
  -- digests, twin pair, replay (R338, R342-R347)
  | fdDigestArrival (fromNext : Bool) (step : BitVec 48) (digest : Word)
  | twinBucketDigest (r : BatonRead) (entry : Nat) (unitNo : Nat) (parts : List Word)
  | twinStepDigest (parts : List Word)
  | twinSilence (linkDown : Bool)
  | stepRestoreComplete
  -- streams (R199-R215)
  | streamStart (q : QId)
  | strideEmit (r : RunId)
  | strideAdd (r : RunId)
  | strideLoop (r : RunId)
  | strideSeta (r : RunId)
  | strideMark (r : RunId)
  | strideBack (r : RunId)
  | strideEnd (r : RunId)
  | indexRead (r : RunId) (f : StreamRead)
  | tileFillStart (r : RunId)
  | streamBlockArrival (r : RunId) (tile blk : Nat) (f : StreamRead)
  | tileReady (r : RunId)
  | outboundTileReady (r : RunId)
  | tileDrainStart (r : RunId) (f : StreamRead)
  | tileDrained (r : RunId)
  | tileDelivered (t : TileArrival)
  | streamComplete (r : RunId)
  -- memory stacks and SRAM (R329-R332, R402-R407)
  | hbmBlockRead (addr : BitVec 48) (errs : List (CwNo × CwOutcome))
  | hbmBlockWrite (addr : BitVec 48) (data : List Byte) (bib : Word)
  | hbmCodewordWrite (addr : BitVec 48) (data : List Byte)
  | patrolScrub (st : StackId) (errs : List (CwNo × CwOutcome))
  | sramScrub (k : CoreId) (w : SramWord) (u : Upset)
  | hbmRefresh (st : StackId)
  | hbmTempPoll (st : StackId) (temp : BitVec 8)
  | hbmRecentreWindow (st : StackId) (ch : Fin 32) (ok : Bool)
  -- Cooldown and Taper (R353-R372)
  | phoursTick
  | cooldownCoreTest (d : DieId) (p : PCoreNo)
  | cooldownPhaseEnd (t : CdTarget) (sig : Word) (fails : BitVec 32)
  | cooldownTestEnd (t : CdTarget) (verified : Bool)
  | patternStagingDone (read : Option (List Byte))
  | taperSample (d : Fin 5) (slack : List (BitVec 8))
  | cdCfgWrite (v : Word)
  -- Florel Die Link (R373-R392)
  | sidebandMessage (p : DieId) (e : LinkEnd) (m : Sideband)
  | sidebandTimeout (p : DieId) (e : LinkEnd)
  | linkPhaseEnd (p : DieId) (e : LinkEnd) (lanes : List (BitVec 18))
  | linkUnitArrival (p : DieId) (e : LinkEnd) (u : LinkArrival)
  | recoverTimeout (p : DieId)
  | instrideCalStep (p : DieId) (b : Fin 12) (dir : Bool) (mismatch healthy : Bool) (eye : Byte)
  | windowCalibration (p : DieId) (b : Fin 12) (w : WindowEnd)
  | bundleServiceHandshake (p : DieId) (b : Fin 12) (leave : Bool) (useq : BitVec 12)
  | preset (p : DieId) (e : LinkEnd)
  | retrain (p : DieId) (e : LinkEnd)
  -- DXT and fabric ports (R414-R430, R501)
  | dxtBlockFrame (p : PortId) (f : DxtFrame)
  | dxtMessageFrame (p : PortId) (f : DxtFrame)
  | dxtAckFrame (p : PortId) (a : DxtAck)
  | dxtCapabilityFrame (p : PortId) (f : DxtFrame)
  | dxtAckTimer (peer : BitVec 24) (vc : Fin 8)
  | dxtRetransmit (peer : BitVec 24) (vc : Fin 8) (psn : BitVec 32)
  | capabilityBeacon (p : PortId)
  | pathProbe (p : PortId) (peer : BitVec 24)
  | pfcFrame (p : PortId) (pcp : Fin 8) (pause : Bool)
  | fportLinkChange (p : PortId) (up : Bool) (cablem iloss : BitVec 8) (lpan : Bool)
  | dxtCfgWrite (v : Word)
  | dxtMacWrite (v : Word)
  | fpCfgWrite (p : PortId) (v : Word)
  -- host port (R431-R439)
  | apertureRead (off : BitVec 38) (n : Nat)
  | apertureWrite (off : BitVec 38) (data : List Byte)
  | hpAptWrite (v : Word)
  | coreStateWindowAccess (k : CoreId) (off : BitVec 16) (wr : Option (BitVec 32))
  | perstAssert
  | hostLinkLoss
  -- Clerk mailboxes (R441-R448)
  | identify (e : MbEnv)
  | measureRead (e : MbEnv)
  | measureExtend (e : MbEnv) (reg : Byte) (digest : BitVec 256)
  | certRead (e : MbEnv) (haddr : Word) (bytes : BitVec 32) (hostFail : Bool)
  | attest (e : MbEnv) (nonce : BitVec 256) (haddr : Word) (hostFail : Bool)
  | queueAlloc (e : MbEnv) (cls inst log2n : Byte) (vector : BitVec 16)
  | queueFree (e : MbEnv) (queue : BitVec 16)
  | eventRing (e : MbEnv) (ring : HostRing) (log2 : Byte) (vector : BitVec 16)
  | groupWrite (e : MbEnv) (addr : Word)
  | groupClear (e : MbEnv) (group : BitVec 16)
  | placeQuery (e : MbEnv) (handle : BitVec 32)
  | peerQuery (e : MbEnv) (endpoint : BitVec 24)
  | guardSet (e : MbEnv) (addr : Word)
  | cdRequest (e : MbEnv) (masks : Vector (BitVec 32) 4)
  | rotate (e : MbEnv) (lcore : Byte)
  | fwWrite (e : MbEnv) (haddr : Word) (off bytes : BitVec 32) (slotNo : Byte) (hostFail : Bool)
  | fwCommit (e : MbEnv)
  | fwConfirm (e : MbEnv)
  | fwStatus (e : MbEnv)
  | resetModule (e : MbEnv)
  | resetDie (e : MbEnv) (die : Byte)
  | shutdown (e : MbEnv) (flags : Byte)
  | sensorRead (e : MbEnv) (page : Byte)
  | powerSet (e : MbEnv) (cap floor ramp ecap : BitVec 16) (fields persist : Byte)
  | serviceStatus (e : MbEnv)
  | serviceClear (e : MbEnv) (haddr : Word) (marks : Byte) (hostFail : Bool)
  | mailboxOwnedWrite (slot : Fin 8) (off : BitVec 12) (data : List Byte)
  -- boot, power and faults (R26, R451-R488)
  | powerGood
  | bootStepEnd (o : BootOutcome)
  | clerkWatchdogExpiry
  | pllLockLoss (p : Pll)
  | moduleFaultReset
  | pwrenAssert
  | hotSwapStepTimeout
  | pwrenDeassert
  | brownOut
  | overvoltage
  | inputRestored
  | railFault (rail : Fin 13)
  | pcapChange (asserted : Bool)
  | powerControlTick (m : PowerReading)
  | thermalStop (c : ThermalCause)
  | powerStageTrip (c : ThermalCause)
  | registerWrite (off : BitVec 27) (v : Word)
  | matrixRowRead (r : CoreRead)
  | mailboxReply (slot : Fin 8)
  | mailboxUnlistedCommand (slot : Fin 8) (header : Word)
  | hostLinkTrained (speed width : BitVec 4)
  | completionTimeout (q : QId)
  | capabilityFrameRepeat (peer : BitVec 24)
  | peerEntryEviction (peer : BitVec 24)
  | fdlCapRepeat (p : DieId) (e : LinkEnd)
  | configWrite (c : CfgWrite)
  deriving DecidableEq, Repr

end Sys2Proof
end

