-- ==== Sys2Proof/Decode.lean ====
section
/-! DEFINITION. The commands that a word spells by the bits of spec/opcode_table.json. The table gives no row any bits: a command
arrives as a register access, a message or an event, so no word spells one. -/

namespace Sys2Proof

/-- No row of the table has bits. [DEDUCED: log 7] -/
def decodeTableWord (_nbits _w : Nat) : Option Instr := none

end Sys2Proof
end

