-- ==== Sys2Proof/Config.lean ====
section
/-! DEFINITION. What the spec leaves to an implementation, as constants and functions without a body: free values and the
functions of the security root. Nothing in Lean can evaluate them. -/

namespace Sys2Proof

/-- A free value: the result the spec does not state, by the number that `State.fresh` gives it. [DESIGN CHOICE: log 8] -/
opaque Config.freeWord : Nat → Word

/-- Whether an SLH-DSA-SHA2-192s signature verifies: public key, message, signature (FIPS 205; R454, R473). [DESIGN CHOICE:
log 14] -/
opaque Config.slhVerify : List Byte → List Byte → List Byte → Bool

/-- The public key of the SLH-DSA-SHA2-192s key pair that three 24-byte seeds give (FIPS 205; R461). [DESIGN CHOICE: log 14]
-/
opaque Config.slhPublic : List Byte → List Byte

/-- The deterministic SLH-DSA-SHA2-192s signature of a message under the key of three 24-byte seeds (FIPS 205; R464). [DESIGN
CHOICE: log 14] -/
opaque Config.slhSign : List Byte → List Byte → List Byte

/-- `IDSEED`, burnt at the factory (R460). [DESIGN CHOICE: log 14] -/
opaque Config.idSeed : BitVec 256

/-- `FWKEYH`, burnt at the factory (R460). [DESIGN CHOICE: log 14] -/
opaque Config.fwKeyHash : BitVec 256

/-- The certificate chain of the factory records (R463). [DESIGN CHOICE: log 14] -/
opaque Config.certChain : List Byte

/-- The boot ROM (R462). [DESIGN CHOICE: log 14] -/
opaque Config.rom : List Byte

/-- The firmware slot as the factory writes it, byte by byte (R453). [DESIGN CHOICE: log 14] -/
opaque Config.factoryImage : Nat → Byte

/-- The factory records, as measurement register 3 takes them (R462). [DESIGN CHOICE: log 14] -/
opaque Config.factoryRecords : List Byte

/-- The digest of the field state as a start reads it (R462), by the contents of that state. [DESIGN CHOICE: log 14] -/
opaque Config.fieldDigest : List Byte → BitVec 256

/-- The code by which FW_STATUS shows a slot that does not verify (R446, R459), and how far from it that of one that does.
[DESIGN CHOICE: log 14] -/
opaque Config.slotStateCode : Byte
opaque Config.slotStateGap : Nat

/-- `CTX` of a sent frame (R417): by the number of the frame, none for a frame of no Baton command. [DESIGN CHOICE: log 62] -/
opaque Config.transferCtx : Option Nat → BitVec 32

/-- The bytes of a message frame's payload (R417), by the number of the frame. [DESIGN CHOICE: log 62] -/
opaque Config.messageByte : Nat → Nat → Byte

/-- Skovdan's PCI-SIG vendor identifier (R431). [DESIGN CHOICE: log 14] -/
opaque Config.vendorId : BitVec 16

/-- The cause that `MODULE_FAULT` carries (R350): 0 the reference clock, 1 the hub's root PLL, 2 a thermal trip. [DESIGN
CHOICE: log 17] -/
opaque Config.moduleFaultCause : Nat → Byte

/-- The scan-pattern store of the flash as the factory writes it (R355): one pattern set per stepping. [DESIGN CHOICE: log 14] -/
opaque Config.patternStore : List (Byte × List Byte)

/-- The signature that a scan phase must show (R353-R355): of phase 2 from the firmware payload, of phase 3 from the pattern set; by the
region (0 a core, 1 a die's logic, 2 the hub), the phase and the stepping. [DESIGN CHOICE: log 14] -/
opaque Config.scanSignature : Nat → Nat → Byte → Word

/-- The summary record of a shutdown (R361), by the number that `State.fresh` gives it. [DESIGN CHOICE: log 14] -/
opaque Config.shutdownSummary : Nat → List Byte

end Sys2Proof
end

