-- ==== Sys2Proof/Machine/Formats.lean ====
section
/-! DEFINITION. Number formats and the one rounding of the module (R33-R54): exact values, decoding of every element format,
rounding to nearest even into every element format, and the scales of two levels. -/

namespace Sys2Proof.Machine

/-- An exact value: NaN, an infinity, or (-1)^neg x m x 2^e. Zero is `fin neg 0 e`, and keeps its sign (R37). -/
inductive FVal where
  | nan
  | inf (neg : Bool)
  | fin (neg : Bool) (m : Nat) (e : Int)
  deriving DecidableEq, Repr

/-- The layout of a floating format: `p` mantissa bits, the exponent `umin` of its smallest subnormal, the code of its largest
finite magnitude, the code of infinity where the format has one, its canonical NaN and its sign bit's position (R38). -/
structure FFmt where
  p : Nat
  umin : Int
  maxCode : Nat
  infCode : Option Nat
  nanCode : Nat
  signBit : Nat
  deriving DecidableEq, Repr

/-- G4: E2M1 (R38, R39). -/
def FFmt.g4 : FFmt := ⟨1, -1, 7, none, 8, 3⟩
/-- G8: E4M3 (R38). -/
def FFmt.g8 : FFmt := ⟨3, -9, 0x7E, none, 0x7F, 7⟩
/-- G8W: E5M2 (R38). -/
def FFmt.g8w : FFmt := ⟨2, -16, 0x7B, some 0x7C, 0x7E, 7⟩
/-- G16: E8M7 (R38). -/
def FFmt.g16 : FFmt := ⟨7, -133, 0x7F7F, some 0x7F80, 0x7FC0, 15⟩
/-- A24: E8M15 (R38). -/
def FFmt.a24 : FFmt := ⟨15, -141, 0x7F7FFF, some 0x7F8000, 0x7FC000, 23⟩
/-- A32: binary32 layout (R38). -/
def FFmt.a32 : FFmt := ⟨23, -149, 0x7F7FFFFF, some 0x7F800000, 0x7FC00000, 31⟩

/-- `m x 2^e` as a multiple of `2^u`, rounded to nearest, ties to even (R35). -/
def rneTo (m : Nat) (e u : Int) : Nat :=
  if u ≤ e then m <<< (e - u).toNat
  else
    let d := (u - e).toNat
    let q := m >>> d
    let r := m - (q <<< d)
    let half := 1 <<< (d - 1)
    if half < r ∨ (r = half ∧ q % 2 = 1) then q + 1 else q

/-- The magnitude code of `m x 2^e` in a format, with the exponent unbounded above (R35). -/
def FFmt.magCode (f : FFmt) (m : Nat) (e : Int) : Nat :=
  if m = 0 then 0
  else
    let top : Int := e + (m.log2 : Int)
    let u := max (top - (f.p : Int)) f.umin
    ((u - f.umin).toNat <<< f.p) + rneTo m e u

/-- A sign and a magnitude code as a code of the format. -/
def FFmt.withSign (f : FFmt) (neg : Bool) (mag : Nat) : Nat :=
  if neg then mag + 2 ^ f.signBit else mag

/-- What a source becomes in a format, and whether it is counted (R53, Table: Conversion at the limits). -/
def FFmt.encode (f : FFmt) : FVal → Nat × Bool
  | .nan => (f.nanCode, false)
  | .inf neg =>
    match f.infCode with
    | some c => (f.withSign neg c, false)
    | none => (f.withSign neg f.maxCode, true)
  | .fin neg m e =>
    let c := f.magCode m e
    if f.maxCode < c then
      match f.infCode with
      | some i => (f.withSign neg i, false)
      | none => (f.withSign neg f.maxCode, true)
    else if c = 0 ∧ f.signBit = 3 then (0, false)
    else (f.withSign neg c, false)

/-- The value of a code (R38, R39). -/
def FFmt.decode (f : FFmt) (code : Nat) : FVal :=
  let neg := code.testBit f.signBit
  let mag := code % 2 ^ f.signBit
  if f.signBit = 3 ∧ code % 16 = 8 then .nan
  else
    let e := mag >>> f.p
    let m := mag % 2 ^ f.p
    match f.infCode with
    | some i =>
      if mag = i then .inf neg
      else if i < mag then .nan
      else if e = 0 then .fin neg m f.umin
      else .fin neg (m + 2 ^ f.p) (f.umin + (e : Int) - 1)
    | none =>
      if f.maxCode < mag then .nan
      else if e = 0 then .fin neg m f.umin
      else .fin neg (m + 2 ^ f.p) (f.umin + (e : Int) - 1)

/-- The value of A32 bits. -/
def a32Val (x : Lane) : FVal := FFmt.a32.decode x.toNat
/-- A value rounded once to A32 (R35, R53). -/
def toA32 (v : FVal) : Lane := BitVec.ofNat 32 (FFmt.a32.encode v).1
/-- The value of G16 bits. -/
def g16Val (x : BitVec 16) : FVal := FFmt.g16.decode x.toNat
/-- A value rounded once to G16. -/
def toG16 (v : FVal) : BitVec 16 := BitVec.ofNat 16 (FFmt.g16.encode v).1

/-- The canonical NaN of A32 (R36). -/
def a32NaN : Lane := 0x7FC00000#32

namespace FVal

def isNan : FVal → Bool
  | .nan => true
  | _ => false

def isInf : FVal → Bool
  | .inf _ => true
  | _ => false

def isFin : FVal → Bool
  | .fin _ _ _ => true
  | _ => false

/-- A finite value that is zero. -/
def isZero : FVal → Bool
  | .fin _ m _ => m == 0
  | _ => false

def isNeg : FVal → Bool
  | .nan => false
  | .inf n => n
  | .fin n _ _ => n

/-- The sign inverted. -/
def neg : FVal → FVal
  | .nan => .nan
  | .inf n => .inf (!n)
  | .fin n m e => .fin (!n) m e

/-- The sign cleared. -/
def abs : FVal → FVal
  | .nan => .nan
  | .inf _ => .inf false
  | .fin _ m e => .fin false m e

/-- A signed integer m x 2^e as a value; zero takes the sign given. -/
def ofInt (z : Int) (e : Int) (zeroNeg : Bool) : FVal :=
  if z = 0 then .fin zeroNeg 0 e else .fin (z < 0) z.natAbs e

/-- The integer that a finite value is at the exponent `u`, which is not above its own. -/
def atExp (neg : Bool) (m : Nat) (e u : Int) : Int :=
  let v : Int := ((m <<< (e - u).toNat : Nat) : Int)
  if neg then -v else v

/-- The exact sum, with the special values of R180: an exact zero is +0 but for a sum of two -0. -/
def add : FVal → FVal → FVal
  | .nan, _ => .nan
  | .inf _, .nan => .nan
  | .inf a, .inf b => if a = b then .inf a else .nan
  | .inf a, .fin _ _ _ => .inf a
  | .fin _ _ _, .nan => .nan
  | .fin _ _ _, .inf b => .inf b
  | .fin na ma ea, .fin nb mb eb =>
    let u := min ea eb
    ofInt (atExp na ma ea u + atExp nb mb eb u) u (na && nb)

/-- The exact difference. -/
def sub (a b : FVal) : FVal := add a (neg b)

/-- The exact product; 0 x infinity is NaN (R180). -/
def mul : FVal → FVal → FVal
  | .nan, _ => .nan
  | .inf _, .nan => .nan
  | .inf a, .inf b => .inf (a != b)
  | .inf a, .fin b m _ => if m = 0 then .nan else .inf (a != b)
  | .fin _ _ _, .nan => .nan
  | .fin a m _, .inf b => if m = 0 then .nan else .inf (a != b)
  | .fin a ma ea, .fin b mb eb => .fin (a != b) (ma * mb) (ea + eb)

/-- A value times 2^k, exactly. -/
def scale (v : FVal) (k : Int) : FVal :=
  match v with
  | .fin n m e => .fin n m (e + k)
  | v => v

/-- A quotient carried to more than 60 significant bits, its last bit set where the division leaves a remainder: every format
of at most 24 significant bits rounds it as it rounds the exact quotient (R51, R181). -/
def div : FVal → FVal → FVal
  | .nan, _ => .nan
  | .inf _, .nan => .nan
  | .inf _, .inf _ => .nan
  | .inf a, .fin b _ _ => .inf (a != b)
  | .fin _ _ _, .nan => .nan
  | .fin a _ _, .inf b => .fin (a != b) 0 0
  | .fin a ma ea, .fin b mb eb =>
    if mb = 0 then (if ma = 0 then .nan else .inf (a != b))
    else if ma = 0 then .fin (a != b) 0 0
    else
      let k := 64 + mb.log2
      let n := ma <<< k
      let q := n / mb
      let sticky := if n % mb = 0 then 0 else 1
      .fin (a != b) (2 * q + sticky) (ea - eb - (k : Int) - 1)

/-- The largest r < 2^n with r x r at most x, bit by bit. -/
def isqrtBits (x : Nat) : Nat → Nat → Nat
  | 0, r => r
  | n + 1, r =>
    let t := r + 2 ^ n
    isqrtBits x n (if t * t ≤ x then t else r)

/-- A square root carried beyond 60 significant bits, its last bit set where it is not exact. -/
def sqrt : FVal → FVal
  | .nan => .nan
  | .inf n => if n then .nan else .inf false
  | .fin n m e =>
    if m = 0 then .fin n 0 0
    else if n then .nan
    else
      let odd : Bool := e % 2 ≠ 0
      let m1 := if odd then 2 * m else m
      let e1 := if odd then e - 1 else e
      let m2 := m1 <<< 80
      let r := isqrtBits m2 (m2.log2 / 2 + 1) 0
      let sticky := if r * r = m2 then 0 else 1
      .fin false (2 * r + sticky) ((e1 - 80) / 2 - 1)

/-- a < b on numbers; false with a NaN. -/
def lt : FVal → FVal → Bool
  | .nan, _ => false
  | .inf _, .nan => false
  | .inf a, .inf b => a && !b
  | .inf a, .fin _ _ _ => a
  | .fin _ _ _, .nan => false
  | .fin _ _ _, .inf b => !b
  | .fin na ma ea, .fin nb mb eb =>
    let u := min ea eb
    decide (atExp na ma ea u < atExp nb mb eb u)

/-- a = b on numbers, +0 and -0 equal; false with a NaN. -/
def eqv (a b : FVal) : Bool := !a.isNan && !b.isNan && !lt a b && !lt b a

/-- a is at most b; false with a NaN. -/
def le (a b : FVal) : Bool := lt a b || eqv a b

end FVal

/-- The floating format of a code 0x0-0x5 (R33). -/
def fmtOf (code : BitVec 4) : Option FFmt :=
  if code = 0 then some .g4
  else if code = 1 then some .g8
  else if code = 2 then some .g8w
  else if code = 3 then some .g16
  else if code = 4 then some .a24
  else if code = 5 then some .a32
  else none

/-- Bits per element of a format code (R33). -/
def fmtBits (code : BitVec 4) : Nat :=
  if code = 0 then 4
  else if code = 1 ∨ code = 2 ∨ code = 6 then 8
  else if code = 3 then 16
  else if code = 4 then 24
  else 32

/-- A format code 0x8-0xF is reserved (R33). -/
def fmtReserved (code : BitVec 4) : Bool := code.toNat ≥ 8

/-- The G8 code that a G4 code enters the array as (R39). -/
def g4ToG8 (code : Nat) : Nat :=
  (FFmt.g8.encode (FFmt.g4.decode code)).1

/-- G16 widened to A32: 16 zero bits appended; a NaN is canonical (R42). -/
def widen16 (x : BitVec 16) : Lane :=
  if (g16Val x).isNan then a32NaN else BitVec.ofNat 32 (x.toNat <<< 16)

/-- A24 widened to A32: 8 zero bits appended; a NaN is canonical (R42). -/
def widen24 (x : BitVec 24) : Lane :=
  if (FFmt.a24.decode x.toNat).isNan then a32NaN else BitVec.ofNat 32 (x.toNat <<< 8)

/-- The fields of a format-and-scale record (R46). -/
structure FmtScale where
  coarse : BitVec 32
  fineConst : BitVec 8
  finePlane : Bool
  blockAxis : BitVec 2
  fmt : BitVec 4
  rsvZero : Bool
  deriving DecidableEq, Repr

/-- A 64-bit record read by the layout of Table: FMTSCALE. -/
def FmtScale.ofWord (w : Word) : FmtScale :=
  { coarse := w.extractLsb' 32 32, fineConst := w.extractLsb' 24 8, finePlane := w.getLsbD 8,
    blockAxis := w.extractLsb' 4 2, fmt := w.extractLsb' 0 4,
    rsvZero := w.extractLsb' 9 15 == 0 && w.extractLsb' 6 2 == 0 }

/-- The format is one of the scaled formats 0x0-0x3. -/
def FmtScale.scaled (r : FmtScale) : Bool := r.fmt.toNat < 4

/-- A coarse scale is positive, finite and normal (R47). -/
def coarseOk (c : BitVec 32) : Bool := 0x00800000 ≤ c.toNat && c.toNat ≤ 0x7F7FFFFF

/-- The value of a coarse scale. -/
def coarseVal (c : BitVec 32) : FVal := a32Val c

/-- The record as a command judges it (R10, R34, R46, R47): its reserved fields are 0, its format is listed, and a scaled
format has a good coarse scale and a listed block axis. [DEDUCED: log 21] -/
def FmtScale.good (r : FmtScale) : Bool :=
  r.rsvZero && !fmtReserved r.fmt &&
    (!r.scaled || (coarseOk r.coarse && r.blockAxis.toNat < 2))

/-- A scaled element decoded to A32 (R49). -/
def decodeScaled (f : FFmt) (code : Nat) (fine : Int) (c : FVal) : Lane :=
  toA32 (((f.decode code).scale fine).mul c)

/-- The code of an exact source in a scaled format with coarse scale c and fine exponent f, and whether it counts (R51). -/
def encodeScaled (fmt : FFmt) (x : FVal) (fine : Int) (c : FVal) : Nat × Bool :=
  fmt.encode (x.div (c.scale fine))

/-- The least f in [-128, 0] with A at most c x M x 2^f, searched from -128 (R52). -/
def leastFine (a lim : FVal) : Nat → Int → Int
  | 0, _ => 0
  | n + 1, f => if a.le (lim.scale f) then f else leastFine a lim n (f + 1)

/-- The fine exponent AUTO chooses for a block whose largest non-NaN magnitude is `a` (`none`: every element NaN) (R52). -/
def autoFine (fmt : FFmt) (c : FVal) (a : Option FVal) : Int :=
  match a with
  | none => 0
  | some v =>
    if v.isZero then 0
    else leastFine v (c.mul (fmt.decode fmt.maxCode)) 129 (-128)

/-- The larger of two magnitudes, neither NaN. -/
def maxMag (a b : FVal) : FVal := if a.lt b then b else a

/-- The largest magnitude among the non-NaN elements, infinities included (R52, R115). -/
def blockMag (vs : List FVal) : Option FVal :=
  vs.foldl (fun acc v =>
    if v.isNan then acc
    else match acc with
      | none => some v.abs
      | some a => some (maxMag a v.abs)) none

/-- An integer rounded to nearest even from m x 2^e with a sign. -/
def rneInt (neg : Bool) (m : Nat) (e : Int) : Int :=
  let q : Int := (rneTo m e 0 : Nat)
  if neg then -q else q

/-- The exponent of the unit 2^-8 x ULP of a finite G16 weight (R43). -/
def tailUnitExp (w : BitVec 16) : Int :=
  let e := (w.toNat >>> 7) % 256
  if e = 0 then -141 else (e : Int) - 142

/-- The value of a TW8 code against a G16 weight; 0 against an infinite or NaN weight (R43). -/
def tailVal (t : Byte) (w : BitVec 16) : FVal :=
  if (w.toNat >>> 7) % 256 = 255 then .fin false 0 0
  else FVal.ofInt t.toInt (tailUnitExp w) false

/-- A remainder converted to TW8 against a weight, and whether it counts (R44). -/
def toTail (r : FVal) (w : BitVec 16) : Byte × Bool :=
  if (w.toNat >>> 7) % 256 = 255 then (0, true)
  else match r with
    | .nan => (0, true)
    | .inf n => (if n then 0x80#8 else 0x7F#8, true)
    | .fin n m e =>
      let t := rneInt n m (e - tailUnitExp w)
      if 127 < t then (0x7F#8, true)
      else if t < -128 then (0x80#8, true)
      else (BitVec.ofInt 8 t, false)

/-- The tailwater update of one element: the new weight, the new tail and whether it counts (R122, R123). -/
def tailUpdate (w : BitVec 16) (t : Byte) (delta : Lane) : BitVec 16 × Byte × Bool :=
  let wv := g16Val w
  let dv := a32Val delta
  let tv := tailVal t w
  let sum := (wv.add dv).add tv
  let x :=
    match sum with
    | .fin _ 0 e => FVal.fin (wv.isNeg && dv.isNeg && wv.isZero && dv.isZero && tv.isZero) 0 e
    | v => v
  let w' := toG16 x
  if (w'.toNat >>> 7) % 256 = 255 then (w', 0, true)
  else
    let r := x.sub (g16Val w')
    let (t', c) := toTail r w'
    (w', t', c)

end Sys2Proof.Machine
end

