-- ==== Sys2Proof/Machine/SlotOps.lean ====
section
/-! DEFINITION. The operations of the six slots and the flow codes as data (R146, R166-R195), which of their encodings are
listed (R166, R167), and the two directions between an operation and its field of a bundle. -/

namespace Sys2Proof.Machine

/-- The two-operand scalar functions of Table: Scalar opcodes that have a register and an immediate form. -/
inductive AluFn where
  | add | sub | and | or | xor | shl | shr | sar | min | max | minu | maxu | seq | slt | sltu
  deriving DecidableEq, Repr

/-- The second operand of a scalar operation. -/
inductive SSrc where
  | reg (sb : Reg)
  | imm (v : BitVec 32)
  deriving DecidableEq, Repr

/-- The multiplies of the scalar slot. -/
inductive MulFn where
  | mul | mulh | mulhu
  deriving DecidableEq, Repr

/-- A scalar-slot operation (R174). -/
inductive ScalarOp where
  | alu (f : AluFn) (sd sa : Reg) (b : SSrc)
  | movi (sd : Reg) (v : BitVec 32)
  | movhi (sd sa : Reg) (v : BitVec 32)
  | sel (sd sa sb : Reg) (v : BitVec 32)
  | mul (f : MulFn) (sd sa sb : Reg)
  | rdcr (sd : Reg) (sx : BitVec 9)
  | wrcr (sa : Reg) (sx : BitVec 9)
  | rdtm (sd : Reg) (sx : BitVec 9)
  | wrtm (sa : Reg) (sx : BitVec 9)
  deriving DecidableEq, Repr

/-- The lane operations of two operands that take a lane format. -/
inductive BinFn where
  | add | sub | mul | min | max | maxmag
  deriving DecidableEq, Repr

/-- The lane operations on bits. -/
inductive BitFn where
  | and | or | xor | shl | shr
  deriving DecidableEq, Repr

/-- The reductions of Table: Vector reductions. -/
inductive RedFn where
  | sum | max | min | maxmag
  deriving DecidableEq, Repr

/-- A vector-slot operation (R181-R188). -/
inductive VecOp where
  | bin (f : BinFn) (fmt : BitVec 4) (vd va : Reg) (b : VSrc)
  | un (neg : Bool) (fmt : BitVec 4) (vd va : Reg)
  | mov (vd va : Reg)
  | cmp (fmt : BitVec 4) (cc : BitVec 3) (vd va : Reg) (b : VSrc)
  | sel (vd va vc : Reg) (b : VSrc)
  | bit (f : BitFn) (vd va : Reg) (b : VSrc)
  | bcast (vd sa : Reg)
  | iota (vd sa : Reg)
  | perm (vd va vb : Reg)
  | div (fmt : BitVec 4) (vd va vb : Reg)
  | sqrt (fmt : BitVec 4) (vd va : Reg)
  | red (f : RedFn) (fmt : BitVec 4) (sa va : Reg)
  | wid (high : Bool) (vd va : Reg)
  | nar (vd va vb : Reg)
  | enc (vd va ss sf : Reg) (auto : Bool) (cnt : Option Reg)
  | dec (vd ss sf sa : Reg) (off : BitVec 24)
  | fexp (va ss sf : Reg)
  | out (vd ss sf : Reg) (tile : BitVec 6) (trow : BitVec 7) (auto : Bool) (cnt : Option Reg)
  | pace (first : Bool) (ss scnt sa : Reg) (off : BitVec 24)
  | tail (vd va vb vc : Reg) (cnt : Option Reg)
  deriving DecidableEq, Repr

/-- A matrix-slot operation (R189). -/
inductive MatOp where
  | mmul (a : MxArgs)
  | mrelay (a : MxArgs)
  | mlend (dreg : Reg) (doff : BitVec 19) (tile : BitVec 6) (lead : Fin 16)
  deriving DecidableEq, Repr

/-- The load opcodes (R191). -/
inductive LoadFn where
  | b | h | w | d | v | vw
  deriving DecidableEq, Repr

/-- The store opcodes (R191). -/
inductive StoreFn where
  | b | h | w | d | v
  deriving DecidableEq, Repr

/-- A load-slot operation. -/
structure LoadOp where
  f : LoadFn
  dst : Reg
  areg : Reg
  ctr : BitVec 6
  size : BitVec 3
  off : BitVec 40
  deriving DecidableEq, Repr

/-- A store-slot operation; `dst` is its source register (R191). -/
structure StoreOp where
  f : StoreFn
  dst : Reg
  areg : Reg
  ctr : BitVec 6
  size : BitVec 3
  off : BitVec 40
  deriving DecidableEq, Repr

/-- A sync-slot operation (R194). -/
inductive SyncOp where
  | cinc (ctr : BitVec 6) (imm : BitVec 16)
  | cset (ctr : BitVec 6) (imm : BitVec 16)
  | cadd (ctr : BitVec 6) (sreg : Reg)
  | crd (ctr : BitVec 6) (sreg : Reg)
  | cincr (lcore : CoreId) (ctr : BitVec 6) (imm : BitVec 16)
  | watch (wslot : Fin 16) (lcore : CoreId) (ctr : BitVec 6) (cond : BitVec 3) (imm : BitVec 16)
  | unwatch (wslot : Fin 16)
  | bar (wslot : Fin 16) (scope : BitVec 2) (imm : BitVec 16)
  deriving DecidableEq, Repr

/-- A flow action (R146, R147). -/
inductive FlowOp where
  | next
  | br (target : BIdx)
  | brc (reg : Reg) (fmode : Bool) (cond : BitVec 3) (bitn : BitVec 6) (target : BIdx)
  | loop (csrc : Bool) (cimm : BitVec 16) (reg : Reg) (target : BIdx)
  | call (target : BIdx)
  | ret
  | wait (wslot : Fin 16)
  | fence
  | halt
  deriving DecidableEq, Repr

/-- A bundle whose encodings are all listed (R130, R131). -/
structure Bundle where
  sc : Option ScalarOp
  ve : Option VecOp
  mx : Option MatOp
  ld : Option LoadOp
  st : Option StoreOp
  sy : Option SyncOp
  flow : FlowOp
  gap : BitVec 6
  deriving DecidableEq, Repr

/-- Field values an encoding may hold (R166, R175, R176). -/
def ScalarOp.listed : ScalarOp → Bool
  | .rdcr _ sx => sx.toNat ≤ 2
  | .wrcr _ sx => sx.toNat ≤ 1
  | .rdtm _ sx => sx.toNat < 192
  | .wrtm _ sx => sx.toNat < 192
  | _ => true

/-- Reserved format codes are listed and end in BADFMT (R167). -/
def laneFmtListed (fmt : BitVec 4) (taken : List (BitVec 4)) : Bool := fmtRes fmt || taken.contains fmt
where
  fmtRes (fmt : BitVec 4) : Bool := fmt.toNat ≥ 8

/-- The format codes a reduction takes (R183). -/
def RedFn.fmts : RedFn → List (BitVec 4)
  | .sum => [3, 5, 7]
  | .max => [5, 7]
  | .min => [5, 7]
  | .maxmag => [3, 5]

/-- The format codes a two-operand lane operation takes (R181). -/
def BinFn.fmts : BinFn → List (BitVec 4)
  | .maxmag => [3, 5]
  | _ => [3, 5, 7]

/-- Field values a vector operation may hold (R166, R167, R181-R188). -/
def VecOp.listed : VecOp → Bool
  | .bin f fmt _ _ _ => laneFmtListed fmt f.fmts
  | .un _ fmt _ _ => laneFmtListed fmt [3, 5]
  | .cmp fmt cc _ _ _ => laneFmtListed fmt [3, 5, 7] && decide (cc.toNat < 6)
  | .div fmt _ _ _ => laneFmtListed fmt [5]
  | .sqrt fmt _ _ => laneFmtListed fmt [5]
  | .red f fmt _ _ => laneFmtListed fmt f.fmts
  | .tail vd _ _ _ _ => vd.val % 2 == 0
  | _ => true

/-- The load slot lists counters 0-47, sizes 0-5 of its vector forms, 4 and 5 of LDVW, and size 0 of its scalar forms (R191). -/
def LoadOp.listed (o : LoadOp) : Bool :=
  decide (o.ctr.toNat < 48) &&
    (match o.f with
     | .v => decide (o.size.toNat ≤ 5)
     | .vw => o.size == 4 || o.size == 5
     | _ => o.size == 0)

/-- The store slot lists counters 0-47, sizes 0-5 of STV, and size 0 of its scalar forms (R191). -/
def StoreOp.listed (o : StoreOp) : Bool :=
  decide (o.ctr.toNat < 48) &&
    (match o.f with
     | .v => decide (o.size.toNat ≤ 5)
     | _ => o.size == 0)

/-- The sync slot lists counters 0-47, conditions 0-3, scopes 0-2 and the contexts of each scope; a logical core of the grade
(R166, R193-R195, R224). -/
def SyncOp.listed (cores : Nat) : SyncOp → Bool
  | .cinc ctr _ => decide (ctr.toNat < 48)
  | .cset ctr _ => decide (ctr.toNat < 48)
  | .cadd ctr _ => decide (ctr.toNat < 48)
  | .crd ctr _ => decide (ctr.toNat < 48)
  | .cincr lcore ctr _ => decide (ctr.toNat < 48) && decide (lcore.val < cores)
  | .watch _ lcore ctr cond _ => decide (ctr.toNat < 48) && decide (lcore.val < cores) && decide (cond.toNat < 4)
  | .unwatch _ => true
  | .bar _ scope imm =>
    decide (scope.toNat < 3) && decide (imm.toNat < (if scope = 2 then 8 else 16))

/-- The flow words that are listed: BSET and BCLR do not take FMODE 1, a field that is not used holds 0 (R147, R157). -/
def FlowOp.listed : FlowOp → Bool
  | .brc _ fmode cond bitn _ => if 6 ≤ cond.toNat then !fmode else bitn == 0
  | .loop csrc cimm reg _ => if csrc then cimm == 0 else reg == 0
  | _ => true

end Sys2Proof.Machine
end

