-- ==== Sys2Proof/Machine/Sparse.lean ====
section
/-! DEFINITION. Sparse maps: a list of (number, value) pairs in one canonical form, numbers strictly rising. A map of bytes lists
no byte equal to 0, which an unlisted address reads as. -/

namespace Sys2Proof.Machine

/-- A sparse map by number. -/
abbrev Sparse (α : Type) := List (Nat × α)

/-- What a number maps to. -/
def Sparse.find {α : Type} : Sparse α → Nat → Option α
  | [], _ => none
  | (k, v) :: m, a => if a = k then some v else if a < k then none else Sparse.find m a

/-- The map with one number set. -/
def Sparse.put {α : Type} : Sparse α → Nat → α → Sparse α
  | [], a, v => [(a, v)]
  | (k, w) :: m, a, v =>
    if a < k then (a, v) :: (k, w) :: m
    else if a = k then (a, v) :: m
    else (k, w) :: Sparse.put m a v

/-- The map with one number removed. -/
def Sparse.del {α : Type} : Sparse α → Nat → Sparse α
  | [], _ => []
  | (k, w) :: m, a => if a = k then m else if a < k then (k, w) :: m else (k, w) :: Sparse.del m a

/-- The map with one number set or removed. -/
def Sparse.upd {α : Type} (m : Sparse α) (a : Nat) (v : Option α) : Sparse α :=
  match v with
  | some x => m.put a x
  | none => m.del a

/-- Every listed number is above `a`, strictly rising. -/
def Sparse.above {α : Type} : Nat → Sparse α → Bool
  | _, [] => true
  | a, (k, _) :: m => decide (a < k) && Sparse.above k m

/-- The canonical order of a sparse map: numbers strictly rising. -/
def Sparse.sorted {α : Type} : Sparse α → Bool
  | [] => true
  | (k, _) :: m => Sparse.above k m

/-- A memory of bytes (Host.Cell). -/
abbrev Memory := List Host.Cell

/-- The byte at an address; an unlisted one reads 0. [DESIGN CHOICE: log 4] -/
def Memory.byte (m : Memory) (a : Nat) : Byte := (Sparse.find m a).getD 0

/-- One byte written; writing 0 removes the entry. [DESIGN CHOICE: log 4] -/
def Memory.setByte (m : Memory) (a : Nat) (b : Byte) : Memory := if b = 0 then Sparse.del m a else Sparse.put m a b

/-- `n` bytes from an address. -/
def Memory.bytes (m : Memory) (a : Nat) : Nat → List Byte
  | 0 => []
  | n + 1 => Memory.byte m a :: Memory.bytes m (a + 1) n

/-- Bytes written from an address on. -/
def Memory.setBytes (m : Memory) (a : Nat) : List Byte → Memory
  | [] => m
  | b :: bs => Memory.setBytes (Memory.setByte m a b) (a + 1) bs

/-- The canonical form: addresses strictly rising and no entry equal to 0. [DESIGN CHOICE: log 4] -/
def Memory.wf (m : Memory) : Bool := Sparse.sorted m && m.all fun c => c.2 != 0

/-- Bytes as a number, the lowest address holding bits [7:0] (R8). -/
def leNat : List Byte → Nat
  | [] => 0
  | b :: bs => b.toNat + 256 * leNat bs

/-- A number's low bytes, the lowest first (R8). -/
def natLe : Nat → Nat → List Byte
  | 0, _ => []
  | n + 1, v => BitVec.ofNat 8 v :: natLe n (v / 256)

end Sys2Proof.Machine
end

