-- ==== Sys2Proof/Machine/CoreTypes.lean ====
section
/-! DEFINITION. The state of one logical core: its architectural state (R17) and the work in flight in its slots, its matrix array
and its far-access queue. -/

namespace Sys2Proof.Machine

/-- Corrected errors of no record yet, and the control tick of the last record of one (R351). [DEDUCED: log 72] -/
structure Corrected where
  held : Nat
  last : Option Nat
  deriving DecidableEq, Repr

def Corrected.reset : Corrected := ⟨0, none⟩

/-- No record stands in the last second, 100,000 control ticks (R351). -/
def Corrected.open_ (c : Corrected) (now : Nat) : Bool :=
  match c.last with
  | none => true
  | some t => decide (t + 100000 ≤ now)

/-- Tile metadata of one index (R87). -/
structure TileMeta where
  teo : BitVec 8
  image : Bool
  armed : Bool
  chkrep : Bool
  replays : BitVec 2
  ovfinf : Bool
  scaled : Bool
  cx : BitVec 32
  cw : BitVec 32
  deriving DecidableEq, Repr

/-- A loop entry: call depth at its push, start, end and remaining iterations (R150, Table: Sequencer state). -/
structure LoopEntry where
  depth : Nat
  start : BIdx
  last : BIdx
  remaining : BitVec 32
  deriving DecidableEq, Repr

/-- State of a watch slot (R221, R240). -/
inductive Wst where
  | empty
  | armed
  | notified
  deriving DecidableEq, Repr

/-- A watch record (R240) and the tag of its registration (R222). -/
structure WatchRec where
  wst : Wst
  kind : BitVec 2
  gen : BitVec 16
  lcore : CoreId
  ctr : BitVec 6
  cond : BitVec 3
  imm : BitVec 16
  tag : Nat
  /-- The barrier's context was aborted: the next launch empties the slot (R235). -/
  aborted : Bool
  deriving DecidableEq, Repr

/-- A registration as the Starter of the watched counter holds it (R223, R224). -/
structure Watcher where
  core : CoreId
  slot : Fin 16
  tag : Nat
  ctr : BitVec 6
  cond : BitVec 3
  imm : BitVec 16
  deriving DecidableEq, Repr

/-- What the sequencer does from the current program cycle on (R133, R149, R154-R156, Table: Sequencer state). -/
inductive Phase where
  /-- Stopped. -/
  | stopped
  /-- Bundle `PC` issues in the cycle given. -/
  | issuing (at_ : Nat)
  /-- Empty cycles of `GAP`; bundle `PC` issues in the cycle given. -/
  | gap (at_ : Nat)
  /-- Bubbles of a transfer; bundle `PC` issues in the cycle given. -/
  | bubble (at_ : Nat)
  /-- In a WAIT on a watch slot. -/
  | wait (slot : Fin 16)
  /-- In a FENCE; bundle `PC` issues in the cycle given. -/
  | fence (at_ : Nat)
  /-- In the fence of a HALT; the sequencer stops in the cycle given. -/
  | halting (at_ : Nat)
  deriving DecidableEq, Repr

/-- Sequencer state (R162, Table: Sequencer state). The innermost loop entry and the last return index are first. -/
structure SeqState where
  pc : BIdx
  cyc : BitVec 64
  issued : BitVec 48
  lstk : List LoopEntry
  /-- Return indices, the last one first; 8,192 past a CALL at index 8,191. -/
  cstk : List Nat
  phase : Phase
  /-- The flow has gone past bundle 8,191: the sequencer stops where bundle 8,192 would issue (R134). -/
  past : Bool
  deriving DecidableEq, Repr

/-- The architectural state of a core (R17) outside its memory windows. -/
structure CoreArch where
  sregs : Vector Word 32
  vregs : Vector VReg 32
  sticky : BitVec 9
  stopCause : BitVec 8
  layout : BitVec 2
  tiles : Vector TileMeta 64
  ctrs : Vector (BitVec 16) 48
  watches : Vector WatchRec 16
  seq : SeqState
  deriving DecidableEq, Repr

/-- The slots, coded as the in-flight list codes them (R163). -/
inductive SlotId where
  | scalar | vector | matrix | load | store | sync
  deriving DecidableEq, Repr

/-- Table: Write priority. -/
def SlotId.rank : SlotId → Nat
  | .matrix => 1 | .vector => 2 | .load => 3 | .store => 4 | .sync => 5 | .scalar => 6

/-- The slot's code in an in-flight entry (R163). [DEDUCED: log 20] -/
def SlotId.code : SlotId → Nat
  | .scalar => 0 | .vector => 1 | .matrix => 2 | .load => 3 | .store => 4 | .sync => 5

/-- One write of a landing operation to one destination. -/
inductive Wr where
  /-- A scalar register. -/
  | sreg (r : Reg) (v : Word)
  /-- A saturation count added to a scalar register (R55). -/
  | count (r : Reg) (n : Nat)
  /-- A vector register. -/
  | vreg (r : Reg) (v : VReg)
  /-- Bytes at a device address. -/
  | mem (addr : Nat) (bs : List Byte)
  /-- A sync counter set, or added to (R194). -/
  | ctr (c : Fin 48) (set : Bool) (v : BitVec 16)
  /-- A W1C clear of sticky bits (R159, R175). -/
  | w1c (m : BitVec 9)
  /-- `CIST_CFG`.`LAYOUT` (R85). -/
  | layout (v : BitVec 2)
  /-- `TEO` of a tile (R176). -/
  | teo (t : Fin 64) (v : BitVec 8)
  /-- `CX` of a tile, setting `SCALED` (R87, R176). -/
  | cx (t : Fin 64) (v : BitVec 32)
  /-- `CW` of a tile, setting `SCALED` (R87, R176). -/
  | cw (t : Fin 64) (v : BitVec 32)
  /-- Sticky bits set in the landing cycle (R167). -/
  | sticky (m : BitVec 9)
  /-- A watch registered (R221). -/
  | watch (slot : Fin 16) (lcore : CoreId) (ctr : BitVec 6) (cond : BitVec 3) (imm : BitVec 16)
  /-- A watch removed (R221). -/
  | unwatch (slot : Fin 16)
  /-- An arrival at a barrier (R228). -/
  | bar (slot : Fin 16) (scope : BitVec 2) (ctx : BitVec 16)
  /-- A remote counter change handed to the Starter (R194). -/
  | remote (lcore : CoreId) (ctr : BitVec 6) (v : BitVec 16)
  deriving DecidableEq, Repr

/-- The register operands of a vector-slot operation, read in its issue cycle (R137). -/
structure VecCaps where
  va : VReg
  vb : VReg
  vc : VReg
  sa : Word
  ss : Word
  sf : Word
  scnt : Word
  deriving DecidableEq, Repr

/-- A memory read that a slot operation makes two cycles after its issue (R137). `dead`: an access of the operation is unmapped, so that
it reads no memory byte (R503). -/
inductive MemRead where
  | load (f : LoadFn) (dst : Reg) (addr : Nat) (n : Nat)
  | vec (op : VecOp) (caps : VecCaps) (dead : Bool)
  deriving DecidableEq, Repr

/-- What an operation in flight has still to do. -/
inductive OpBody where
  | read (r : MemRead)
  | writes (ws : List Wr)
  deriving DecidableEq, Repr

/-- An operation in flight with a fixed landing cycle (R136-R138, R163). -/
structure InFlight where
  slot : SlotId
  bidx : BIdx
  issue : Nat
  land : Nat
  body : OpBody
  deriving DecidableEq, Repr

/-- One operand of a matrix operation: its sub-record (R64) and the core whose Basin holds it (R75). -/
structure Operand where
  core : CoreId
  base : Nat
  pitch : Nat
  fbase : Nat
  fpitch : Nat
  turned : Bool
  fs : FmtScale
  deriving DecidableEq, Repr

/-- One sub-problem: its bands of cell rows and tile columns (R74). An operation that is not packed has one, with `h` = 128. -/
structure MxSub where
  row0 : Nat
  h : Nat
  col0 : Nat
  ext : Nat
  k : Nat
  x : Operand
  w : Operand
  deriving DecidableEq, Repr

/-- The running value of a tile element, as R92 classes it. -/
inductive ElemSt where
  /-- Class 1. -/
  | nan
  /-- Class 2. -/
  | inf (neg : Bool)
  /-- Class 3, after an overflowing step of that sign (R96). -/
  | ovf (neg : Bool)
  /-- Class 3, a finite code. -/
  | code (c : Nat)
  deriving DecidableEq, Repr

/-- The part of a matrix operation on one core: the whole operation, or one core's columns of a Relay chain (R75, R77). The
rows it has read and computed are kept by pass and row, 128 x pass + row. -/
structure MxPart where
  core : CoreId
  tile : Fin 64
  /-- The layout of its core's Cistern, taken at issue (R86). -/
  layout : BitVec 2
  delay : Nat
  subs : List MxSub
  /-- Held rows read (WS, IS), or rows of W by step (OS). -/
  held : Sparse (List (Option FVal))
  /-- Tile rows read, as element codes. -/
  entry : Sparse (List Nat)
  /-- Elements computed, by pass and row. -/
  done : Sparse (List (Option ElemSt))
  /-- Image rows as they stood before this operation wrote them, as element codes (R93, R95). -/
  imgs : Sparse (List Nat)
  /-- Some element of this tile has become infinite by overflow (R96). -/
  ovfinf : Bool
  deriving DecidableEq, Repr

/-- An accepted matrix operation (R68, R69). -/
structure MxOp where
  id : Nat
  bidx : BIdx
  c : Nat
  b : Nat
  o : Nat
  r : Nat
  p : Nat
  df : BitVec 2
  start : BitVec 2
  arm : Bool
  packed : Bool
  relay : Bool
  /-- Tile rows inside the extents. -/
  rows : Nat
  /-- Streamed rows (WS, IS), or columns of X by step (OS), as the lead reads them. -/
  strm : Sparse (List (Option FVal))
  parts : List MxPart
  /-- `TEO` as read at the beginning of the first pass, per part. -/
  teo : List Int
  replays : Nat
  chkrep : Bool
  begun : Bool
  deriving DecidableEq, Repr

/-- A replay in its hold (R95, R99, R106): the operations as they stand after it, the bytes and tile exponents it presents, and
the row whose check is made again. -/
structure Replay where
  check : Bool
  left : Nat
  ops : List MxOp
  writes : List (Nat × List Byte)
  teo : List (CoreId × Fin 64 × BitVec 8)
  /-- The operation, its part, the pass and the row. -/
  op : Nat
  part : Nat
  pass : Nat
  row : Nat
  /-- The pass whose detection cycle the hold stands in, and the overflow replays made there. -/
  detect : Nat
  times : Nat
  /-- The pass in which the rerun has overflowed again, which another overflow replay follows (R96). -/
  again : Option Nat
  deriving DecidableEq, Repr

/-- A core's place in Relay mode (R76, R78). -/
inductive RelaySt where
  | none
  /-- MRELAY waits for its own array. -/
  | waiting (a : MxArgs) (off : Nat) (bidx : BIdx)
  /-- MRELAY, judged at the end of its wait, holds for its chain. -/
  | lead (a : MxArgs) (desc : List Byte) (bidx : BIdx)
  /-- MLEND waits for its own array, then is lent to the lead. -/
  | member (lead : CoreId) (tile : BitVec 6) (desc : List Byte) (bidx : BIdx)
  /-- Lent to a Relay operation under way. -/
  | running (lead : CoreId)
  deriving DecidableEq, Repr

/-- A far access that waits for one of the 32 places (R172). -/
inductive FarOp where
  | load (o : LoadOp)
  | store (o : StoreOp)
  deriving DecidableEq, Repr

/-- A block of a far access as it was served (R200): its number, the Runnel that serves it (R216), the bytes read for a load, whether
its check failed, and whether its access has completed. -/
structure FarBlk where
  blk : Nat
  on : Fin 2
  got : List Byte
  bad : Bool
  fin : Bool
  deriving DecidableEq, Repr

/-- A far access outstanding (R172, R200). -/
structure FarAcc where
  store : Bool
  f : LoadFn
  dst : Reg
  addr : Nat
  size : Nat
  ctr : BitVec 6
  /-- Bytes of a store. -/
  data : List Byte
  /-- The blocks that have been served, each an access of its own (R200). -/
  served : List FarBlk
  /-- The blocks that have been fetched again once (R337). -/
  retried : List Nat
  /-- A block that failed twice: its address, the `CRC` expected and the one found. -/
  lost : Option (Nat × BitVec 32 × BitVec 32)
  bidx : BIdx
  /-- The issue cycle (R144). -/
  cyc : Nat
  deriving DecidableEq, Repr

/-- A notification of an own-core watch on its way through the watch logic (R225). -/
structure OwnNote where
  due : Nat
  slot : Fin 16
  tag : Nat
  deriving DecidableEq, Repr

/-- A launch under way or ended (R135, R161, R260). -/
structure Launch where
  queue : Nat
  stopN : BitVec 48
  edge : Bool
  /-- The last wait cycle (R161). -/
  lastWait : Nat
  /-- The first unmapped address (R503). -/
  unmapped : Option (BitVec 48)
  /-- The status with which a launch stopped by a fault completes (R338, R352). -/
  faultStatus : Byte
  deriving DecidableEq, Repr

/-- A logical core. -/
structure Core where
  arch : CoreArch
  /-- The current program cycle. -/
  now : Nat
  /-- Sticky bits set by events of the current cycle, seen from the next on (R159). -/
  stickyNew : BitVec 9
  /-- How far the current cycle has come: 0 nothing done, 1 landings done, 2 passes ended, 3 reads done. -/
  stage : Nat
  /-- Writes made in the current cycle by slots and array (R143, R145). -/
  landed : List (SlotId × Wr)
  /-- Destinations of the loads that landed in the current cycle, with their issue cycles (R144). -/
  landedLoads : List (Wr × Nat)
  /-- Image rows written by the array in the current cycle (R93); they take no bank port (R210). -/
  images : List (Nat × List Byte)
  /-- Banks that each slot access reads in the current cycle (R209). -/
  slotReads : List (List Nat)
  /-- A bundle has issued in the current cycle (R135). -/
  issued : Bool
  /-- Counter changes delivered from outside the core in the current cycle (R196). -/
  outside : List (BitVec 6 × BitVec 16)
  inflight : List InFlight
  far : List FarAcc
  /-- Far accesses that wait for a place (R172). -/
  farWait : List FarOp
  /-- Accepted matrix operations, oldest first. -/
  mxq : List MxOp
  /-- B' + O' of the last accepted operation (R69). -/
  lastBO : Nat
  mxSerial : Nat
  relay : RelaySt
  hold : Option Replay
  /-- Hold cycles for waiting bank ports (R140). -/
  bankHold : Nat
  notes : List OwnNote
  /-- Registrations on this core's counters (R223, R224). -/
  watchers : List Watcher
  nextTag : Nat
  launch : Option Launch
  /-- The in-flight list of the last prefix stop (R163). -/
  dump : List Word
  /-- The logical core is unavailable (R22). -/
  unavailable : Bool
  /-- Its corrected SRAM errors of no record yet (R351). -/
  corrected : Corrected
  /-- Its check replays of no record yet (R351). -/
  checks : Corrected
  deriving DecidableEq, Repr

def TileMeta.reset : TileMeta := ⟨0, false, false, false, 0, false, false, 0x3F800000, 0x3F800000⟩

def WatchRec.reset : WatchRec := ⟨.empty, 0, 0, 0, 0, 0, 0, 0, false⟩

def VReg.zero : VReg := Vector.replicate 256 0

def SeqState.reset : SeqState := ⟨0, 0, 0, [], [], .stopped, false⟩

/-- A core's architectural state after the reset that resets the die's cores (R17, R85, R87, R158, R162, R217, R240). -/
def CoreArch.reset : CoreArch :=
  { sregs := Vector.replicate 32 0, vregs := Vector.replicate 32 VReg.zero, sticky := 0, stopCause := 0, layout := 0,
    tiles := Vector.replicate 64 TileMeta.reset, ctrs := Vector.replicate 48 0,
    watches := Vector.replicate 16 WatchRec.reset, seq := SeqState.reset }

/-- A core after reset: stopped, with nothing in flight. -/
def Core.reset : Core :=
  { arch := CoreArch.reset, now := 0, stickyNew := 0, stage := 0, landed := [], landedLoads := [], images := [], slotReads := [], issued := false,
    outside := [], inflight := [], far := [], farWait := [], mxq := [], lastBO := 0, mxSerial := 0,
    relay := .none, hold := none, bankHold := 0, notes := [], watchers := [], nextTag := 0, launch := none, dump := [],
    unavailable := false, corrected := Corrected.reset, checks := Corrected.reset }

end Sys2Proof.Machine
end

