-- ==== Sys2Proof/Machine/DevTypes.lean ====
section
/-! DEFINITION. The state of the units outside the cores: Starters and barriers, messages on their way, queues, events, and the
stores of the Clerk. -/

namespace Sys2Proof.Machine

/-! ### Starter (R227-R241) -/

/-- A barrier context of a die: `BAR_CFG` and `BAR_STAT`, and the watch slots that its arrivals named (R229, R237, R238). -/
structure BarCtx where
  valid : Bool
  dieMask : Bool
  dmask : BitVec 4
  cmask : BitVec 16
  gen : BitVec 16
  arrived : BitVec 16
  early : BitVec 16
  darr : BitVec 4
  dearly : BitVec 4
  /-- Slot and tag of each participant's arrival in the current generation, and of its early one. -/
  slots : List (CoreId × Fin 16 × Nat)
  eslots : List (CoreId × Fin 16 × Nat)
  deriving DecidableEq, Repr

def BarCtx.reset : BarCtx := ⟨false, false, 0, 0, 0, 0, 0, 0, 0, [], []⟩

/-- A fabric barrier context: `FBAR_CFG`, `FBAR_STAT`, `FBAR_BIND` and what Baton keeps of its tree (R241, R296, R297). -/
structure FabCtx where
  fcmask : BitVec 64
  valid : Bool
  group : BitVec 12
  gen : BitVec 16
  arrived : BitVec 64
  early : BitVec 64
  slots : List (CoreId × Fin 16 × Nat)
  eslots : List (CoreId × Fin 16 × Nat)
  /-- Child ranks whose message of the current generation has arrived, and of the next. -/
  kids : List Nat
  ekids : List Nat
  /-- The message of the generation before that this module sent to its parent, for a resend. -/
  sent : Bool
  /-- Arrivals that a replay makes again and that are not counted (R340). -/
  replay : List (CoreId × BitVec 16)
  /-- Arrivals of the step that were counted, with the generation joined (R340). -/
  log : List (CoreId × BitVec 16)
  /-- Generations that FABORT ended (R235). -/
  aborted : List (BitVec 16)
  /-- The generation last released down the tree, for a resend (R297). -/
  relGen : Option (BitVec 16)
  deriving DecidableEq, Repr

def FabCtx.reset : FabCtx := ⟨0, false, 0, 0, 0, 0, [], [], [], [], false, [], [], [], none⟩

/-- `STR_STAT` of a die (R239): the latest error's context and core, and the bits BARCFG [4], BARKIND [3], BARDUP [2],
BARNM [1], CFGREJ [0]. -/
structure StrStat where
  ectx : Byte
  elcore : BitVec 7
  bits : BitVec 5
  deriving DecidableEq, Repr

def StrStat.reset : StrStat := ⟨0, 0x7F, 0⟩

/-- A counter change on its way to a core (R218, R219, R255): where it comes from, the counter and the amount. [DESIGN
CHOICE: log 31] -/
structure CtrMsg where
  target : CoreId
  /-- The issuing core, 64 + queue for a SIGEN raise, or a larger number for a Runnel or Baton. -/
  src : Nat
  ctr : BitVec 6
  amount : BitVec 16
  /-- A raise of Baton or SIGEN, which a step replay takes back (R339). -/
  outside : Bool
  deriving DecidableEq, Repr

/-- A notification on its way to a watch slot (R225). -/
structure NoteMsg where
  target : CoreId
  /-- The Starter that sends it, by its die, or 4 for Baton (R16). -/
  src : Nat
  slot : Fin 16
  tag : Nat
  deriving DecidableEq, Repr

/-- A watch registration on its way to another die (R224). -/
structure RegMsg where
  target : CoreId
  w : Watcher
  deriving DecidableEq, Repr

/-- An arrival on its way to its context (R228). -/
structure ArrMsg where
  core : CoreId
  slot : Fin 16
  tag : Nat
  scope : BitVec 2
  ctx : BitVec 16
  deriving DecidableEq, Repr

/-- An arrival message of one die to another (R232). -/
structure DieMsg where
  target : DieId
  sender : DieId
  ctx : Fin 16
  gen : BitVec 16
  dmask : BitVec 4
  deriving DecidableEq, Repr

/-- Messages on their way, oldest first. [DESIGN CHOICE: log 11] -/
structure Msgs where
  ctrs : List CtrMsg
  notes : List NoteMsg
  regs : List RegMsg
  arrs : List ArrMsg
  dies : List DieMsg
  deriving DecidableEq, Repr

def Msgs.none : Msgs := ⟨[], [], [], [], []⟩

/-! ### Queues (R242-R258) -/

/-- Queue states (Table: Queue states). -/
inductive QState where
  | disabled | idle | waiting | active | halted | stopping
  deriving DecidableEq, Repr

/-- A finished command's status and result, waiting for its record (R254). -/
structure Finish where
  status : Byte
  result : BitVec 384
  deriving DecidableEq, Repr

/-- A queue: its registers and its head command (R245, R248). -/
structure Queue where
  base : Nat
  en : Bool
  ecls : BitVec 4
  inst : Byte
  vector : BitVec 11
  log2n : BitVec 5
  tail : BitVec 32
  done : BitVec 32
  qstate : QState
  hcause : Byte
  dberr : Bool
  /-- The 64 bytes of the head command as read (R247, R250). -/
  head : Option (BitVec 512)
  /-- Commands read ahead, the first one that of the head: up to 4 behind it (R247). -/
  ahead : List (BitVec 512)
  /-- Dependency words 1 and 2 of the head have been met (R252). -/
  w1 : Bool
  w2 : Bool
  /-- A queue that an unmet word of the head names has been HALTED while the head waited (R252). -/
  depHalt : Bool
  /-- The engine has begun the head command. -/
  begun : Bool
  /-- Blocks that a command moved so far (R267, R268). -/
  moved : Nat
  /-- The checkpoint image as an export has written it so far (R270, R271). -/
  image : List Byte
  /-- The head's result, until its record is written. -/
  fin : Option Finish
  deriving DecidableEq, Repr

/-- A queue that is not allocated. -/
def Queue.disabled : Queue := ⟨0, false, 0, 0, 0, 0, 0, 0, .disabled, 0, false, none, [], false, false, false, false, 0, [], none⟩

/-! ### Events (R350-R352, R448) -/

/-- A fault or event record of 32 bytes but for its sequence number and step (R350). -/
structure EvRec where
  evt : Byte
  sev : Byte
  die : Byte
  lcore : BitVec 7
  detail : Word
  addr : BitVec 48
  p64 : Bool
  step : BitVec 48
  eseq : BitVec 16
  deriving DecidableEq, Repr

/-- The event ring (R448) and the records held before it is set. [DEDUCED: log 72] -/
structure Events where
  eseq : BitVec 16
  dropped : Nat
  held : List EvRec
  /-- Host address, log2 of the records, vector. -/
  ring : Option (Nat × Nat × BitVec 11)
  evprod : BitVec 32
  evcons : BitVec 32
  /-- SEV 2 records in flash, newest first (R352). -/
  flashed : List EvRec
  deriving DecidableEq, Repr

def Events.reset : Events := ⟨0, 0, [], none, 0, 0, []⟩

end Sys2Proof.Machine
end

