-- ==== Sys2Proof/Machine/MemTypes.lean ====
section
/-! DEFINITION. The state of the memory stacks, the Runnels and their streams, the handle table. -/

namespace Sys2Proof.Machine

/-! ### Memory stacks (R394-R413) -/

/-- A run of HBM blocks written with zero data by the Clerk: its bibs carry the tag and the block's index within the run
(R404).
A void run is one whose frame has been backed anew: its blocks have not been written. [DESIGN CHOICE: log 36] -/
structure Fill where
  first : Nat
  blocks : Nat
  tag : BitVec 12
  void : Bool
  deriving DecidableEq, Repr

/-- A backed frame's `HBM_FRAME` (R397); a frame that is not listed has `FVALID` 0. -/
structure Frame where
  fmode : Bool
  fdie : BitVec 2
  fslice : BitVec 11
  deriving DecidableEq, Repr

/-- What the slices of the stacks that are in no frame hold (R397, R404): bytes by 2^36 x stack + stack offset, bibs and poison marks by
2^24 x stack + stack block; a block with no bib has never been written. -/
structure Shelf where
  mem : Memory
  bibs : Sparse Word
  poison : Sparse Unit
  deriving DecidableEq, Repr

def Shelf.reset : Shelf := ⟨[], [], []⟩

/-- `HSTATE` (R412). -/
inductive HState where
  | training | inService | outOfService | absent
  deriving DecidableEq, Repr

/-- A memory stack: `HBM_STAT`, `HBM_SCRUB` and what its controller counts (R405-R412). -/
structure Stack where
  hstate : HState
  temp : Byte
  ref2x : Bool
  lrep : BitVec 7
  nospare : Bool
  /-- Failing lanes, by channel, that no redundant lane was left for: the code carries them (R408). -/
  badLanes : List (Fin 32 × Fin 72)
  duecnt : BitVec 16
  cecnt : BitVec 16
  passes : Byte
  nextcw : BitVec 30
  /-- The bank whose refresh is next (R406). -/
  refreshBank : BitVec 6
  /-- Successive failed windows of each channel (R409). -/
  winFails : Vector (BitVec 2) 32
  /-- Successive reads of each channel with an uncorrectable codeword (R409). -/
  dueRun : Vector (BitVec 5) 32
  /-- Temperature at each channel's last window, and an extra window due (R407). -/
  winTemp : Vector Byte 32
  winDue : BitVec 32
  /-- Its corrected codewords of no record yet (R351). -/
  corrected : Corrected
  deriving DecidableEq, Repr

/-- A stack at power good (R412). -/
def Stack.reset : Stack :=
  { hstate := .training, temp := 0, ref2x := false, lrep := 0, nospare := false, badLanes := [], duecnt := 0, cecnt := 0, passes := 0,
    nextcw := 0, refreshBank := 0, winFails := Vector.replicate 32 0, dueRun := Vector.replicate 32 0,
    winTemp := Vector.replicate 32 0, winDue := 0, corrected := Corrected.reset }

/-- An allocated tensor handle's range (R263-R265). -/
structure HandleRec where
  gen : BitVec 12
  /-- First block (device address / 4,096) and number of blocks. -/
  first : Nat
  blocks : Nat
  tag : BitVec 12
  hint : BitVec 32
  deriving DecidableEq, Repr

/-- The Clerk's handle table (R263, R328, R497). -/
structure Handles where
  live : Sparse HandleRec
  /-- Indices that stopped allocations gave back to the front of the list, the front first. -/
  returned : List Nat
  /-- Indices freed, in the order in which they are given again: they follow every index not yet used. -/
  freed : List Nat
  /-- The least index never used. -/
  fresh : Nat
  /-- `GEN` of indices that have been freed. -/
  gens : Sparse (BitVec 12)
  /-- Range and tag of handles freed since the last STEPCLOSE. -/
  recent : List (Nat × Nat × BitVec 12)
  deriving DecidableEq, Repr

def Handles.reset : Handles := ⟨[], [], [], 1, [], []⟩

/-- An allocation of the Clerk that is not a tensor: a queue's ring (R244). -/
structure ClerkRange where
  first : Nat
  blocks : Nat
  deriving DecidableEq, Repr

/-! ### Runnels (R197-R216) -/

/-- A stream descriptor as read at the stream's start (R202). -/
structure StreamDesc where
  kind : BitVec 2
  dir : Bool
  loc : BitVec 2
  depth : Nat
  tileblk : Nat
  rdyctr : BitVec 6
  donectr : BitVec 6
  endctr : BitVec 6
  peeren : Bool
  plcore : CoreId
  pctr : BitVec 6
  tbase : Nat
  ttag : BitVec 12
  rbase : Nat
  prog : List Word
  ibase : Nat
  itag : BitVec 12
  nidx : Nat
  nrec : Nat
  rstride : Nat
  recblk : Nat
  deriving DecidableEq, Repr

/-- A block of a stream: its far address, or a skip of an index stream (R206). -/
structure StreamBlk where
  addr : Nat
  skip : Bool
  deriving DecidableEq, Repr

/-- Where a tile in motion stands (Table: Buffer states). -/
inductive TileState where
  | filling | ready | draining | drained
  deriving DecidableEq, Repr

/-- A tile that has a buffer, or that waits for its acknowledgement (R198, R207). -/
structure StreamTile where
  n : Nat
  blks : List StreamBlk
  st : TileState
  /-- Inbound: blocks that have landed and passed their checks. -/
  landed : List Nat
  /-- Inbound: blocks that have been fetched again (R212). -/
  retried : List Nat
  /-- Outbound: the blocks as read out, with their bibs. -/
  out : List (List Byte × Word)
  /-- Outbound: every block is acknowledged at its destination (R198, R207). -/
  acked : Bool
  /-- Outbound: its place among the transfers of its core's two Runnels, in the order of their issue (R16). -/
  stamp : Nat
  deriving DecidableEq, Repr

/-- A running stream. -/
structure StreamRun where
  queue : Nat
  d : StreamDesc
  a : BitVec 48
  loops : Vector (BitVec 16) 4
  marks : Vector (BitVec 48) 4
  pidx : Nat
  /-- The last block has been emitted (END, or the last index read). -/
  ended : Bool
  /-- Blocks emitted and not yet in a tile that has a buffer. -/
  emitted : List StreamBlk
  /-- The number of the next tile to get a buffer. -/
  next : Nat
  tiles : List StreamTile
  /-- Inbound: blocks requested that have not landed, by tile and place, in the order of their requests, each with its place among the
  transfers of its core's two Runnels (R16). -/
  reqs : List (Nat × Nat × Nat)
  /-- Tiles completed: READY (inbound) or delivered (outbound). -/
  complete : Nat
  r0 : BitVec 16
  d0 : BitVec 16
  /-- The next index to read, and the block of indices held. -/
  idx : Nat
  idxBlk : Option (Nat × List Byte)
  idxRetried : Bool
  /-- An error that stops the stream once its transfers have completed (R203, R205). -/
  halt : Option (Byte × Nat)
  /-- `STOP` was written: no further tile starts (R258). -/
  stopping : Bool
  deriving DecidableEq, Repr

/-- A Runnel: its running stream and what `RUN_STAT` keeps of the last one (R216). -/
structure Runnel where
  run : Option StreamRun
  tiles : BitVec 16
  /-- The last stream stopped by an error. -/
  errored : Bool
  pidx : BitVec 5
  deriving DecidableEq, Repr

def Runnel.reset : Runnel := ⟨none, 0, false, 0⟩

end Sys2Proof.Machine
end

