-- ==== Sys2Proof/Machine/GuardTypes.lean ====
section
/-! DEFINITION. The state of the guard (step replay, finish digests, the twin pair), of rotations, of Cooldown and of Taper. -/

namespace Sys2Proof.Machine

/-! ### Guard (R333-R347) -/

/-- An entry of the digest list with the ranges loaded into the controllers and the running sums of its handles (R333, R341,
R402). -/
structure DigEntry where
  handle : BitVec 32
  slot : BitVec 12
  alt : Bool
  cur : Bool
  second : BitVec 32
  first0 : Nat
  first1 : Nat
  blocks : Nat
  sum0 : Word
  sum1 : Word
  deriving DecidableEq, Repr

/-- The architectural state of one core with its memories, bibs and valid marks (R17, R335, R359). -/
structure CoreImage where
  arch : CoreArch
  mem : Memory
  bibs : Sparse Word
  deriving DecidableEq, Repr

/-- One bank of the step save area (R334, R335). -/
structure SaveBank where
  cores : List CoreImage
  bars : List (Vector BarCtx 16)
  deriving DecidableEq, Repr

/-- A replay from its fault to the end of its restore (R338, R346). -/
structure Replaying where
  /-- Logical cores to be rotated before the restore. -/
  rotate : List CoreId
  /-- Those of them whose die had no core free to take them yet. -/
  waiting : List CoreId
  twin : Bool
  deriving DecidableEq, Repr

/-- A fault of the step that a replay absorbs, as R502 recorded it: `EVT`, `LCORE`, `DIE`, `ADDR`, `DETAIL`, and the queue of
the faulting command. -/
structure AbsorbedFault where
  evt : Byte
  core : CoreId
  addr : Nat
  detail : Word
  queue : Option Nat
  /-- The entry state of the step has been restored since (R337). -/
  restored : Bool
  /-- Its second record has been written (R502). -/
  told : Bool
  deriving DecidableEq, Repr

/-- A bucket digest owed by or received from the twin (R344): send half, unit and parts, and the run of the step in which it was
formed. -/
structure Bucket where
  queue : Nat
  entry : Nat
  unitNo : Nat
  parts : List Word
  run : Nat
  deriving DecidableEq, Repr

/-- The state of a twin pair on one module (R344-R347). -/
structure TwinState where
  /-- The step digest formed so far, 65 parts. -/
  own : List Word
  /-- A step digest of the twin that has come before the own commit. -/
  theirs : Option (List Word)
  /-- The run of the step: 1, or 2 and 3 in a resolution (R346). -/
  run : Nat
  /-- Own parts of the run that disagreed, and the parts that disagreed, 0-64. -/
  prevOwn : List Word
  mismatch : List Nat
  /-- The twin's parts of the run before, and whether the own step digest of this run has been sent. -/
  prevTheirs : List Word
  sent : Bool
  /-- Cores rotated out for the resolution: logical and physical number. -/
  rotated : List (CoreId × PCoreNo)
  /-- Own bucket digests of units whose gate is shut, and the twin's that have come early. -/
  gated : List Bucket
  early : List Bucket
  /-- Units whose gate has opened: queue, entry and unit. -/
  opened : List (Nat × Nat × Nat)
  /-- Units whose digest disagreed and is to be formed and sent again in the rerun (R346). -/
  redo : List (Nat × Nat × Nat)
  /-- The bucket digest that disagreed last; none for the step digest. -/
  about : Option (Nat × Nat × Nat)
  /-- The module runs alone (R347). -/
  alone : Bool
  deriving DecidableEq, Repr

def TwinState.reset : TwinState := ⟨List.replicate 65 0, none, 1, [], [], [], false, [], [], [], [], [], none, false⟩

/-- The guard (R333-R347). -/
structure Guard where
  repen : Bool
  fden : Bool
  twen : Bool
  fdgroup : BitVec 12
  dint : Nat
  twep : BitVec 24
  list : List DigEntry
  /-- `FD_VALUE` (R341). -/
  fdValue : Word
  /-- Own digests of the last 4 comparison steps, newest first, with the neighbours compared and the digests that disagreed
  (R342, R343). -/
  digests : List (BitVec 48 × Word × List Bool × List (Bool × Word))
  /-- Digests of neighbours that are ahead: from rank r + 1, step, digest. -/
  earlyFd : List (Bool × BitVec 48 × Word)
  /-- The save banks and which is current (R335). -/
  bank0 : Option SaveBank
  bank1 : Option SaveBank
  current : Bool
  /-- Raises of Baton and `SIGEN` applied in the step, by 64 x counter + logical core (R339). -/
  raises : Sparse (BitVec 16)
  /-- Replays of the step (R338). -/
  replays : Nat
  replaying : Option Replaying
  /-- Faults of the step that its replay is to absorb (R502). -/
  absorbed : List AbsorbedFault
  /-- For each core, Runnel and Starter queue: the sequence number at which the run of the step begins, and the commands that a rerun has to
  complete, those that the run before had met (R338 steps 4 and 5). -/
  work : List (Nat × BitVec 32 × Nat)
  twin : TwinState
  deriving DecidableEq, Repr

/-- Guarding off. [DESIGN CHOICE: log 3] -/
def Guard.reset : Guard :=
  ⟨false, false, false, 0, 0, 0xFFFFFF, [], 0, [], [], none, none, false, [], 0, none, [], [], TwinState.reset⟩

/-! ### Rotation and STEPCLOSE (R19, R269) -/

/-- Why a rotation is made (R19). -/
inductive RotReason where
  | overdue | service | coreFault | twin
  /-- A restore has failed: the spare is filled from the image in a core save slot (R360). -/
  | restoreFailed (slot : Fin 2)
  deriving DecidableEq, Repr

/-- A rotation under way: the logical core, the physical cores, and whether a STEPCLOSE waits for it. -/
structure Rotation where
  core : CoreId
  from_ : PCoreNo
  into : PCoreNo
  reason : RotReason
  step : Bool
  deriving DecidableEq, Repr

/-- How far a STEPCLOSE has come (R269): nothing running, in its rotations, or waiting for the twin's step digest. The queue and
the address of its skip word. -/
inductive StepPhase where
  | idle
  | rotating (queue skip : Nat)
  | twinWait (queue skip : Nat)
  deriving DecidableEq, Repr

/-! ### Physical cores and Cooldown (R18, R353-R366) -/

/-- `STATE` of a physical core (R18, R23). -/
inductive PState where
  | active | spare | parked | retired
  deriving DecidableEq, Repr

/-- A Cooldown test under way (R353, R359, R360). -/
structure CdTest where
  /-- Reason code of the result record (R365). -/
  reason : Byte
  /-- The core save slot of the die that holds the image, where the state is still in use (R359). -/
  slot : Option (Fin 2)
  sig2 : Word
  sig3 : Word
  /-- Result of the phase that failed, 0 while none has. -/
  failed : BitVec 4
  /-- Failing memory words that phase 4 found. -/
  fails : Nat
  /-- Restores that did not verify. -/
  misses : Nat
  deriving DecidableEq, Repr

/-- A core save slot of a die's reserved area (R356, R359, R400) as its header gives it: the saved core, its image, the
CRC-32C of each 4 KiB of
the image (of zeros where none is listed), and the mark that the image is complete. -/
structure SaveSlot where
  core : CoreId
  image : CoreImage
  crcs : Sparse (BitVec 32)
  complete : Bool
  deriving DecidableEq, Repr

/-- A physical core: `PCORE_STATE` and `CD_CORE` (R23, R364). -/
structure PCore where
  pst : PState
  rotations : Byte
  owed : Bool
  fuseSpare : Bool
  lcore : BitVec 7
  lastPass : BitVec 24
  owedAt : BitVec 24
  lastRes : BitVec 4
  phase : BitVec 3
  overdue : Bool
  /-- `CD_OVERDUE` has been reported (R358). -/
  told : Bool
  /-- Faulted without a passed test since (R338). -/
  faulted : Bool
  /-- PARKED after a fault that a replay has covered (R349, R366). -/
  covered : Bool
  /-- Served a logical core since its last passed test, and the hours it has served since (R366). -/
  served : Bool
  hours : Nat
  /-- Due, with the reason code of its test (R357). -/
  due : Option Byte
  test : Option CdTest
  deriving DecidableEq, Repr

/-- Physical core `p` at the first start: 16 and 17 are the fused spares (R18). [DESIGN CHOICE: log 16] -/
def PCore.factory (d p : Nat) : PCore :=
  { pst := if p < 16 then .active else .spare, rotations := 0, owed := false, fuseSpare := decide (16 ≤ p),
    lcore := if p < 16 then BitVec.ofNat 7 (16 * d + p) else 0x7F, lastPass := 0, owedAt := 0xFFFFFF, lastRes := 0, phase := 0,
    overdue := false, told := false, faulted := false, covered := false, served := false, hours := 0, due := none, test := none }

/-- A test of the logic of a die or of the hub (R354). -/
structure RegionTest where
  phase : BitVec 3
  sig2 : Word
  sig3 : Word
  failed : BitVec 4
  deriving DecidableEq, Repr

/-- A record of the ageing history (R365, R372): 32 or 96 bytes. -/
abbrev AgeRecord := List Byte

/-! ### Taper (R367-R372) -/

/-- A die's baseline record (R369): its supply voltage at the module test, in mV, and each monitor's slack there. -/
structure TaperBase where
  mv : Nat
  slack : Vector Byte 64
  deriving DecidableEq, Repr

/-- `TAPER_DIE`, the monitors, their kept minima and the baseline record (R367-R371). -/
structure Taper where
  worst : Byte
  planMin : Byte
  offset : BitVec 4
  lastPlan : BitVec 24
  worstMon : BitVec 6
  nobase : Bool
  floor : Bool
  limit : Bool
  slack : Vector Byte 64
  kept : Vector Byte 64
  /-- A plan has been made since the first start. -/
  planned : Bool
  /-- The baseline record; none where its CRC-32C fails. -/
  base : Option TaperBase
  deriving DecidableEq, Repr

/-- A die of a new module. The baseline record's values are the model's. [DESIGN CHOICE: log 3] [DEDUCED: log 74] -/
def Taper.reset : Taper :=
  ⟨0xFF, 0xFF, 0, 0, 0, false, false, false, Vector.replicate 64 0xFF, Vector.replicate 64 0xFF, false,
    some ⟨700, Vector.replicate 64 40⟩⟩

/-- `CD_CFG`, `CD_STAT` and what a shutdown is doing (R355, R361, R363). -/
structure Cooldown where
  deadline : BitVec 16
  interval : BitVec 16
  cfgErr : Bool
  phours : BitVec 24
  staged : Bool
  /-- The pattern set's digest was wrong (R355). -/
  patternBad : Bool
  /-- A shutdown with Cooldown is under way; it has come to the die logic, to the hub, or is complete (R361). -/
  shutdown : Bool
  shutdownDone : Bool
  hub : Option RegionTest
  hubDue : Bool
  /-- `PHOURS` at the beginning of the shutdown: its tests share one `LASTPASS` (R358). -/
  shutHour : BitVec 24
  /-- Tests of cores that a reset or power loss cut short, for `CD_INCOMPLETE` at the next start (R362). -/
  cut : List (DieId × PCoreNo × CdTest)
  /-- Tests of die logic (by die) or of the hub (0x10) cut short. -/
  cutAreas : List (Nat × RegionTest)
  /-- Logical cores whose core failed in place and that wait for another core of their die, with the retired core (R360). -/
  fill : List (CoreId × PCoreNo × Fin 2)
  /-- Ageing history, newest first. -/
  history : List AgeRecord
  deriving DecidableEq, Repr

def Cooldown.reset : Cooldown := ⟨168, 72, false, 0, false, false, false, false, none, false, 0, [], [], [], []⟩

end Sys2Proof.Machine
end

