-- ==== Sys2Proof/Machine/BatonTypes.lean ====
section
/-! DEFINITION. The state of Baton (groups, running commands), of the fabric transport, the fabric ports and the host port. -/

namespace Sys2Proof.Machine

/-! ### Groups (R276, R277) -/

/-- A group entry (R276). -/
structure Group where
  gfp : BitVec 32
  grace : BitVec 16
  axm : Vector (BitVec 16) 4
  myrank : BitVec 16
  nrankm1 : BitVec 16
  slotbase : BitVec 18
  naxm1 : BitVec 2
  ggen : Byte
  valid : Bool
  deriving DecidableEq, Repr

/-- A group entry after the reset that resets the hub. -/
def Group.reset : Group := ⟨0, 0, Vector.replicate 4 0, 0, 0, 0, 0, 0, false⟩

/-- A member slot (R277). -/
structure Member where
  ep : BitVec 24
  backup : BitVec 24
  deriving DecidableEq, Repr

def Member.none : Member := ⟨0xFFFFFF, 0xFFFFFF⟩

/-! ### Messages of Baton

The spec gives what these messages say and not how their 64 bytes are laid out. -/

/-- Which transfer of a group a message speaks of. -/
structure XferName where
  group : BitVec 12
  tag : BitVec 16
  key : XferKey
  deriving DecidableEq, Repr

/-- A message that Baton sends to another module. -/
inductive BatMsg where
  /-- A handshake (R285, R288, R311). -/
  | handshake (h : Handshake)
  /-- The answer to a handshake. -/
  | answer (x : XferName) (a : HsAnswer)
  /-- Blocks acknowledged (R286). -/
  | ack (x : XferName) (blks : List Nat)
  /-- A block requested once more (R282). -/
  | again (x : XferName) (blk : Nat)
  /-- A block refused by a stopped or missing half (R298). -/
  | refuse (x : XferName) (blk : Nat)
  /-- A block that failed its check twice (R282). -/
  | failed (x : XferName) (blk : Nat)
  /-- A count or positions of a PERMI (R291). -/
  | permi (x : XferName) (m : PermiMsg)
  /-- A receiver asks a backup for blocks, or releases it (R311, R312). -/
  | ask (x : XferName) (blks : List Nat) (finished : Bool)
  /-- A fabric barrier arrival or release (R297). -/
  | fabric (ctx : Fin 8) (m : FabMsg)
  /-- A finish digest with its step (R342). -/
  | finish (step : BitVec 48) (digest : Word)
  /-- A bucket digest of a twin (R344). -/
  | bucket (x : XferName) (unitNo : Nat) (step : BitVec 48) (parts : List Word)
  /-- A step digest of a twin (R345). -/
  | twinStep (step : BitVec 48) (parts : List Word)
  deriving DecidableEq, Repr

/-! ### Running commands (R275, R282-R292, R308-R315) -/

/-- A block of a transfer: its device address and its bib index. -/
structure XBlk where
  addr : Nat
  idx : Nat
  deriving DecidableEq, Repr

/-- One direction between this module and one rank: a half of a SHIFT, an entry of a PERMT, or the rows of a permutation for one
rank. -/
structure Xfer where
  send : Bool
  peer : BitVec 16
  key : XferKey
  blks : List XBlk
  tag : BitVec 12
  /-- The module itself is the peer (R285). -/
  own : Bool
  /-- Send: the handshake has been accepted by the member, and by its backup. -/
  accM : Bool
  accB : Bool
  /-- Send: blocks sent; blocks the member and its backup have acknowledged. -/
  sent : List Nat
  ackM : List Nat
  ackB : List Nat
  /-- Send: blocks that the peer has refused (R298). -/
  refd : List Nat
  /-- Receive: a handshake of the member, and of its backup, has been accepted, each with the tag and indexes that it announced (R282,
  R285, R311). -/
  hsM : Bool
  hsB : Bool
  srcM : BitVec 12 × List (BitVec 20)
  srcB : BitVec 12 × List (BitVec 20)
  /-- Receive: positions landed, with the CRC-32C kept and whether the backup's copy was taken. -/
  landed : List (Nat × BitVec 32 × Bool)
  /-- Receive: blocks requested once more (R282). -/
  retried : List Nat
  /-- Counter raises made (R286). -/
  raises : Nat
  /-- Backup role: the endpoints of the receiver that have released it, and blocks asked for whose gate is shut. Receive: the backups
  released (R311). -/
  released : List (BitVec 24)
  wanted : List (BitVec 24 × Nat)
  /-- `GRACE` has passed without what the member, or its backup, owes this transfer (R500); the backup has been asked (R312). -/
  silM : Bool
  silB : Bool
  asked : Bool
  /-- Receive: positions that the backup's copy has filled in this cycle (R312). -/
  recent : List Nat
  /-- PERMR: the positions of the rows sent, or from the lowest that the route record names up to past the highest (R292). -/
  run : Nat × Nat
  deriving DecidableEq, Repr

/-- How far a PERMI has come (R291). -/
structure PermiState where
  /-- Destination rank per row, 0xFFFF_FFFF for a skipped one. -/
  dest : List Nat
  /-- Counts that have arrived, by source rank. -/
  counts : Sparse Nat
  /-- First position and accepted count that each destination has returned. -/
  pos : Sparse (Nat × Nat)
  /-- Own positions have been returned to the sources, and the route record has been written. -/
  placed : Bool
  routed : Bool
  rowblk : Nat
  dcap : Nat
  /-- The source and receive ranges and their tags, and the ranges and tags of the count vector and of the route record. -/
  src : List XBlk
  stag : BitVec 12
  dst : List XBlk
  dtag : BitVec 12
  cnt : List XBlk
  ctag : BitVec 12
  route : List XBlk
  rtag : BitVec 12
  /-- Rows dropped at this member. -/
  dropped : Nat
  deriving DecidableEq, Repr

/-- A running Baton command. -/
structure BatonCmd where
  queue : Nat
  opc : Nat
  group : BitVec 12
  tag : BitVec 16
  vc : Fin 8
  unitLen : Nat
  scen : Bool
  sctr : BitVec 6
  slcore : CoreId
  rcen : Bool
  rctr : BitVec 6
  rlcore : CoreId
  /-- This module is in backup role for the group (R309). -/
  backup : Bool
  xfers : List Xfer
  permi : Option PermiState
  refusals : Nat
  /-- Blocks taken from a backup, blocks that reached only the backup, blocks whose copies differed (R315). -/
  taken : Nat
  differed : Nat
  sRaised : Bool
  rRaised : Bool
  stopping : Bool
  deriving DecidableEq, Repr

/-- A receive half that has ended, for what its peers still send to it (R298, R311-R313): whether the member's and the backup's handshake
have been answered, what has landed, and the copies that differed. [DESIGN CHOICE: log 95] -/
structure EndedHalf where
  queue : Nat
  entry : Nat
  name : XferName
  rank : BitVec 16
  /-- Its command has ended with another status than OK. -/
  stopped : Bool
  hsM : Bool
  hsB : Bool
  landed : List (Nat × BitVec 32 × Bool)
  differed : Nat
  deriving DecidableEq, Repr

/-- Baton: the group table, member slots, running commands in the order they started, and its registers (R276, R294, R300). -/
structure Baton where
  groups : Sparse Group
  members : Sparse Member
  cmds : List BatonCmd
  /-- Handshakes of other modules that wait for a receive half to start (R285). -/
  waiting : List Handshake
  /-- Receive halves that have ended, newest first. -/
  ended : List EndedHalf
  vcWeight : Word
  vcMap : BitVec 12
  refuse : BitVec 16
  bibRetry : BitVec 16
  gfpErr : Bool
  matchErr : Bool
  deriving DecidableEq, Repr

def Baton.reset : Baton := ⟨[], [], [], [], [], 0x0810104020404020, 0xE09, 0, 0, false, false⟩

/-! ### Fabric transport (R416-R426) -/

/-- What a frame that this module sends carries. -/
inductive TxBody where
  | block (x : XferName) (bpos : Nat) (data : List Byte) (bib : Word)
  | msg (m : BatMsg)
  deriving DecidableEq, Repr

/-- A block or message frame that no acknowledgement has covered (R422). [DESIGN CHOICE: log 62] -/
structure TxFrame where
  psn : BitVec 32
  /-- The port it was last sent on; none while no port reaches the peer. -/
  port : Option PortId
  /-- Retransmissions on this port. -/
  tries : Nat
  /-- It has been on the wire on this port; a paused PCP keeps it back (R419). -/
  sent : Bool
  body : TxBody
  /-- It has been on the wire on some port. -/
  once : Bool
  /-- Its number among all frames given to the transport. -/
  num : Nat
  deriving DecidableEq, Repr

/-- The sequence state of one peer and virtual channel (R420). -/
structure VcState where
  txNext : BitVec 32
  unacked : List TxFrame
  /-- The next PSN expected: `ACKN` + 1. -/
  rxNext : BitVec 32
  /-- Bit i: `ACKN` + 1 + i has arrived. -/
  bitmap : BitVec 256
  /-- Frames received since the last acknowledgement was sent. -/
  owed : Nat
  /-- Message frames that wait for earlier ones. -/
  held : Sparse (List Byte)
  deriving DecidableEq, Repr

def VcState.reset : VcState := ⟨0, [], 0, 0, 0, []⟩

/-- A peer-table entry (R423-R425). -/
structure Peer where
  vcs : Vector VcState 8
  pmask : Option (BitVec 24)
  marks : BitVec 24
  /-- The numbers of the successive frames that exhausted their retransmissions on a port (R423). -/
  streak : Vector (List Nat) 24
  cap : Option (List Byte)
  /-- The exchange of capability frames is under way; frames to the peer wait for it (R425). -/
  capOwed : Bool
  /-- Marked ports on which a capability frame has been sent and not acknowledged (R423). -/
  probed : BitVec 24
  /-- The use of the table at which the entry was last used (R425). -/
  used : Nat
  deriving DecidableEq, Repr

def Peer.fresh (used : Nat) : Peer :=
  ⟨Vector.replicate 8 VcState.reset, none, 0, Vector.replicate 24 [], none, true, 0, used⟩

/-- `PSTATE` (R430). -/
inductive PortState where
  | disabled | training | up | down
  deriving DecidableEq, Repr

/-- What a frame carries, and the port it is put on (R417, R420, R426, R419). [DESIGN CHOICE: log 10] -/
inductive Wire where
  | data (port : PortId) (ep : BitVec 24) (vc : Fin 8) (psn : BitVec 32) (body : TxBody)
  | ack (port : PortId) (ep : BitVec 24) (vc : Fin 8) (ackn : BitVec 32) (bitmap : BitVec 256)
  /-- A capability frame to a peer, or link-local without one. -/
  | cap (port : PortId) (ep : Option (BitVec 24)) (payload : List Byte)
  deriving DecidableEq, Repr

/-- A frame on the wire (Table: DXT frame): its MAC addresses, its 802.1Q tag with the TPID, its EtherType, its DXT header, and what it
carries. [DESIGN CHOICE: log 62] -/
structure SentFrame where
  dmac : BitVec 48
  smac : BitVec 48
  tag : BitVec 32
  etype : BitVec 16
  header : BitVec 256
  body : Wire
  deriving DecidableEq, Repr

/-- A fabric port: `FP_CFG`, `FP_STAT`, `FP_ERR`, and the PCPs that a partner has paused (R419, R430). -/
structure Port where
  pen : Bool
  pmd : BitVec 2
  pstate : PortState
  cablem : Byte
  lpan : Bool
  iloss : Byte
  lpep : BitVec 24
  planeErr : Bool
  /-- It has left UP and not returned (R415). -/
  left : Bool
  fecce : BitVec 32
  fecue : BitVec 16
  fcserr : BitVec 16
  paused : Byte
  /-- Acknowledgements and capability frames that a pause keeps back (R419). -/
  kept : List Wire
  deriving DecidableEq, Repr

def Port.reset : Port := ⟨true, 0, .training, 0xFF, false, 0, 0xFFFFFF, false, false, 0, 0, 0, 0, []⟩

/-- What the transport hands to Baton: a block at its position, or a message's bytes (R421). [DESIGN CHOICE: log 10] -/
inductive Handed where
  | block (ep : BitVec 24) (ctx : BitVec 32) (bpos : BitVec 32) (data : List Byte)
  | msg (ep : BitVec 24) (vc : Fin 8) (bytes : List Byte)
  deriving DecidableEq, Repr

/-- The fabric transport: its registers, the peer table, and frames that wait for a place in it (R416-R430). -/
structure Dxt where
  myep : BitVec 24
  etype : BitVec 16
  vid : BitVec 12
  pfcen : Bool
  twmode : Bool
  dcfgErr : Bool
  macpfx : BitVec 24
  pcpmap : BitVec 24
  retx : BitVec 16
  drops : BitVec 16
  peers : Sparse Peer
  uses : Nat
  /-- Frames to new peers while the table is full (R425): endpoint, channel, body. -/
  blocked : List (BitVec 24 × Fin 8 × TxBody)
  handed : List Handed
  /-- Frames sent, newest last. -/
  wire : List SentFrame
  /-- Beacons of the first attached port until a duplicated endpoint is reported again (R418). -/
  epdup : Nat
  deriving DecidableEq, Repr

def Dxt.reset : Dxt := ⟨0xFFFFFF, 0x88B6, 0, false, false, false, 0x065CA0, 0xFAC688, 0, 0, [], 0, [], [], [], 0⟩

/-! ### Host port (R431-R439) -/

/-- The host port: `HP_APT`, `HP_STAT`, configuration space and MSI-X (R431-R439). -/
structure HostPort where
  aptb : BitVec 18
  lspeed : BitVec 4
  lwidth : BitVec 4
  hfails : BitVec 16
  ready : Bool
  linkLost : Bool
  aptErr : Bool
  linkUp : Bool
  d3hot : Bool
  /-- Bus addresses of BAR0, BAR2 and BAR4; none while unassigned. -/
  bars : Vector (Option Word) 3
  /-- log2 of BAR4's size in GiB. -/
  bar4 : Nat
  msixOn : Bool
  /-- Max_Payload_Size and Max_Read_Request_Size as powers of two of 128 B, and the Completion Timeout range (R431). -/
  mps : Nat
  mrrs : Nat
  timeout : BitVec 4
  /-- Address and data of the MSI-X table's entries that have been written (R432). -/
  msixTable : Sparse (Word × BitVec 32)
  /-- Vectors that are not masked, and vectors pending. -/
  unmasked : Sparse Unit
  pendingMsi : Sparse Unit
  /-- Advisory non-fatal errors reported under AER (R433). -/
  aer : Nat
  /-- Data and status of the last read by host software. -/
  rdata : List Byte
  rstat : Byte
  deriving DecidableEq, Repr

def HostPort.reset : HostPort :=
  ⟨0, 0, 0, 0, false, false, false, false, false, Vector.replicate 3 none, 4, false, 0, 2, 0, [], [], [], 0, [], 0⟩

end Sys2Proof.Machine
end

