-- ==== Sys2Proof/Machine/LinkTypes.lean ====
section
/-! DEFINITION. The state of the Florel Die Link (R373-R392): its two ends and the lanes of its bundles. -/

namespace Sys2Proof.Machine

/-- Table: Link states. -/
inductive LState where
  | down | sbInit | negotiate | laneTest | calibrate | widthAgree | active | recover | failed
  deriving DecidableEq, Repr

/-- What a training is (R378, R379, R389). -/
inductive Training where
  | full | fast | recover
  deriving DecidableEq, Repr

/-- The lanes of one direction of a bundle: `FDL_LMAP` and what in-stride calibration keeps (R380, R384, R385). -/
structure LaneSet where
  /-- Physical lane of each logical data lane; none where too few lanes pass. -/
  map : List (Fin 18)
  fail : BitVec 18
  /-- The least eye width of the rotation under way. -/
  least : Byte
  /-- Successive mismatches of the free lane in turn. -/
  misses : Nat
  /-- The logical lane of the next step. -/
  next : Fin 16
  deriving DecidableEq, Repr

/-- What an end's `FDL_LMAP` registers count for one set of lanes: `SHMIS` and `WMARGIN` (R392). -/
structure LaneCount where
  shmis : BitVec 16
  wmargin : Byte
  deriving DecidableEq, Repr

/-- `FDL_NEG`. -/
structure LinkNeg where
  npmaj : BitVec 4
  npmin : BitVec 4
  nrate : BitVec 4
  nboff : BitVec 4
  nfeat : Byte
  low : Bool
  deriving DecidableEq, Repr

def LinkNeg.reset : LinkNeg := ⟨0, 0, 0, 0, 0, false⟩

/-- An end's training record (R389): the negotiated result, the last offered mask, and for the bundles of its receiving direction the lane maps and
the eye widths of their calibration. -/
structure TrainRecord where
  neg : LinkNeg
  mask : BitVec 12
  maps : List (List (Fin 18))
  margins : List Byte
  deriving DecidableEq, Repr

/-- A unit asked for again: its `USEQ`, its virtual channel where its header was good, and whether its bib failed rather than its header or
message (R377). -/
structure Ask where
  useq : BitVec 12
  vc : Option (BitVec 3)
  bib : Bool
  deriving DecidableEq, Repr

/-- A unit handed over at a port of the hub crossbar or of the on-die network, in its virtual channel, for a transfer of its engine
(R376). -/
structure LinkDelivery where
  port : Nat
  vc : BitVec 3
  ctx : BitVec 24
  unit : LinkUnit
  deriving DecidableEq, Repr

/-- One end of a link port (R377, R378, R392). [DEDUCED: log 58] -/
structure LinkPort where
  lstate : LState
  training : Training
  pcap : Word
  neg : LinkNeg
  calper : BitVec 16
  winper : BitVec 16
  calen : Bool
  wmask : BitVec 12
  ownmask : BitVec 12
  pmask : BitVec 12
  resol : BitVec 4
  fcause : BitVec 4
  sb1 : Bool
  bresend : BitVec 16
  mresend : BitVec 16
  recovers : Byte
  retrains : Byte
  wchanges : Byte
  lrepairs : Byte
  /-- Successive trainings that have not reached ACTIVE (R383). -/
  attempts : Nat
  /-- A first negotiation result differed (R379). -/
  negDiffered : Bool
  /-- Masks that differed in WIDTH_AGREE since the end was last ACTIVE, own and partner's (R390). -/
  disagreed : List (BitVec 12 × BitVec 12)
  /-- RECOVER timed out; the full training that follows decides (R383). -/
  recoverFailed : Bool
  /-- `WMASK` of the last time the link was ACTIVE. -/
  lastMask : BitVec 12
  /-- The end's training record (R389). -/
  record : Option TrainRecord
  /-- The bundles for which the partner has reported 16 data lanes in its receiving set (R382). -/
  preport : BitVec 12
  /-- `SHMIS` and `WMARGIN` of the end's lane maps, by 2 x bundle + direction (R392). -/
  counts : Vector LaneCount 24
  /-- The bundles over which this end stripes what it sends, and the striping that follows from a `USEQ` on (R387). -/
  sendMask : BitVec 12
  switch : Option (BitVec 12 × BitVec 12)
  /-- The `USEQ` of the next new unit that this end sends. -/
  txNext : BitVec 12
  /-- Chunks that this end has sent since it entered ACTIVE (R375). -/
  txChunk : Nat
  /-- Units this end has sent that no acknowledgement covers, oldest first (R377). -/
  replay : List LinkUnit
  /-- Units of the replay buffer that are to be sent again. -/
  resend : List (BitVec 12)
  /-- The least `USEQ` that has not come. -/
  rxNext : BitVec 12
  /-- `USEQ` of the units beyond it that have come. -/
  early : List (BitVec 12)
  /-- Units that wait for an earlier one of their virtual channel, in the order of `USEQ`. -/
  held : List LinkUnit
  /-- Units that this end has asked for again. -/
  asked : List Ask
  /-- The control ticks (10 µs) at which this end has asked for a block again, newest last, within the last millisecond (R378). -/
  resentAt : List Nat
  /-- Acknowledgement units that this end has sent and that have not arrived, oldest first. -/
  acks : List LinkUnit
  /-- Units handed to the crossbar or the on-die network, newest last. -/
  delivered : List LinkDelivery
  /-- Sideband messages that this end has sent and that have not arrived, oldest first. -/
  sbOut : List Sideband
  /-- The partner's negotiation result and mask of this training, as they have come. -/
  pneg : Option Word
  pmaskIn : Option (BitVec 12)
  deriving DecidableEq, Repr

/-- A link end after the reset of its port. -/
def LinkPort.reset : LinkPort :=
  { lstate := .down, training := .full, pcap := 0, neg := LinkNeg.reset, calper := 100, winper := 100, calen := true,
    wmask := 0, ownmask := 0, pmask := 0, resol := 0, fcause := 0, sb1 := false, bresend := 0, mresend := 0, recovers := 0,
    retrains := 0, wchanges := 0, lrepairs := 0, attempts := 0, negDiffered := false, disagreed := [],
    recoverFailed := false, lastMask := 0, record := none, preport := 0, counts := Vector.replicate 24 ⟨0, 0⟩, sendMask := 0,
    switch := none, txNext := 0, txChunk := 0, replay := [], resend := [], rxNext := 0, early := [],
    held := [], asked := [],
    resentAt := [], acks := [], delivered := [], sbOut := [], pneg := none, pmaskIn := none }

def LaneSet.reset : LaneSet := ⟨[], 0, 0xFF, 0, 0⟩

/-- A die link: its ends, the lanes of each bundle downwards and upwards, and the bundle out of service for a window (R386). -/
structure DieLink where
  hub : LinkPort
  die : LinkPort
  downLanes : Vector LaneSet 12
  upLanes : Vector LaneSet 12
  away : BitVec 12
  deriving DecidableEq, Repr

def DieLink.reset : DieLink :=
  ⟨LinkPort.reset, LinkPort.reset, Vector.replicate 12 LaneSet.reset, Vector.replicate 12 LaneSet.reset, 0⟩

end Sys2Proof.Machine
end

