-- ==== Sys2Proof/Machine/ClerkTypes.lean ====
section
/-! DEFINITION. The state of the Clerk (mailboxes, boot, firmware slots, measurements), of the flash, and of power and cooling. -/

namespace Sys2Proof.Machine

/-! ### Mailboxes (R441-R445) -/

/-- A mailbox slot: its header and its payload bytes; offsets above the payload written read 0. -/
structure MbSlot where
  header : Word
  payload : Memory
  deriving DecidableEq, Repr

def MbSlot.reset : MbSlot := ⟨0, []⟩

/-- What follows a reply (R446, R466). -/
inductive AfterReply where
  | none
  | moduleReset
  | dieReset (d : DieId)
  /-- The blocks of a slot are programmed by the time of the reply (R457, R459). -/
  | program (slot : Bool) (blk : Nat) (data : List Byte)
  /-- The record that marks a slot pending is written (R457, R459). -/
  | commit (slot : Bool)
  deriving DecidableEq, Repr

/-- A command that the Clerk has served and whose reply it has still to write. -/
structure Reply where
  slot : Fin 8
  seq : BitVec 16
  vec : BitVec 11
  cmd : Byte
  serial : Bool
  status : Byte
  reply : List Byte
  after : AfterReply
  /-- The reply is written, and the reset that it asked for is still to come. -/
  replied : Bool
  deriving DecidableEq, Repr

/-- The request of a mailbox command (R446). -/
inductive MbReq where
  | identify
  | measureRead
  | measureExtend (reg : Byte) (digest : BitVec 256)
  | certRead (haddr : Word) (bytes : BitVec 32) (hostFail : Bool)
  | attest (nonce : BitVec 256) (haddr : Word) (hostFail : Bool)
  | queueAlloc (cls inst log2n : Byte) (vector : BitVec 16)
  | queueFree (queue : BitVec 16)
  | eventRing (haddr : Word) (log2 : Byte) (vector : BitVec 16) (hostFail : Bool)
  | groupWrite (addr : Word)
  | groupClear (group : BitVec 16)
  | placeQuery (handle : BitVec 32)
  | peerQuery (endpoint : BitVec 24)
  | guardSet (addr : Word)
  | cdRequest (masks : Vector (BitVec 32) 4)
  | rotate (lcore : Byte)
  | fwWrite (haddr : Word) (off bytes : BitVec 32) (slotNo : Byte) (hostFail : Bool)
  | fwCommit
  | fwConfirm
  | fwStatus
  | resetModule
  | resetDie (die : Byte)
  | shutdown (flags : Byte)
  | sensorRead (page : Byte)
  | powerSet (cap floor ramp ecap : BitVec 16) (fields persist : Byte)
  | serviceStatus
  | serviceClear (haddr : Word) (marks : Byte) (hostFail : Bool)
  /-- A header that R443 refuses. -/
  | unlisted
  deriving DecidableEq, Repr

/-- A command that waits in its slot: the slot, its sequence number, vector and code, and the request. -/
structure Request where
  slot : Fin 8
  seq : BitVec 16
  vec : BitVec 11
  cmd : Byte
  body : MbReq
  deriving DecidableEq, Repr

/-! ### Flash (R449, R450, R453) -/

/-- A firmware slot: the 4 KiB blocks written since it left the factory, over the image that the factory wrote or over zeros; and the blocks
that an FW_WRITE has erased and not yet programmed (R459). -/
structure FwSlot where
  factory : Bool
  blocks : Sparse (List Byte)
  torn : List Nat
  deriving DecidableEq, Repr

/-- The fields of a boot control record (R450). -/
structure BootRec where
  bseq : BitVec 32
  bact : Bool
  bpend : Option Bool
  btrial : Nat
  deriving DecidableEq, Repr

/-- The limits of R484, in W and W/ms. -/
structure Limits where
  cap : BitVec 16
  floor : BitVec 16
  ramp : BitVec 16
  ecap : BitVec 16
  deriving DecidableEq, Repr

/-- The first-start limits of the GY4-2048-L (Table: Power control ranges). [DESIGN CHOICE: log 16] -/
def Limits.factory : Limits := ⟨6000, 0, 2000, 2000⟩

/-- Power data of a firmware update cut short, and of what flash keeps over resets and power cycles (R18, R352, R363, R365, R368,
R380, R449, R450, R472, R473, R485). -/
structure Flash where
  slotA : FwSlot
  slotB : FwSlot
  /-- The copies of the boot control record on devices 0 and 1; none where a copy is not valid. -/
  bcr0 : Option BootRec
  bcr1 : Option BootRec
  /-- Lane history: lane number to starts at which it failed, and the last such start (R380). -/
  lanes : Sparse (Nat × Nat)
  /-- The factory repair record: lanes that the package interconnect test has failed (R380). -/
  repairs : List Nat
  /-- The limits that POWER_SET made persistent. -/
  limits : Option Limits
  /-- The last counter of a service token (R473). -/
  tokens : BitVec 32
  /-- Starts made. -/
  starts : Nat
  /-- The serial held in the factory records of devices 0 and 1 (R465). -/
  serials : Vector Word 2
  /-- Copies of records, other than the boot control record, that fail their CRC-32C: the record's offset and the device (R449). -/
  badCopies : List (BitVec 32 × Bool)
  /-- The scan-pattern store: one pattern set per stepping (R355); none where it is as the factory wrote it. -/
  patterns : Option (List (Byte × List Byte))
  deriving DecidableEq, Repr

/-- The flash of a new module: its firmware in slot A, no boot control record. [DESIGN CHOICE: log 16] -/
def Flash.factory : Flash := ⟨⟨true, [], []⟩, ⟨false, [], []⟩, none, none, [], [], none, 0, 0, #v[1, 1], [], none⟩

/-! ### The Clerk -/

/-- A latched module fault or supply event, reported after the next start (R352, R474, R476, R492): code, severity, detail. -/
structure LateEvent where
  evt : Byte
  sev : Byte
  detail : Word
  deriving DecidableEq, Repr

/-- The Clerk: its mailboxes, the start under way, and its registers (R441-R472). -/
structure Clerk where
  slots : Vector MbSlot 8
  waiting : List Request
  replies : List Reply
  mberr : Bool
  /-- `BSTAGE`: 1-11, 12 ready, 255 stopped; and `BFAIL`. -/
  bstage : Nat
  bfail : Nat
  /-- The start is a POWER start (R451). -/
  power : Bool
  /-- Recovery: step 2 found no slot that verifies (R452). -/
  recovery : Bool
  /-- The flash carries another serial (R465). -/
  foreign : Bool
  /-- The running slot (true: B), and whether it is on trial. -/
  slot : Bool
  trial : Bool
  /-- The slot that FW_WRITE has written since the start (R457). -/
  written : Option Bool
  /-- Measurement registers (R462), and the digest of the field state as read in step 3. -/
  meas : Vector (BitVec 256) 8
  field : BitVec 256
  /-- `RST_CAUSE`. -/
  rkind : Byte
  rsrc : Byte
  rdie : BitVec 4
  /-- Events latched for the next start. -/
  late : List LateEvent
  /-- The module is stopped by a module fault, and the fault is latched (R470). -/
  modFault : Bool
  /-- A SHUTDOWN has been accepted (R361, R485). -/
  shutdown : Bool
  /-- Dies stopped by a fault until a reset (R26). -/
  deadDies : List DieId
  /-- DIE resets under way: the dies whose links train before they are ready (R467). -/
  dieResets : List DieId
  deriving DecidableEq, Repr

/-- The Clerk at power good of the first start. [DESIGN CHOICE: log 3] -/
def Clerk.reset : Clerk :=
  { slots := Vector.replicate 8 MbSlot.reset, waiting := [], replies := [], mberr := false, bstage := 1, bfail := 0,
    power := true, recovery := false, foreign := false, slot := false, trial := false, written := none,
    meas := Vector.replicate 8 0, field := 0, rkind := 1, rsrc := 4, rdie := 0, late := [], modFault := false, shutdown := false,
    deadDies := [], dieResets := [] }

/-! ### Power and cooling (R475-R492) -/

/-- The power stage: off, off until the hot-swap sequence tries again, in a step of the sequence with so many of the rails `AUX`, `HUB_CORE`,
`HUB_IO` and `SERDES` up, or on (R476). -/
inductive Stage where
  | off
  | retry
  | step (n rails : Nat)
  | on
  deriving DecidableEq, Repr

/-- The hot-swap sequence goes on (R476): the step in progress is completed and the next one begins, up to step 5, which ends
with power
good; in step 4 the rails come up one after another; after 1 s a sequence that failed starts again. [DESIGN CHOICE: log 2] -/
def Stage.next : Stage → Stage
  | .step 4 rails => if rails < 4 then .step 4 (rails + 1) else .step 5 rails
  | .step n rails => .step (min (n + 1) 5) rails
  | .retry => .step 1 0
  | st => st

/-- Power and cooling: the stage, the limits, the target and what the registers and sensor pages show (R475-R491). Powers in
hundredths of a watt. -/
structure Power where
  stage : Stage
  pwren : Bool
  /-- Failures of the hot-swap sequence since `PWREN` was asserted. -/
  tries : Nat
  /-- The stage stays off until `PWREN` is cycled. -/
  latchedOff : Bool
  limits : Limits
  target : Nat
  pcap : Bool
  /-- The issue duty of each core in 64ths, and the place of the current ACLK cycle among 64 (R481). -/
  duties : Vector Nat 64
  cycle : Nat
  pstop : Bool
  therm : Bool
  flowlim : Bool
  caplim : Bool
  ramplim : Bool
  ballast : Bool
  fshort : Bool
  /-- The inlet is above 40 °C; the flow is less than the draw requires (R486, R487). -/
  hotInlet : Bool
  lowFlow : Bool
  /-- Compute dies powered in boot step 5, and control ticks since the last one (R478). -/
  diesOn : Nat
  dieTicks : Nat
  /-- Ballast power; the readings and ballast powers of the last 1 ms, newest first (R479). -/
  ballastPower : Nat
  recent : List PowerReading
  recentBallast : List Nat
  /-- The last readings; the largest input power since the last read of sensor page 0; the energy since power good, in units of
  10^-7 J. -/
  last : PowerReading
  peak : Nat
  energy : Nat
  /-- Ticks of 10 µs limited since the last `PWR_LIMIT`, by limit 1-5, and ticks since it; the same for `FLOOR_SHORT`, with the
  largest shortfall in W. -/
  limited : Vector Nat 5
  sinceLimit : Nat
  sinceShort : Nat
  shortfall : Nat
  /-- Control ticks of 10 µs since power good (the model's count, for R378). -/
  ticks : Nat
  /-- Rails out of tolerance. -/
  rails : BitVec 13
  deriving DecidableEq, Repr

/-- Readings of a module that has taken none. [DESIGN CHOICE: log 3] -/
def PowerReading.none : PowerReading :=
  ⟨0, 0, 0, 0, Vector.replicate 4 0, 0, Vector.replicate 4 0, 0, 0, 0, 0, []⟩

/-- Power at power good of the first start. [DESIGN CHOICE: log 3] -/
def Power.reset : Power :=
  { stage := .on, pwren := true, tries := 0, latchedOff := false, limits := Limits.factory, target := 0, pcap := false,
    duties := Vector.replicate 64 64, cycle := 0, pstop := false, therm := false, flowlim := false, caplim := false, ramplim := false, ballast := false,
    fshort := false, hotInlet := false, lowFlow := false, diesOn := 0, dieTicks := 0, ballastPower := 0, recent := [],
    recentBallast := [], last := PowerReading.none, peak := 0, energy := 0, limited := Vector.replicate 5 0,
    sinceLimit := 100000, sinceShort := 100000, shortfall := 0, ticks := 0, rails := 0 }

end Sys2Proof.Machine
end

