-- ==== Sys2Proof/Machine/State.lean ====
section
/-! DEFINITION. The state of the module as plain data, the ways a step can stop, and the state after reset. -/

namespace Sys2Proof.Machine

/-- Why a command is not performed at all. There is no such reason: every error the spec describes (a status, a sticky bit, an event
record, a halted queue) is a next state, and a command that names a part the grade does not have changes nothing (R3, R28). Nobody
raises a fault. [DEDUCED: log 5] -/
inductive Fault where
  deriving DecidableEq, Repr

/-- Why a command has no meaning. -/
inductive Refusal where
  /-- Raised by an arm of `exec` whose command has no meaning yet. Safe: nothing is claimed of it. -/
  | notModelled (mnemonic : String)
  deriving DecidableEq, Repr

/-- The fuses (R460). [DESIGN CHOICE: log 1] -/
structure Fuses where
  /-- Four compute dies (GY4-2048-L) or two (GY2-1024-L). -/
  gy4 : Bool
  stepping : Byte
  serial : Word
  svn : Nat
  deriving DecidableEq, Repr

/-- A compute die: its Starter, its physical cores, and the Cooldown of its logic. -/
structure Die where
  bars : Vector BarCtx 16
  str : StrStat
  pcores : Vector PCore 18
  logic : Option RegionTest
  /-- `CD_SAVE_BASE`.`BASE` (R364, R400). -/
  saveBase : BitVec 48
  /-- The reserved area (R356), beside its bytes: the pattern set staged, the two core save slots, the die save slot. [DESIGN CHOICE:
  log 93] -/
  staged : Bool
  saves : Vector (Option SaveSlot) 2
  barSave : Option (Vector BarCtx 16)
  deriving DecidableEq, Repr

/-- The module. -/
structure State where
  /-- Commands waiting, first in, first out (the block's own queue). -/
  pending : List Instr
  /-- The number of the next free value. -/
  fresh : Nat
  /-- Interrupt vectors sent to the host, newest last. -/
  irqs : List (BitVec 11)
  fuses : Fuses
  cores : Vector Core 64
  dies : Vector Die 4
  fabs : Vector FabCtx 8
  msgs : Msgs
  /-- Bytes of HBM, Basins, Cisterns and instruction stores by device address. -/
  mem : Memory
  /-- Stored bibs by block number (device address / 4096); a Basin or Cistern block has one iff its valid mark is set. -/
  bibs : Sparse Word
  /-- Runs of HBM blocks that the Clerk has filled with zeros, newest first: the bibs of blocks not written since (R404). -/
  fills : List Fill
  /-- HBM blocks poisoned since they were last readable (R330); a block in neither `bibs` nor `fills` is poisoned too. -/
  poison : Sparse Unit
  /-- Backed frames (R397). -/
  frames : Sparse Frame
  /-- What the slices in no frame hold (R397, R404). -/
  shelf : Shelf
  hbms : Vector Stack 32
  handles : Handles
  /-- Ranges of HBM that the Clerk has allocated for queue rings, by queue (R244). -/
  rings : Sparse ClerkRange
  runnels : Vector Runnel 128
  /-- Host memory as the module's requests reach it. -/
  hostMem : Memory
  queues : Sparse Queue
  /-- Heads whose dependencies are met, oldest first (R253). -/
  ready : List Nat
  /-- Queues whose head command runs on its engine, earliest started first (R249, R308). -/
  active : List Nat
  events : Events
  /-- Step counter and skip count (R269). -/
  stepCtr : BitVec 48
  skips : BitVec 32
  guard : Guard
  baton : Baton
  dxt : Dxt
  ports : Vector Port 24
  host : HostPort
  rotations : List Rotation
  stepPhase : StepPhase
  /-- Logical cores whose rotation host software has requested (R19). -/
  rotReq : List CoreId
  cooldown : Cooldown
  /-- Taper of dies 0-3 and of the hub (R367). -/
  tapers : Vector Taper 5
  /-- Service marks, each with the `PHOURS` at which it was set (R472). -/
  svc : Vector (Option (BitVec 24)) 8
  links : Vector DieLink 4
  clerk : Clerk
  flash : Flash
  power : Power
  deriving DecidableEq, Repr

def Die.reset (d : Nat) : Die :=
  ⟨Vector.replicate 16 BarCtx.reset, StrStat.reset, Vector.ofFn fun p => PCore.factory d p.val, none, 0, false,
    Vector.replicate 2 none, none⟩

/-- The GY4-2048-L at power good of its first start. [DESIGN CHOICE: log 1, 3, 16] -/
def State.reset : State :=
  { pending := [], fresh := 0, irqs := [], fuses := ⟨true, 1, 1, 0⟩, cores := Vector.replicate 64 Core.reset,
    dies := #v[Die.reset 0, Die.reset 1, Die.reset 2, Die.reset 3], fabs := Vector.replicate 8 FabCtx.reset,
    msgs := Msgs.none, mem := [], bibs := [], fills := [], poison := [], frames := [], shelf := Shelf.reset,
    hbms := Vector.replicate 32 Stack.reset, handles := Handles.reset, rings := [],
    runnels := Vector.replicate 128 Runnel.reset, hostMem := [], queues := [], ready := [], active := [], events := Events.reset,
    stepCtr := 0, skips := 0, guard := Guard.reset, baton := Baton.reset, dxt := Dxt.reset,
    ports := Vector.replicate 24 Port.reset, host := HostPort.reset, rotations := [], stepPhase := .idle, rotReq := [],
    cooldown := Cooldown.reset, tapers := Vector.replicate 5 Taper.reset, svc := Vector.replicate 8 none,
    links := Vector.replicate 4 DieLink.reset, clerk := Clerk.reset, flash := Flash.factory, power := Power.reset }

end Sys2Proof.Machine
end

