-- ==== Sys2Proof/Machine/Ops.lean ====
section
/-! DEFINITION. The shared operations: the parts of a grade (R1-R3), the device address map (R27, R28), reads and writes of memory
and registers, event records (R350-R352), sync counters and watches (R217-R225). -/

namespace Sys2Proof.Machine

/-! ### Small helpers -/

/-- One element of a vector changed. -/
def vupd {α : Type} {n : Nat} (v : Vector α n) (i : Fin n) (f : α → α) : Vector α n := v.set i.val (f v[i]) i.isLt

/-- The first element of a list that satisfies `p`, removed. -/
def takeFirst {α : Type} (p : α → Bool) : List α → Option (α × List α)
  | [] => none
  | a :: l => if p a then some (a, l) else (takeFirst p l).map fun r => (r.1, a :: r.2)

/-- The first element of a list that satisfies `p` and that no earlier element of its order holds back, removed (R16).
[DESIGN CHOICE: log 31] -/
def takeOrdered {α : Type} (p : α → Bool) (same : α → α → Bool) (l : List α) : Option (α × List α) :=
  (List.range l.length).findSome? fun i =>
    match l[i]? with
    | some m => if p m && !(l.take i).any fun x => same x m then some (m, (l.take i) ++ l.drop (i + 1)) else none
    | none => none

/-- Element `i` of a list removed. -/
def dropAt {α : Type} : List α → Nat → List α
  | [], _ => []
  | _ :: l, 0 => l
  | a :: l, i + 1 => a :: dropAt l i

/-- Element `i` of a list changed. -/
def listUpd {α : Type} : List α → Nat → (α → α) → List α
  | [], _, _ => []
  | a :: l, 0, f => f a :: l
  | a :: l, i + 1, f => a :: listUpd l i f

/-- A field of `n` bits at bit `lo`, as a number. -/
def fld {w : Nat} (c : BitVec w) (lo n : Nat) : Nat := (c.extractLsb' lo n).toNat

/-- A count of 16 bits raised, held at its largest value. -/
def sat16 (c : BitVec 16) (n : Nat) : BitVec 16 := BitVec.ofNat 16 (min (c.toNat + n) 0xFFFF)

/-- A count of 8 bits raised, held at its largest value. -/
def sat8 (c : BitVec 8) (n : Nat) : BitVec 8 := BitVec.ofNat 8 (min (c.toNat + n) 0xFF)

/-- A list of lanes as a vector register; lanes past its end are 0 (R179). -/
def mkV (l : List Lane) : VReg := ⟨⟨(List.range 256).map fun i => l.getD i 0⟩, by simp⟩

/-- A vector register by lane number. -/
def genV (f : Nat → Lane) : VReg := ⟨⟨(List.range 256).map f⟩, by simp⟩

/-! ### The grade (R1-R3, R243) -/

namespace State

/-- Logical cores of the grade. [DESIGN CHOICE: log 1] -/
def coreCount (s : State) : Nat := if s.fuses.gy4 then 64 else 32
/-- Compute dies of the grade. [DESIGN CHOICE: log 1] -/
def dieCount (s : State) : Nat := if s.fuses.gy4 then 4 else 2
/-- Memory stacks of the grade. -/
def stackCount (s : State) : Nat := if s.fuses.gy4 then 32 else 16
/-- Fabric ports of the grade. -/
def portCount (s : State) : Nat := if s.fuses.gy4 then 24 else 12
/-- The end of the HBM range of the grade. -/
def hbmTop (s : State) : Nat := if s.fuses.gy4 then 2 ^ 41 else 2 ^ 40

def hasCore (s : State) (k : CoreId) : Bool := decide (k.val < s.coreCount)
def hasDie (s : State) (d : DieId) : Bool := decide (d.val < s.dieCount)

/-- One core changed. -/
def updCore (s : State) (k : CoreId) (f : Core → Core) : State := { s with cores := vupd s.cores k f }

/-- The architectural state of one core changed. -/
def updArch (s : State) (k : CoreId) (f : CoreArch → CoreArch) : State := s.updCore k fun c => { c with arch := f c.arch }

/-- One die changed. -/
def updDie (s : State) (d : DieId) (f : Die → Die) : State := { s with dies := vupd s.dies d f }

/-- One fabric barrier context changed. -/
def updFab (s : State) (j : Fin 8) (f : FabCtx → FabCtx) : State := { s with fabs := vupd s.fabs j f }

/-- A queue; one never allocated is DISABLED. -/
def queue (s : State) (q : Nat) : Queue := (Sparse.find s.queues q).getD Queue.disabled

/-- One queue changed. -/
def updQueue (s : State) (q : Nat) (f : Queue → Queue) : State :=
  { s with queues := Sparse.put s.queues q (f (s.queue q)) }

/-- A vector can be sent: the host link is up, MSI-X is enabled and the vector is not masked (R438). [DEDUCED: log 65] -/
def canSend (s : State) (v : Nat) : Bool := s.host.linkUp && s.host.msixOn && (Sparse.find s.host.unmasked v).isSome

/-- Interrupt `v` sent to the host, or its pending bit set where it cannot be sent (R255, R350, R438, R443). [DESIGN CHOICE:
log 10] [DEDUCED: log 65] -/
def interrupt (s : State) (v : BitVec 11) : State :=
  if s.canSend v.toNat then { s with irqs := s.irqs ++ [v] }
  else { s with host := { s.host with pendingMsi := Sparse.put s.host.pendingMsi v.toNat () } }

/-- Pending interrupts that can now be sent (R438). -/
def sendPending (s : State) : State :=
  let go := s.host.pendingMsi.filter fun e => s.canSend e.1
  { s with
    irqs := s.irqs ++ go.map fun e => BitVec.ofNat 11 e.1
    host := { s.host with pendingMsi := s.host.pendingMsi.filter fun e => !s.canSend e.1 } }

/-- Host software reaches a BAR: the link is up, the function is in D0 and the BAR is assigned (R432, R438). -/
def barOpen (s : State) (n : Fin 3) : Bool := s.host.linkUp && !s.host.d3hot && s.host.bars[n].isSome

/-- An access of host software through a BAR: it reaches the module while the BAR decodes (R432). -/
def ifOpen (s : State) (n : Fin 3) (f : State → State) : State := if s.barOpen n then f s else s

end State

/-- The die of a logical core. -/
def dieOf (k : CoreId) : DieId := ⟨k.val / 16, by have := k.isLt; omega⟩

/-- The power stage is off, or a module fault has stopped the module (R470, R475): nothing happens but events of the supply.
[DEDUCED: log 6, 81] -/
def State.dark (s : State) : Bool := s.power.stage != .on || s.clerk.modFault

/-- A FAILED die link cuts its compute die off (R383). -/
def State.dieCut (s : State) (d : DieId) : Bool := s.links[d].hub.lstate == .failed || s.links[d].die.lstate == .failed

/-- A die has lost its clock, is under reset, or is cut off: nothing acts on it (R26, R383, R467). [DEDUCED: log 6] -/
def State.dieOut (s : State) (d : DieId) : Bool :=
  s.dark || s.clerk.dieResets.contains d || s.clerk.deadDies.contains d || s.dieCut d

/-- The cores of a die are held: by a thermal stop, by a fault of the die or of its link, or by a DIE reset under way (R26, R383, R467,
R488). [DEDUCED: log 6] -/
def State.dieHeld (s : State) (d : DieId) : Bool := s.dieOut d || s.power.pstop

/-- An effect of a module that runs. [DEDUCED: log 6] -/
def State.unlessDark (s : State) (f : State → State) : State := if s.dark then s else f s

/-- An effect at a die that runs. [DEDUCED: log 6] -/
def State.unlessHeld (s : State) (d : DieId) (f : State → State) : State := if s.dieHeld d then s else f s

/-- The die of a memory stack (R394). -/
def dieOfStack (st : StackId) : DieId := ⟨st.val / 8, by have := st.isLt; omega⟩

/-- A die link carries transfers: both its ends are ACTIVE (R14, R378). -/
def State.linkUp (s : State) (d : DieId) : Bool := s.links[d].hub.lstate == .active && s.links[d].die.lstate == .active

/-- The hub and a compute die reach each other: the die runs, and its link carries traffic (R26, R378, R383). [DEDUCED: log
6] -/
def State.hubDie (s : State) (d : DieId) : Bool := s.linkUp d && !s.dieOut d

/-- A transfer can go from one compute die to another: it crosses the sender's die link and the receiver's (R14). -/
def State.path (s : State) (a b : DieId) : Bool := a == b || (s.hubDie a && s.hubDie b)

/-- The physical core that serves logical core k is under a Cooldown test, which isolates its network port (R353). -/
def State.underTest (s : State) (k : CoreId) : Bool :=
  (s.dies[dieOf k]).pcores.toList.any fun x => x.pst == .active && x.lcore.toNat == k.val && x.test.isSome

/-- The outcome of a command at a logical core; at a core the grade does not have nothing happens (R3, R28). [DEDUCED: log 5,
6] -/
def atCore (k : CoreId) (s : State) (f : State → State) : Host.Outcome State Fault Refusal :=
  .next (if s.hasCore k then s.unlessHeld (dieOf k) f else s)

/-- The outcome of a command at a compute die that the grade has and that has not stopped (R3, R26, R28). [DEDUCED: log 5] -/
def atDie (d : DieId) (s : State) (f : State → State) : Host.Outcome State Fault Refusal :=
  .next (if s.hasDie d && !s.dieOut d then f s else s)

/-- The outcome of a command at a die link of the grade whose die has its clock; the link of a die under reset trains (R26,
R467). [DEDUCED: log 5] -/
def atLink (d : DieId) (s : State) (f : State → State) : Host.Outcome State Fault Refusal :=
  .next (if s.hasDie d && !s.dark && !s.clerk.deadDies.contains d then f s else s)

/-- The outcome of a command at a memory stack of the grade whose die has not stopped (R3, R26). [DEDUCED: log 5] -/
def atStack (st : StackId) (s : State) (f : State → State) : Host.Outcome State Fault Refusal :=
  .next (if decide (st.val < s.stackCount) && !s.dark && !s.clerk.deadDies.contains (dieOfStack st) then f s else s)

/-- The outcome of a command at a fabric port of the grade. [DEDUCED: log 5] -/
def atPort (p : PortId) (s : State) (f : State → State) : Host.Outcome State Fault Refusal :=
  .next (if p.val < s.portCount then s.unlessDark f else s)

/-- The logical core of a Runnel (R242). -/
def coreOf (r : RunId) : CoreId := ⟨r.val / 2, by have := r.isLt; omega⟩

/-- The outcome of a command at a Runnel. [DEDUCED: log 5] -/
def atRunnel (r : RunId) (s : State) (f : State → State) : Host.Outcome State Fault Refusal := atCore (coreOf r) s f

/-- The outcome of a command at no part of the grade in particular. [DEDUCED: log 6] -/
def always (s : State) (f : State → State) : Host.Outcome State Fault Refusal := .next (s.unlessDark f)

/-- The outcome of an event of the supply, which a module without power meets too. [DEDUCED: log 6] -/
def anyway (s : State) (f : State → State) : Host.Outcome State Fault Refusal := .next (f s)

/-- The die-local number of a logical core. -/
def localOf (k : CoreId) : Fin 16 := ⟨k.val % 16, by omega⟩

/-- Logical core 16d + k. -/
def coreAt (d : DieId) (k : Fin 16) : CoreId := ⟨16 * d.val + k.val, by have := d.isLt; have := k.isLt; omega⟩

/-- A core is stopped: its sequencer has stopped and its stop is complete (R162). -/
def Core.isStopped (c : Core) : Bool :=
  c.arch.seq.phase == .stopped && c.inflight.isEmpty && c.mxq.isEmpty && c.far.isEmpty && c.farWait.isEmpty && c.hold.isNone &&
    c.relay == .none

/-- A core that a hold keeps from program cycles: a replay, or a Relay chain (R67, R76). -/
def Core.held (c : Core) : Bool :=
  c.hold.isSome ||
    (match c.relay with
     | .running _ => true
     | .waiting _ _ _ => false
     | .lead _ _ _ => true
     | .member _ _ _ _ => c.mxq.isEmpty
     | .none => false)

def State.core (s : State) (k : CoreId) : Core := s.cores[k]

/-! ### Device address map (R27) -/

/-- Where a device address lies. -/
inductive Place where
  | hbm
  | basin (k : CoreId) (off : Nat)
  | cistern (k : CoreId) (off : Nat)
  | istore (k : CoreId) (off : Nat)
  | regs (off : Nat)
  | unmapped
  deriving DecidableEq, Repr

def basinBase (k : CoreId) : Nat := 0x800000000000 + k.val * 0x2000000
def cisternBase (k : CoreId) : Nat := 0x900000000000 + k.val * 0x800000
def istoreBase (k : CoreId) : Nat := 0xA00000000000 + k.val * 0x100000

/-- The used part of the window an address lies in, in this grade; an unbacked frame is unmapped (R27, R28, R397). -/
def State.place (s : State) (a : Nat) : Place :=
  if a < 2 ^ 41 then (if a < s.hbmTop ∧ (Sparse.find s.frames (a / 2 ^ 30)).isSome then .hbm else .unmapped)
  else if 0x800000000000 ≤ a ∧ a < 0x800080000000 then
    let k : CoreId := ⟨(a - 0x800000000000) / 0x2000000 % 64, by omega⟩
    let off := (a - 0x800000000000) % 0x2000000
    if k.val < s.coreCount ∧ off < 0x1800000 then .basin k off else .unmapped
  else if 0x900000000000 ≤ a ∧ a < 0x900020000000 then
    let k : CoreId := ⟨(a - 0x900000000000) / 0x800000 % 64, by omega⟩
    let off := (a - 0x900000000000) % 0x800000
    if k.val < s.coreCount ∧ off < 0x400000 then .cistern k off else .unmapped
  else if 0xA00000000000 ≤ a ∧ a < 0xA00004000000 then
    let k : CoreId := ⟨(a - 0xA00000000000) / 0x100000 % 64, by omega⟩
    let off := (a - 0xA00000000000) % 0x100000
    if k.val < s.coreCount ∧ off < 0x80000 then .istore k off else .unmapped
  else if 0xF00000000000 ≤ a ∧ a < 0xF00005000000 then .regs (a - 0xF00000000000)
  else .unmapped

/-- A write at a device address goes to the instruction store of a core that is not stopped (R29). -/
def State.istoreBusy (s : State) (a : Nat) : Bool :=
  match s.place a with
  | .istore o _ => !(s.core o).isStopped
  | _ => false

/-- A place that holds bytes. -/
def Place.isMem : Place → Bool
  | .hbm => true
  | .basin _ _ => true
  | .cistern _ _ => true
  | .istore _ _ => true
  | _ => false

/-! ### Memory -/

/-- Bytes at a device address. -/
def State.rd (s : State) (a n : Nat) : List Byte := Memory.bytes s.mem a n

/-- A little-endian word of `n` bytes. -/
def State.rdNat (s : State) (a n : Nat) : Nat := leNat (s.rd a n)

/-- The number of stacks a frame spreads over (R398). -/
def State.frameStacks (s : State) (f : Frame) : Nat := if f.fmode then s.stackCount else 8

/-- The stack and stack offset of a device address in a backed frame (R398). -/
def State.stackAt (s : State) (a : Nat) : Option (StackId × Nat) :=
  match Sparse.find s.frames (a / 2 ^ 30) with
  | none => none
  | some f =>
    let o := a % 2 ^ 30
    let g := o / 4096
    let n := s.frameStacks f
    let q := g / n
    let sel := (g % n) ^^^ (q % n)
    let st := if f.fmode then sel else 8 * f.fdie.toNat + sel
    some (⟨st % 32, by omega⟩, f.fslice.toNat * 2 ^ 25 + q * 4096 + o % 4096)

/-- The stack of a device address is out of service (R409). -/
def State.stackDead (s : State) (a : Nat) : Bool :=
  match s.stackAt a with
  | some (st, _) => s.hbms[st].hstate == .outOfService
  | none => false

/-- Bytes as a reader of the device address space gets them: a stack out of service delivers zeros (R409). -/
def State.rdDev (s : State) (a n : Nat) : List Byte :=
  if s.hbms.any fun x => x.hstate == .outOfService then (s.rd a n).mapIdx fun i b => if s.stackDead (a + i) then 0 else b
  else s.rd a n

/-- Such bytes as a number. -/
def State.rdDevNat (s : State) (a n : Nat) : Nat := leNat (s.rdDev a n)

/-- Bytes written, with no bib changed. -/
def State.wr (s : State) (a : Nat) (bs : List Byte) : State := { s with mem := Memory.setBytes s.mem a bs }

/-- The valid marks of the Basin and Cistern blocks that a slot write touches are cleared (R212). HBM blocks keep their bibs. -/
def State.clearMarks (s : State) (a n : Nat) : State :=
  if n = 0 ∨ a < 0x800000000000 then s
  else { s with bibs := Sparse.del (Sparse.del s.bibs (a / 4096)) ((a + n - 1) / 4096) }

/-- A write by a slot or by the matrix array (R212). -/
def State.wrSlot (s : State) (a : Nat) (bs : List Byte) : State := (s.wr a bs).clearMarks a bs.length

/-! ### Events (R350, R352, R448) -/

/-- One record as 32 bytes (Table: Fault event record). -/
def EvRec.bytes (r : EvRec) : List Byte :=
  natLe 2 r.eseq.toNat ++ natLe 2 (r.lcore.toNat <<< 9) ++ natLe 1 r.die.toNat ++ [0] ++ [r.sev, r.evt] ++
    natLe 8 r.detail.toNat ++ natLe 2 0 ++ natLe 6 r.addr.toNat ++ [boolByte r.p64, 0] ++ natLe 6 r.step.toNat
where
  boolByte (b : Bool) : Byte := if b then 1 else 0

/-- A record written into the ring, or dropped and counted when the ring is full (R352, R448). [DESIGN CHOICE: log 9]
[DEDUCED: log 72] -/
def State.ringPut (s : State) (r : EvRec) : State :=
  match s.events.ring with
  | none => s
  | some (base, log2, vec) =>
    let ev := s.events
    if (ev.evprod - ev.evcons).toNat = 2 ^ log2 then { s with events := { ev with dropped := ev.dropped + 1 } }
    else
      let r' : EvRec :=
        if ev.dropped = 0 then r
        else { r with detail := BitVec.ofNat 64 ((ev.dropped % 65536) <<< 48 + r.detail.toNat % 2 ^ 48) }
      let s := { s with
        hostMem := Memory.setBytes s.hostMem (base + 32 * (ev.evprod.toNat % 2 ^ log2)) r'.bytes
        events := { ev with evprod := ev.evprod + 1, dropped := 0 } }
      if r.sev = 0 then s else s.interrupt vec

/-- The Clerk writes an event record; without a ring it holds up to 256 (R350, R352, R448). [DEDUCED: log 72] -/
def State.emit (s : State) (evt sev die : Byte) (lcore : BitVec 7) (detail : Word) (addr : Nat) (p64 : Bool) : State :=
  let r : EvRec :=
    { evt := evt, sev := sev, die := die, lcore := lcore, detail := detail, addr := BitVec.ofNat 48 addr, p64 := p64,
      step := s.stepCtr, eseq := s.events.eseq }
  let ev := { s.events with
    eseq := s.events.eseq + 1
    flashed := if sev = 2 then r :: s.events.flashed else s.events.flashed }
  match ev.ring with
  | some _ => { s with events := ev }.ringPut r
  | none =>
    if ev.held.length < 256 then { s with events := { ev with held := ev.held ++ [r] } }
    else { s with events := { ev with dropped := ev.dropped + 1 } }

/-- `DIE` and `LCORE` of a record about a logical core. -/
def coreTag (k : CoreId) : Byte × BitVec 7 := (BitVec.ofNat 8 (dieOf k).val, BitVec.ofNat 7 k.val)

/-- An event record about a logical core. -/
def State.emitCore (s : State) (evt sev : Byte) (k : CoreId) (detail : Word) (addr : Nat) : State :=
  s.emit evt sev (coreTag k).1 (coreTag k).2 detail addr false

/-! ### Core registers -/

def Core.sreg (c : Core) (r : Reg) : Word := c.arch.sregs[r]
def Core.vreg (c : Core) (r : Reg) : VReg := c.arch.vregs[r]

/-- A counter by its number; numbers above 47 name none. -/
def CoreArch.ctr (a : CoreArch) (n : BitVec 6) : BitVec 16 :=
  if h : n.toNat < 48 then a.ctrs[n.toNat] else 0

def CoreArch.setCtr (a : CoreArch) (n : BitVec 6) (v : BitVec 16) : CoreArch :=
  if h : n.toNat < 48 then { a with ctrs := a.ctrs.set n.toNat v } else a

/-- The tile metadata word [31:0] (Table: Tile metadata). -/
def TileMeta.low (t : TileMeta) : BitVec 32 :=
  BitVec.ofNat 32 (t.teo.toNat + (b t.image) <<< 10 + (b t.armed) <<< 11 + (b t.chkrep) <<< 12 + t.replays.toNat <<< 13 +
    (b t.ovfinf) <<< 15 + (b t.scaled) <<< 16)
where
  b (x : Bool) : Nat := if x then 1 else 0

/-- One tile's metadata changed. -/
def CoreArch.updTile (a : CoreArch) (t : Fin 64) (f : TileMeta → TileMeta) : CoreArch :=
  { a with tiles := vupd a.tiles t f }

/-- `CSTAT` (Table: CSTAT). -/
def CoreArch.cstat (a : CoreArch) : BitVec 32 := a.stopCause ++ (0#15 ++ a.sticky)

/-- Events of the current cycle set sticky bits; reads see them from the next cycle on (R159). -/
def Core.flag (c : Core) (m : BitVec 9) : Core := { c with stickyNew := c.stickyNew ||| m }

def WCOLL : BitVec 9 := 0x001
def UNMAP : BitVec 9 := 0x002
def BADFMT : BitVec 9 := 0x004
def BADMX : BitVec 9 := 0x008
def MQFULL : BitVec 9 := 0x010
def OVFINF : BitVec 9 := 0x020
def CFAULT : BitVec 9 := 0x040
def BADBUN : BitVec 9 := 0x080
def STKERR : BitVec 9 := 0x100

/-! ### The next bundle (R134, R151) -/

/-- The loop-end test after an issue of bundle `pc` at call depth `d`: the start of the next iteration, if any, and the stack
(R151). -/
def loopEnd (d : Nat) (pc : BIdx) : List LoopEntry → Option BIdx × List LoopEntry
  | [] => (none, [])
  | e :: l =>
    if e.last = pc ∧ e.depth = d then
      if 1 < e.remaining.toNat then (some e.start, { e with remaining := e.remaining - 1 } :: l) else loopEnd d pc l
    else (none, e :: l)

/-- The sequencer set to continue at bundle `dest` in cycle `t`, in a phase; past index 8,191 `PC` keeps 8,191 (R134).
[DESIGN CHOICE: log 100] -/
def Core.goTo (c : Core) (dest t : Nat) (ph : Nat → Phase) : Core :=
  if dest < 8192 then
    { c with arch := { c.arch with seq := { c.arch.seq with pc := BitVec.ofNat 13 dest, phase := ph t, past := false } } }
  else { c with arch := { c.arch with seq := { c.arch.seq with pc := 8191, phase := ph t, past := true } } }

/-- The loop stack set. -/
def Core.setLoops (c : Core) (l : List LoopEntry) : Core :=
  { c with arch := { c.arch with seq := { c.arch.seq with lstk := l } } }

/-- The bundle that follows bundle `PC` (R151). -/
def Core.following (c : Core) : Nat :=
  match (loopEnd c.arch.seq.cstk.length c.arch.seq.pc c.arch.seq.lstk).1 with
  | some b => b.toNat
  | none => c.arch.seq.pc.toNat + 1

/-- NEXT after bundle `PC`: the loop-end test, then the next bundle in cycle `t` (R151). -/
def Core.flowNext (c : Core) (t : Nat) (ph : Nat → Phase) : Core :=
  (c.setLoops (loopEnd c.arch.seq.cstk.length c.arch.seq.pc c.arch.seq.lstk).2).goTo c.following t ph

/-! ### Stopping (R157, R160, R162) -/

/-- The sequencer of a core stops with a cause; operations in flight go on landing. A sequencer stopped in gap cycles has not made
the loop-end test, and `PC` names the bundle that would have been next (R151, R162). [DEDUCED: log 28] -/
def Core.stopSeq (c : Core) (cause : BitVec 8) : Core :=
  let c := match c.arch.seq.phase with
    | .gap a => c.goTo c.following a Phase.gap
    | _ => c
  { c with arch := { c.arch with stopCause := cause, seq := { c.arch.seq with phase := .stopped } } }

/-- A core's sequencer runs. -/
def Core.running (c : Core) : Bool := c.arch.seq.phase != .stopped

/-- A bad bundle: the sequencer stops with BADBUN, `PC` stays at the bundle (R157). -/
def Core.badBundle (c : Core) : Core := (c.stopSeq 0x03).flag BADBUN

/-! ### Watches (R221-R225) -/

/-- A watch condition (Table: Watch conditions). -/
def watchHolds (cond : BitVec 3) (v imm : BitVec 16) : Bool :=
  if cond = 0 then v == imm
  else if cond = 1 then v != imm
  else if cond = 2 then imm.ule v
  else (v - imm).toNat < 2 ^ 15

/-- A notification reaches a slot: it counts only with the tag of the slot's registration (R221, R222). -/
def CoreArch.notify (a : CoreArch) (slot : Fin 16) (tag : Nat) : CoreArch :=
  let w := a.watches[slot]
  if w.wst = .armed ∧ w.tag = tag then { a with watches := a.watches.set slot.val { w with wst := .notified } } else a

/-- A WAIT whose slot is notified consumes the notification, and the next bundle issues in the next cycle (R154). [DEDUCED:
log 29] [DESIGN CHOICE: log 105] -/
def Core.wake (c : Core) : Core :=
  match c.arch.seq.phase with
  | .wait sl =>
    if c.arch.watches[sl].wst = .notified then
      { c with arch := { c.arch with
          watches := c.arch.watches.set sl.val { c.arch.watches[sl] with wst := .empty }
          seq := { c.arch.seq with phase := .issuing (c.now + 1) } } }
    else c
  | _ => c

/-- The registrations on a core's counters whose condition holds, and the rest (R223). -/
def Core.splitWatchers (c : Core) : List Watcher × List Watcher :=
  c.watchers.partition fun w => watchHolds w.cond (c.arch.ctr w.ctr) w.imm

/-- What the current cycle has delivered to a counter from outside the core (R196, R218). -/
def Core.delivered (c : Core) (n : BitVec 6) : BitVec 16 :=
  c.outside.foldl (fun v ch => if ch.1 = n then v + ch.2 else v) 0

/-- A watch holds at the end of a cycle for what the cycle delivered from outside: without it, it would not (R225). [DEDUCED:
log 29] -/
def Core.fromOutside (c : Core) (w : Watcher) : Bool :=
  let v := c.arch.ctr w.ctr
  watchHolds w.cond v w.imm && !watchHolds w.cond (v - c.delivered w.ctr) w.imm

/-- The watches on core k's counters judged at the end of a cycle (R196, R220, R223). A watch of another core is notified by a message
(R225). A watch of the core itself is notified in this cycle for a change delivered from outside in it, and 4 cycles later for a
change of its own sync slot or for a condition that already held at its registration. [DEDUCED: log 29] -/
def State.judge (s : State) (k : CoreId) : State :=
  let c := s.core k
  let fire := c.splitWatchers.1
  if fire.isEmpty && c.outside.isEmpty then s
  else
    let own := fire.filter fun w => w.core == k
    let others := fire.filter fun w => w.core != k
    let now := own.filter c.fromOutside
    let later := own.filter fun w => !c.fromOutside w
    let s := s.updCore k fun c =>
      ({ c with
        watchers := c.splitWatchers.2
        outside := []
        notes := c.notes ++ later.map fun w => ⟨c.now + 4, w.slot, w.tag⟩
        arch := now.foldl (fun a w => a.notify w.slot w.tag) c.arch } : Core).wake
    { s with msgs := { s.msgs with notes := s.msgs.notes ++ others.map fun w => ⟨w.core, (dieOf k).val, w.slot, w.tag⟩ } }

/-- Counter changes delivered to core k from outside in the current cycle: all of a cycle are added as one sum, and watches are judged
at the cycle's end (R196, R218, R220). -/
def State.deliver (s : State) (k : CoreId) (chs : List (BitVec 6 × BitVec 16)) : State :=
  s.updCore k fun c =>
    { c with
      arch := chs.foldl (fun a ch => a.setCtr ch.1 (a.ctr ch.1 + ch.2)) c.arch
      outside := c.outside ++ chs }

/-- The Starter holds what is addressed to a logical core while it rotates (R236). -/
def State.rotating (s : State) (k : CoreId) : Bool := s.rotations.any fun r => r.core == k

/-- What is addressed to logical core k waits: the core rotates, or its port is isolated (R236, R353). -/
def State.cutOff (s : State) (k : CoreId) : Bool := s.rotating k || s.underTest k

/-- A counter change handed to the network, to be delivered by COUNTER_DELIVERY. [DEDUCED: log 30] [DESIGN CHOICE: log 31] -/
def State.sendCtr (s : State) (m : CtrMsg) : State := { s with msgs := { s.msgs with ctrs := s.msgs.ctrs ++ [m] } }

/-- Service mark `i` set, with the hour of its first setting (R472). [DEDUCED: log 42] -/
def State.mark (s : State) (i : Fin 8) : State :=
  { s with svc := vupd s.svc i fun m => some (m.getD s.cooldown.phours) }

/-- A fresh number for a free value; the state counts it. [DESIGN CHOICE: log 8] -/
def State.takeFresh (s : State) : Nat × State := (s.fresh, { s with fresh := s.fresh + 1 })

end Sys2Proof.Machine
end

