-- ==== Sys2Proof/Machine/Heads.lean ====
section
/-! DEFINITION. The heads of the hardware queues (R242-R253, R504): statuses, command words, the judgement of a head, the commands
read ahead, and dependencies met by what the counters and queues come to hold. -/

namespace Sys2Proof.Machine

/-! ### Statuses (R256) -/

def ST_OK : Byte := 0x00
def ST_PREFIX_STOP : Byte := 0x01
def ST_BAD_BUNDLE : Byte := 0x02
def ST_UNMAPPED : Byte := 0x03
def ST_BAD_FORMAT : Byte := 0x04
def ST_BAD_DESC : Byte := 0x05
def ST_BAD_INDEX : Byte := 0x06
def ST_BIB_FAIL : Byte := 0x07
def ST_ISTORE_BUSY : Byte := 0x08
def ST_ABSENT_ENGINE : Byte := 0x09
def ST_NO_SPARE : Byte := 0x0A
def ST_CORE_FAULT : Byte := 0x0B
def ST_STOPPED : Byte := 0x0C
def ST_DEP_HALTED : Byte := 0x0D
def ST_FLUSHED : Byte := 0x0E
def ST_BAD_CMD : Byte := 0x0F
def ST_BAD_HANDLE : Byte := 0x10
def ST_NO_HANDLE : Byte := 0x11
def ST_NO_MEMORY : Byte := 0x12
def ST_CKPT_MISMATCH : Byte := 0x13
def ST_CORE_BUSY : Byte := 0x14
def ST_STEP_END : Byte := 0x15
def ST_NO_QUEUE : Byte := 0x16
def ST_HOST_FAIL : Byte := 0x17

/-- Statuses that do not halt the queue (R256). -/
def goesOn (st : Byte) : Bool := st == ST_OK || st == ST_PREFIX_STOP || st == ST_FLUSHED

/-- The result that gives the first unmapped address (R28), where the record of LAUNCH has it. [DESIGN CHOICE: log 89] -/
def unmappedResult (a : Nat) : BitVec 384 := BitVec.ofNat 384 (a <<< 192)

/-! ### Command words (R250, R251) -/

/-- A field of the 320-bit operand field (R250). -/
def opf (c : BitVec 512) (lo n : Nat) : Nat := fld c (192 + lo) n

def cmdTag (c : BitVec 512) : BitVec 32 := c.extractLsb' 32 32
def cmdOpc (c : BitVec 512) : Nat := fld c 0 8
def cmdSigen (c : BitVec 512) : Bool := c.getLsbD 31
def cmdSigCore (c : BitVec 512) : Nat := fld c 25 6
def cmdSigCtr (c : BitVec 512) : Nat := fld c 19 6
def cmdNotify (c : BitVec 512) : Bool := c.getLsbD 18

/-- A dependency word. -/
def cmdDep (c : BitVec 512) (i : Nat) : Word := c.extractLsb' (64 + 64 * i) 64

/-- A queue's logical core: its own for a core queue, its Runnel's for a Runnel queue. -/
def Queue.lcore (q : Queue) : CoreId :=
  if q.ecls = 2 then ⟨q.inst.toNat / 2 % 64, by omega⟩ else ⟨q.inst.toNat % 64, by omega⟩

/-- The engine instance of a queue is absent in the grade (R243). -/
def State.engineAbsent (s : State) (q : Queue) : Bool :=
  if q.ecls = 1 then decide (s.coreCount ≤ q.inst.toNat)
  else if q.ecls = 2 then decide (2 * s.coreCount ≤ q.inst.toNat)
  else if q.ecls = 4 then decide (s.dieCount ≤ q.inst.toNat)
  else false

/-- The opcodes of a class (Table: Command opcodes; R284, R288). -/
def opcodeListed (ecls opc : Nat) : Bool :=
  opc == 0x0F ||
    (if ecls = 1 then opc == 0x01
     else if ecls = 2 then opc == 0x10
     else if ecls = 3 then decide (0x20 ≤ opc ∧ opc ≤ 0x23)
     else if ecls = 4 then opc == 0x40
     else if ecls = 5 then decide (0x50 ≤ opc ∧ opc ≤ 0x56)
     else false)

/-- Ranges of operand bits that an opcode reserves: low bit and length (R250, R260-R270, R284, R288). -/
def reservedOps (opc : Nat) : List (Nat × Nat) :=
  if opc = 0x01 then [(112, 208), (50, 14), (13, 36)]
  else if opc = 0x10 then [(48, 272)]
  else if opc = 0x20 then [(312, 8), (295, 1), (263, 1), (92, 3), (188, 3)]
  else if 0x21 ≤ opc ∧ opc ≤ 0x23 then [(126, 194), (99, 1)]
  else if opc = 0x40 then [(29, 291)]
  else if opc = 0x50 then [(64, 256), (55, 9), (40, 4), (32, 6)]
  else if opc = 0x51 then [(32, 288)]
  else if opc = 0x52 then [(161, 159)]
  else if opc = 0x53 then [(70, 250)]
  else if opc = 0x54 then [(48, 272)]
  else if opc = 0x55 ∨ opc = 0x56 then [(192, 128)]
  else [(0, 320)]

/-- Where a Baton command's send and receive counters stand: the enable bit, with the counter in the 6 bits below and the core in
the 6 bits below the enable (R284, R288). -/
def batonCtrBits (opc : Nat) : List Nat :=
  if opc = 0x20 then [257, 244] else if 0x21 ≤ opc ∧ opc ≤ 0x23 then [125, 112] else []

/-- A dependency word whose encoding is bad (R504 step 2). -/
def badDep (w : Word) : Bool :=
  let kind := fld w 62 2
  kind == 3 || fld w 48 14 != 0 ||
    (if kind = 0 then fld w 0 48 != 0
     else if kind = 2 then fld w 32 16 != 0 || fld w 28 4 != 0 || decide (47 < fld w 16 6)
     else false)

/-- The encoding of a command is bad for its class (R504 step 2). [DEDUCED: log 34] -/
def badEncoding (ecls : Nat) (c : BitVec 512) : Bool :=
  let opc := cmdOpc c
  !opcodeListed ecls opc || fld c 8 10 != 0 ||
    (if cmdSigen c then decide (47 < cmdSigCtr c) else cmdSigCore c != 0 || cmdSigCtr c != 0) ||
    badDep (cmdDep c 0) || badDep (cmdDep c 1) || ((reservedOps opc).any fun r => opf c r.1 r.2 != 0) ||
    ((batonCtrBits opc).any fun b =>
      if opf c b 1 = 1 then decide (47 < opf c (b - 12) 6) else opf c (b - 12) 12 != 0)

/-! ### Judgement of a head (R252, R504) -/

/-- The status of a dependency word that names something absent or disabled (R252, R504 step 3), for queue `q` with head
sequence number `done`. -/
def State.depAbsent (s : State) (q : Nat) (done : BitVec 32) (w : Word) : Option Byte :=
  let kind := fld w 62 2
  if kind = 2 then (if s.coreCount ≤ fld w 22 6 then some ST_ABSENT_ENGINE else none)
  else if kind = 1 then
    let d := fld w 32 16
    if (s.queue d).qstate = .disabled ∨ (d = q ∧ (w.extractLsb' 0 32 - done).toNat < 2 ^ 31) then some ST_BAD_CMD else none
  else none

/-- Counter `n` of core k stands as the last cycle end left it: nothing of the current cycle has changed it (R223, R252). The
cycles of
a hold have ended. [DEDUCED: log 34] -/
def Core.ctrSettled (c : Core) (n : BitVec 6) : Bool :=
  (c.outside.all fun x => x.1 != n) &&
    (c.held || c.landed.all fun w => match w.2 with
      | .ctr m _ _ => m.val != n.toNat
      | _ => true)

/-- A dependency word is met as the queues stand and as the last cycle end left the counters (R252). [DEDUCED: log 34] -/
def State.depMet (s : State) (w : Word) : Bool :=
  let kind := fld w 62 2
  if kind = 1 then decide (((s.queue (fld w 32 16)).done - w.extractLsb' 0 32 - 1).toNat < 2 ^ 31)
  else if kind = 2 then
    let k : CoreId := ⟨fld w 22 6 % 64, by omega⟩
    (s.core k).ctrSettled (w.extractLsb' 16 6) &&
      decide (((s.core k).arch.ctr (w.extractLsb' 16 6) - w.extractLsb' 0 16).toNat < 2 ^ 15)
  else true

/-- An unmet command word names a HALTED queue (R252). -/
def State.depHalted (s : State) (w : Word) : Bool :=
  fld w 62 2 == 1 && (s.queue (fld w 32 16)).qstate == .halted && !s.depMet w

/-- Steps 1 to 3 of R504, and a core that has become unavailable (R243): the status that completes the head at once.
[DEDUCED: log 34] [DESIGN CHOICE: log 108] -/
def State.judgeHead (s : State) (q : Nat) (c : BitVec 512) : Option Byte :=
  let x := s.queue q
  if s.engineAbsent x then some ST_ABSENT_ENGINE
  else if (x.ecls = 1 ∨ x.ecls = 2) ∧ (s.core x.lcore).unavailable = true then some ST_NO_SPARE
  else if badEncoding x.ecls.toNat c then some ST_BAD_CMD
  else if cmdSigen c ∧ s.coreCount ≤ cmdSigCore c then some ST_ABSENT_ENGINE
  else (s.depAbsent q x.done (cmdDep c 0)).or (s.depAbsent q x.done (cmdDep c 1))

/-! ### Reading ahead (R245, R247) -/

/-- The address of the slot of a sequence number (R245). -/
def Queue.slotAddr (q : Queue) (seq : BitVec 32) : Nat := q.base + 64 * (seq.toNat % 2 ^ q.log2n.toNat)

/-- The command in the slot of a sequence number. -/
def State.slotCmd (s : State) (q : Nat) (seq : BitVec 32) : BitVec 512 :=
  BitVec.ofNat 512 (s.rdDevNat ((s.queue q).slotAddr seq) 64)

/-- The command at the head of a queue as the scheduler has read it (R247). -/
def State.headCmd (s : State) (q : Nat) : BitVec 512 :=
  let x := s.queue q
  x.head.getD (x.ahead.headD (s.slotCmd q x.done))

/-- The slots of the head and of up to 4 commands behind it, those that have not been read yet (R247). A command is read as soon as it is
within reach. [DESIGN CHOICE: log 90] -/
def State.readAhead (s : State) (q : Nat) : State :=
  let x := s.queue q
  if x.qstate = .disabled ∨ x.qstate = .halted then s
  else
    let n := min 5 (x.tail - x.done).toNat
    let more := (List.range (n - x.ahead.length)).map fun i => s.slotCmd q (x.done + BitVec.ofNat 32 (x.ahead.length + i))
    s.updQueue q fun x => { x with ahead := x.ahead ++ more }

/-! ### Dependencies met as they come (R252, R253) -/

/-- A waiting head judged as counters and queues stand, where nothing of it has failed: its met words are kept, and an unmet word whose
queue is HALTED (R252). -/
def State.noteHead (s : State) (q : Nat) : State :=
  let x := s.queue q
  if x.qstate ≠ .waiting ∨ s.ready.contains q then s
  else
    let c := s.headCmd q
    match s.judgeHead q c with
    | some _ => s
    | none =>
      let m1 := x.w1 || s.depMet (cmdDep c 0)
      let m2 := x.w2 || s.depMet (cmdDep c 1)
      let h := x.depHalt || (!m1 && s.depHalted (cmdDep c 0)) || (!m2 && s.depHalted (cmdDep c 1))
      let s := s.updQueue q fun y => { y with head := some c, w1 := m1, w2 := m2, depHalt := h }
      if m1 && m2 && !h then { s with ready := s.ready ++ [q] } else s

/-- Every waiting head judged at a cycle's end, in ascending queue number (R252, R253). [DEDUCED: log 34] -/
def State.noteDeps (s : State) : State := (s.queues.map (·.1)).foldl (fun s q => s.noteHead q) s

end Sys2Proof.Machine
end

