-- ==== Sys2Proof/Machine/Scalar.lean ====
section
/-! DEFINITION. The scalar slot (R173-R177): what each operation writes, its latency, and the start of an operation at a core's
current program cycle. -/

namespace Sys2Proof.Machine

/-- An operation of a slot started in the current cycle, to land `lat` cycles later (R136). -/
def Core.start (c : Core) (slot : SlotId) (lat : Nat) (body : OpBody) : Core :=
  { c with inflight := c.inflight ++ [⟨slot, c.arch.seq.pc, c.now, c.now + lat, body⟩] }

/-- Signed comparison of two words. -/
def boolWord (b : Bool) : Word := if b then 1 else 0

/-- Table: Scalar opcodes, the two-operand functions. -/
def AluFn.eval (f : AluFn) (a b : Word) : Word :=
  match f with
  | .add => a + b
  | .sub => a - b
  | .and => a &&& b
  | .or => a ||| b
  | .xor => a ^^^ b
  | .shl => a <<< (b.toNat % 64)
  | .shr => a >>> (b.toNat % 64)
  | .sar => a.sshiftRight (b.toNat % 64)
  | .min => if a.slt b then a else b
  | .max => if a.slt b then b else a
  | .minu => if a.ult b then a else b
  | .maxu => if a.ult b then b else a
  | .seq => boolWord (a == b)
  | .slt => boolWord (a.slt b)
  | .sltu => boolWord (a.ult b)

/-- The multiplies (R174). -/
def MulFn.eval (f : MulFn) (a b : Word) : Word :=
  match f with
  | .mul => a * b
  | .mulh => BitVec.ofInt 64 ((a.toInt * b.toInt) / 2 ^ 64)
  | .mulhu => BitVec.ofNat 64 ((a.toNat * b.toNat) / 2 ^ 64)

/-- The value of a second operand: a register, or the immediate sign-extended to 64 bits (R173). -/
def Core.ssrc (c : Core) : SSrc → Word
  | .reg r => c.sreg r
  | .imm v => v.signExtend 64

/-- A core register as RDCR reads it (R175). -/
def Core.readCr (c : Core) (sx : BitVec 9) : Word :=
  if sx = 0 then c.arch.cstat.zeroExtend 64
  else if sx = 1 then c.arch.layout.zeroExtend 64
  else c.arch.seq.cyc

/-- The tile a metadata selector names (R176). -/
def selTile (sx : BitVec 9) : Fin 64 := ⟨sx.toNat % 64, by omega⟩

/-- A tile metadata word as RDTM reads it (R176). -/
def Core.readTm (c : Core) (sx : BitVec 9) : Word :=
  let t := c.arch.tiles[selTile sx]
  if sx.extractLsb' 6 2 = 0 then t.low.zeroExtend 64
  else if sx.extractLsb' 6 2 = 1 then t.cx.zeroExtend 64
  else t.cw.zeroExtend 64

/-- The writes of WRCR (R175): CSTAT takes a W1C clear, CIST_CFG takes LAYOUT where A[31:2] is 0 and BADFMT otherwise. -/
def wrcrWrites (sx : BitVec 9) (a : Word) : List Wr :=
  if sx = 0 then [.w1c (a.extractLsb' 0 9)]
  else if a.extractLsb' 2 30 = 0 then [.layout (a.extractLsb' 0 2)]
  else [.sticky BADFMT]

/-- The write of WRTM (R176). -/
def wrtmWrites (sx : BitVec 9) (a : Word) : List Wr :=
  if sx.extractLsb' 6 2 = 0 then [.teo (selTile sx) (a.extractLsb' 0 8)]
  else if sx.extractLsb' 6 2 = 1 then [.cx (selTile sx) (a.extractLsb' 0 32)]
  else [.cw (selTile sx) (a.extractLsb' 0 32)]

/-- What a scalar operation writes, from registers read in its issue cycle (R137, R174). -/
def Core.scalarWrites (c : Core) : ScalarOp → List Wr
  | .alu f sd sa b => [.sreg sd (f.eval (c.sreg sa) (c.ssrc b))]
  | .movi sd v => [.sreg sd (v.signExtend 64)]
  | .movhi sd sa v => [.sreg sd (v ++ (c.sreg sa).extractLsb' 0 32)]
  | .sel sd sa sb v => [.sreg sd (if c.sreg sa ≠ 0 then c.sreg sb else v.signExtend 64)]
  | .mul f sd sa sb => [.sreg sd (f.eval (c.sreg sa) (c.sreg sb))]
  | .rdcr sd sx => [.sreg sd (c.readCr sx)]
  | .wrcr sa sx => wrcrWrites sx (c.sreg sa)
  | .rdtm sd sx => [.sreg sd (c.readTm sx)]
  | .wrtm sa sx => wrtmWrites sx (c.sreg sa)

/-- The latency of a scalar operation (R138, R174). -/
def ScalarOp.lat : ScalarOp → Nat
  | .alu _ _ _ _ => 1
  | .movi _ _ => 1
  | .movhi _ _ _ => 1
  | .sel _ _ _ _ => 1
  | .mul _ _ _ _ => 4
  | .rdcr _ _ => 2
  | .wrcr _ _ => 2
  | .rdtm _ _ => 2
  | .wrtm _ _ => 2

/-- A scalar operation started in the current cycle; an encoding that is not listed makes a bad bundle (R157, R166). -/
def Core.startScalar (c : Core) (o : ScalarOp) : Core :=
  if o.listed then c.start .scalar o.lat (.writes (c.scalarWrites o)) else c.badBundle

end Sys2Proof.Machine
end

