-- ==== Sys2Proof/Machine/Operands.lean ====
section
/-! DEFINITION. Operand forms of the slots: addresses of the load, store and vector slots, their alignment and their check
(R169-R171), and the operands of a matrix descriptor (R63-R66, R74, R75). -/

namespace Sys2Proof.Machine

/-- Base register plus signed offset, mod 2^48 (R169). -/
def slotAddr {n : Nat} (base : Word) (off : BitVec n) : Nat :=
  (base.extractLsb' 0 48 + off.signExtend 48).toNat

/-- An address with the bits below its alignment cleared (R171). -/
def alignDown (a n : Nat) : Nat := a - a % n

/-- A vector access of 64 bytes or more is aligned to 64 bytes, a smaller access to its size (R171). -/
def accessAlign (n : Nat) : Nat := if 64 ≤ n then 64 else n

/-- Where an access of a core lies for the slots (R169, R170). -/
inductive Reach where
  | basin
  | cistern
  | far
  | unmapped
  deriving DecidableEq, Repr

/-- One byte of an access as the issuing core's slots reach it (R170). -/
def State.reachByte (s : State) (k : CoreId) (a : Nat) : Reach :=
  match s.place a with
  | .hbm => .far
  | .basin j _ => if j = k then .basin else .far
  | .cistern j _ => if j = k then .cistern else .far
  | _ => .unmapped

/-- An access of `n` bytes: every byte must be reachable and lie as the first one does (R169, R170). Accesses are aligned to
their size, so that only a 64-byte aligned vector access can span two places. -/
def State.reach (s : State) (k : CoreId) (a n : Nat) : Reach :=
  let r0 := s.reachByte k (a % 2 ^ 48)
  let r1 := s.reachByte k ((a + n - 1) % 2 ^ 48)
  if a + n ≤ 2 ^ 48 ∧ r0 = r1 then r0 else .unmapped

/-- The access is in the core's own Basin or Cistern. -/
def Reach.isLocal : Reach → Bool
  | .basin => true
  | .cistern => true
  | _ => false

/-! ### Vector-slot accesses -/

/-- The 1 KiB row of an MSRC operand (R171, R178). -/
def rowAddr (sa : Word) (off : BitVec 24) : Nat := alignDown (slotAddr sa off) 64

/-- The bytes a vector operation touches, as address and length, each aligned (R171, R184, R187); the address of `VPACE`'s
record is judged by R119 and not here. -/
def srcAccess : VSrc → Word → List (Nat × Nat)
  | .reg _, _ => []
  | .row _ off, sa => [(rowAddr sa off, 1024)]

/-- The register number of a memory row's base; register operands have none. -/
def srcBase : VSrc → Reg
  | .reg _ => 0
  | .row sa _ => sa

/-- Bytes of a packed vector of 256 elements. -/
def packedBytes (fmt : BitVec 4) : Nat := 256 * fmtBits fmt / 8

/-- Plane bytes of a conversion over `n` elements in lanes: 8 or 4 for blocks along the row, 256 or 128 for the other axis
(R184). [DEDUCED: log 22] -/
def planeLen (axis : BitVec 2) (n : Nat) : Nat := if axis = 0 then n / 32 else n

/-- A fine-plane address, aligned to its own size below 64 bytes (R171). [DEDUCED: log 22] -/
def planeAddr (sf : Word) (len : Nat) : Nat := alignDown (sf.extractLsb' 0 48).toNat (accessAlign len)

/-! ### Matrix descriptors -/

/-- `n` bits from bit `i` of a little-endian byte string read as a number. -/
def bitsAt (v : Nat) (i n : Nat) : Nat := (v >>> i) % 2 ^ n

/-- An operand sub-record of 192 bits (R64), and whether its reserved field is 0. -/
def readOperand (core : CoreId) (v : Nat) : Operand × Bool :=
  ({ core := core, base := bitsAt v 0 32, pitch := bitsAt v 32 32, fbase := bitsAt v 64 32, fpitch := bitsAt v 96 24,
     turned := bitsAt v 120 1 == 1, fs := FmtScale.ofWord (BitVec.ofNat 64 (bitsAt v 128 64)) },
   bitsAt v 121 7 == 0 && (FmtScale.ofWord (BitVec.ofNat 64 (bitsAt v 128 64))).rsvZero)

/-- The fields of a matrix operation descriptor (R63). -/
structure MxDesc where
  x : Operand
  w : Operand
  relayMask : BitVec 16
  pack : Nat
  nExt : Nat
  mExt : Nat
  k : Nat
  rsvZero : Bool
  xRsv : Bool
  wRsv : Bool
  deriving DecidableEq, Repr

def readDesc (core : CoreId) (v : Nat) : MxDesc :=
  let xo := readOperand core (bitsAt v 128 192)
  let wo := readOperand core (bitsAt v 320 192)
  { x := xo.1, w := wo.1, relayMask := BitVec.ofNat 16 (bitsAt v 64 16), pack := bitsAt v 39 4, nExt := bitsAt v 26 13,
    mExt := bitsAt v 17 9, k := bitsAt v 0 17, rsvZero := bitsAt v 43 21 == 0 && bitsAt v 80 48 == 0,
    xRsv := xo.2, wRsv := wo.2 }

/-- The fields of a pack entry (R74). -/
structure PackEnt where
  x : Operand
  w : Operand
  ext : Nat
  cols : Nat
  h : Nat
  k : Nat
  rsvZero : Bool
  deriving DecidableEq, Repr

def readPack (core : CoreId) (v : Nat) : PackEnt :=
  let xo := readOperand core (bitsAt v 64 192)
  let wo := readOperand core (bitsAt v 256 192)
  { x := xo.1, w := wo.1, ext := bitsAt v 41 9, cols := bitsAt v 32 9, h := bitsAt v 24 8, k := bitsAt v 0 17,
    rsvZero := xo.2 && wo.2 && bitsAt v 17 7 == 0 && bitsAt v 50 14 == 0 && bitsAt v 448 64 == 0 }

/-- A Basin holds 24 MiB (R27). -/
def basinSize : Nat := 0x1800000

/-- Bytes of `n` elements of a format along a stored row; a reserved format code has no element size, and its range is judged at 32 bits
an element. [DESIGN CHOICE: log 86] -/
def rowBytes (fmt : BitVec 4) (n : Nat) : Nat := (n * fmtBits fmt + 7) / 8

/-- An operand of `rows` by `cols` delivered elements keeps R64: BASE and PITCH are multiples of 64, BASE and, with a fine plane, FBASE
are offsets within the Basin, and every byte it reads lies within it. An operand of no element reads no byte. -/
def Operand.ok (o : Operand) (rows cols : Nat) : Bool :=
  let r := if o.turned then cols else rows
  let c := if o.turned then rows else cols
  o.base % 64 == 0 && o.pitch % 64 == 0 && decide (o.base < basinSize) && (!o.fs.finePlane || decide (o.fbase < basinSize)) &&
    (r == 0 || c == 0 ||
      (decide (o.base + (r - 1) * o.pitch + rowBytes o.fs.fmt c ≤ basinSize) &&
        (!o.fs.finePlane ||
          (if o.fs.blockAxis = 0 then
            decide (o.fbase + (r - 1) * o.fpitch + (c - 1) / 32 + 1 ≤ basinSize)
          else decide (o.fbase + (r - 1) / 32 * o.fpitch + c ≤ basinSize)))))

/-- An element of an operand as it enters the array: code x 2^f, exactly (R50, R59, R65, R66). `i`, `j` are the delivered row and
column. -/
def State.elem (s : State) (o : Operand) (i j : Nat) : FVal :=
  let si := if o.turned then j else i
  let sj := if o.turned then i else j
  let bits := fmtBits o.fs.fmt
  let base := basinBase o.core + o.base + si * o.pitch
  let code :=
    if bits = 4 then
      let b := (Memory.byte s.mem (base + sj / 2)).toNat
      if sj % 2 = 0 then b % 16 else b / 16
    else s.rdNat (base + sj * (bits / 8)) (bits / 8)
  let fine : Int :=
    if o.fs.finePlane then
      let off := if o.fs.blockAxis = 0 then si * o.fpitch + sj / 32 else si / 32 * o.fpitch + sj
      (Memory.byte s.mem (basinBase o.core + o.fbase + off)).toInt
    else o.fs.fineConst.toInt
  match fmtOf o.fs.fmt with
  | some f => (f.decode code).scale fine
  | none => .nan

/-! ### Cistern layouts (R83, R84) -/

/-- Tile width of a layout. -/
def tileWidth (l : BitVec 2) : Nat := if l.toNat < 2 then 256 else 128
/-- Bytes per element of a layout. -/
def elemBytes (l : BitVec 2) : Nat := if l.toNat % 2 = 0 then 4 else 3
/-- The element format of a layout. -/
def tileFmt (l : BitVec 2) : FFmt := if l.toNat % 2 = 0 then .a32 else .a24
/-- The slot size of a layout. -/
def slotSize (l : BitVec 2) : Nat := 128 * tileWidth l * elemBytes l
/-- Usable indices of a layout. -/
def usableTiles (l : BitVec 2) : Nat := if l = 0 then 32 else if l = 1 then 42 else 64

/-- The device address of a tile element (R84). -/
def tileAddr (core : CoreId) (l : BitVec 2) (tile row col : Nat) : Nat :=
  cisternBase core + tile * slotSize l + (row * tileWidth l + col) * elemBytes l

/-- `n` element codes of a tile row. -/
def State.tileRow (s : State) (core : CoreId) (l : BitVec 2) (tile row n : Nat) : List Nat :=
  (List.range n).map fun c => s.rdNat (tileAddr core l tile row c) (elemBytes l)

end Sys2Proof.Machine
end

