-- ==== Sys2Proof/Machine/Vector.lean ====
section
/-! DEFINITION. The vector slot (R178-R188): lane operations, reductions, conversions, the Pacer and the tailwater update, and the
start of an operation at a core's current program cycle. -/

namespace Sys2Proof.Machine

/-! ### Lane arithmetic (R180, R181) -/

/-- a before b, with -0 below +0; neither NaN. -/
def FVal.ltZ (a b : FVal) : Bool := a.lt b || (a.isZero && b.isZero && a.isNeg && !b.isNeg)

/-- A two-operand lane function on exact values. -/
def BinFn.onVal (f : BinFn) (a b : FVal) : FVal :=
  match f with
  | .add => a.add b
  | .sub => a.sub b
  | .mul => a.mul b
  | .min => if a.isNan || b.isNan then .nan else if b.ltZ a then b else a
  | .max => if a.isNan || b.isNan then .nan else if a.ltZ b then b else a
  | .maxmag =>
    if a.isNan && b.isNan then .nan
    else if a.isNan then b.abs
    else if b.isNan then a.abs
    else maxMag a.abs b.abs

/-- A two-operand lane function on I32 lanes; it wraps (R180). -/
def BinFn.onInt (f : BinFn) (a b : Lane) : Lane :=
  match f with
  | .add => a + b
  | .sub => a - b
  | .mul => a * b
  | .min => if b.slt a then b else a
  | .max => if a.slt b then b else a
  | .maxmag => 0

/-- The two G16 halves of a lane (R179). -/
def lo16 (x : Lane) : BitVec 16 := x.extractLsb' 0 16
def hi16 (x : Lane) : BitVec 16 := x.extractLsb' 16 16

/-- A function of values applied to a lane of A32, or to both halves of a lane of G16. -/
def onLane1 (fmt : BitVec 4) (f : FVal → FVal) (a : Lane) : Lane :=
  if fmt = 3 then toG16 (f (g16Val (hi16 a))) ++ toG16 (f (g16Val (lo16 a)))
  else toA32 (f (a32Val a))

def onLane2 (fmt : BitVec 4) (f : FVal → FVal → FVal) (a b : Lane) : Lane :=
  if fmt = 3 then
    toG16 (f (g16Val (hi16 a)) (g16Val (hi16 b))) ++ toG16 (f (g16Val (lo16 a)) (g16Val (lo16 b)))
  else toA32 (f (a32Val a) (a32Val b))

/-- One lane of a two-operand lane operation. -/
def BinFn.lane (f : BinFn) (fmt : BitVec 4) (a b : Lane) : Lane :=
  if fmt = 7 then f.onInt a b else onLane2 fmt f.onVal a b

/-- A comparison of values (R182). -/
def cmpVal (cc : BitVec 3) (a b : FVal) : Bool :=
  if cc = 0 then a.eqv b
  else if cc = 1 then !a.eqv b
  else if cc = 2 then a.lt b
  else if cc = 3 then a.le b
  else if cc = 4 then b.lt a
  else b.le a

/-- A comparison of signed integers (R182). -/
def cmpInt (cc : BitVec 3) (a b : Lane) : Bool :=
  if cc = 0 then a == b
  else if cc = 1 then a != b
  else if cc = 2 then a.slt b
  else if cc = 3 then !b.slt a
  else if cc = 4 then b.slt a
  else !a.slt b

/-- One lane of VCMP: all ones where the condition holds, per half for G16 (R181, R182). -/
def cmpLane (fmt : BitVec 4) (cc : BitVec 3) (a b : Lane) : Lane :=
  let ones (n : Nat) (p : Bool) : BitVec n := if p then BitVec.allOnes n else 0
  if fmt = 7 then ones 32 (cmpInt cc a b)
  else if fmt = 3 then
    ones 16 (cmpVal cc (g16Val (hi16 a)) (g16Val (hi16 b))) ++ ones 16 (cmpVal cc (g16Val (lo16 a)) (g16Val (lo16 b)))
  else ones 32 (cmpVal cc (a32Val a) (a32Val b))

/-- One lane of a bitwise operation. -/
def BitFn.lane (f : BitFn) (a b : Lane) : Lane :=
  match f with
  | .and => a &&& b
  | .or => a ||| b
  | .xor => a ^^^ b
  | .shl => a <<< (b.toNat % 32)
  | .shr => a >>> (b.toNat % 32)

/-! ### Reductions (R183) -/

/-- The elements of a register as values: 256 A32 lanes, or 512 G16 elements in ascending order (R179). -/
def elemsOf (fmt : BitVec 4) (v : VReg) : List FVal :=
  if fmt = 3 then v.toList.flatMap fun x => [g16Val (lo16 x), g16Val (hi16 x)] else v.toList.map a32Val

/-- The sum in ascending order, each step rounded to A32 (R183). -/
def sumA32 : List FVal → Lane
  | [] => 0
  | v :: vs => vs.foldl (fun s x => toA32 ((a32Val s).add x)) (toA32 v)

/-- The extreme of the non-NaN values, -0 below +0; none where every one is NaN. -/
def extreme (less : FVal → FVal → Bool) (vs : List FVal) : Option FVal :=
  vs.foldl (fun acc v =>
    if v.isNan then acc
    else match acc with
      | none => some v
      | some a => if less a v then some v else some a) none

/-- The scalar a reduction writes (Table: Vector reductions). -/
def RedFn.eval (f : RedFn) (fmt : BitVec 4) (v : VReg) : Word :=
  match f with
  | .sum =>
    if fmt = 7 then BitVec.ofInt 64 (v.toList.foldl (fun (z : Int) x => z + x.toInt) 0)
    else (sumA32 (elemsOf fmt v)).zeroExtend 64
  | .max =>
    if fmt = 7 then (v.toList.foldl (fun (m : Lane) x => if m.slt x then x else m) v[0]).signExtend 64
    else
      match extreme FVal.ltZ (elemsOf fmt v) with
      | some x => (toA32 x).zeroExtend 64
      | none => a32NaN.zeroExtend 64
  | .min =>
    if fmt = 7 then (v.toList.foldl (fun (m : Lane) x => if x.slt m then x else m) v[0]).signExtend 64
    else
      match extreme (fun a b => b.ltZ a) (elemsOf fmt v) with
      | some x => (toA32 x).zeroExtend 64
      | none => a32NaN.zeroExtend 64
  | .maxmag =>
    match blockMag (elemsOf fmt v) with
    | some x => (toA32 x).zeroExtend 64
    | none => 0

/-! ### Packing (R179) -/

/-- A function applied lane by lane. -/
def lanes1 (f : Lane → Lane) (a : VReg) : VReg := mkV (a.toList.map f)
def lanes2 (f : Lane → Lane → Lane) (a b : VReg) : VReg := mkV (List.zipWith f a.toList b.toList)

/-- Codes of a width packed from bit 0 on. -/
def packNat (bits : Nat) : List Nat → Nat
  | [] => 0
  | c :: cs => c % 2 ^ bits + (packNat bits cs) <<< bits

/-- Packed codes as a vector register, every lane above them 0. -/
def packV (bits : Nat) (codes : List Nat) : VReg :=
  let n := packNat bits codes
  genV fun i => BitVec.ofNat 32 (n >>> (32 * i))

/-- `n` codes of a width from bytes. -/
def unpack (bits : Nat) (bs : List Byte) (n : Nat) : List Nat :=
  let v := leNat bs
  (List.range n).map fun i => bitsAt v (bits * i) bits

/-! ### Conversions (R184-R186) -/

/-- The record is one that a scaled conversion takes: formats 0x0-0x3 (R46, R47, R185). -/
def FmtScale.okScaled (r : FmtScale) : Bool := r.scaled && r.good

/-- AUTO takes a destination with a fine plane, blocks along the row (R52, R185). -/
def FmtScale.okAuto (r : FmtScale) : Bool := r.okScaled && r.finePlane && r.blockAxis == 0

/-- The record of VFEXP: a scaled format with a fine plane, either axis (R185). -/
def FmtScale.okFexp (r : FmtScale) : Bool := r.okScaled && r.finePlane

/-- The record of VOUT: A32 or A24, or as a conversion takes it (R186). -/
def FmtScale.okOut (r : FmtScale) (auto : Bool) : Bool :=
  if r.fmt = 4 ∨ r.fmt = 5 then r.rsvZero
  else if auto then r.okAuto else r.okScaled

/-- The fine exponent of lane `i` in GIVEN mode: its plane byte, or FINE_CONST (R52, R184). -/
def givenFine (r : FmtScale) (plane : List Byte) (i : Nat) : Int :=
  if r.finePlane then (plane.getD (if r.blockAxis = 0 then i / 32 else i) 0).toInt else r.fineConst.toInt

/-- The values of lanes 32j to 32j + 31. -/
def laneBlock (vs : List FVal) (j : Nat) : List FVal := (vs.drop (32 * j)).take 32

/-- The fine exponents AUTO chooses, one per block of 32 lanes (R52). -/
def autoFines (f : FFmt) (r : FmtScale) (vs : List FVal) : List Int :=
  (List.range ((vs.length + 31) / 32)).map fun j => autoFine f (coarseVal r.coarse) (blockMag (laneBlock vs j))

/-- Fine exponents as plane bytes. -/
def fineBytes (fs : List Int) : List Byte := fs.map fun z => BitVec.ofInt 8 z

/-- Codes of values under fine exponents by lane, and how many count (R51, R55). -/
def encodeAll (f : FFmt) (r : FmtScale) (fine : Nat → Int) (vs : List FVal) : List Nat × Nat :=
  let l := (List.range vs.length).map fun i => encodeScaled f (vs.getD i .nan) (fine i) (coarseVal r.coarse)
  (l.map (·.1), (l.filter (·.2)).length)

/-- The count of an operation added to its register, where it names one (R55). -/
def cntWr : Option Reg → Nat → List Wr
  | some r, n => [.count r n]
  | none, _ => []

/-- The conversion of values into packed codes: register, plane bytes in AUTO mode, count (R185). -/
def convWrites (r : FmtScale) (vs : List FVal) (auto : Bool) (plane : List Byte) (sf : Word) (vd : Reg)
    (cnt : Option Reg) : List Wr :=
  match fmtOf r.fmt with
  | none => [.sticky BADFMT]
  | some f =>
    -- G8W and G16 count nothing (R55)
    let cnt := if r.fmt.toNat < 2 then cnt else none
    if auto then
      let fs := autoFines f r vs
      let (codes, n) := encodeAll f r (fun i => fs.getD (i / 32) 0) vs
      [.vreg vd (packV (fmtBits r.fmt) codes), .mem (planeAddr sf (planeLen 0 vs.length)) (fineBytes fs)] ++ cntWr cnt n
    else
      let (codes, n) := encodeAll f r (givenFine r plane) vs
      .vreg vd (packV (fmtBits r.fmt) codes) :: cntWr cnt n

/-! ### Pacer (R113-R121) -/

/-- ceil(log2 m) for m at least 2^-126, else -126 (R118). -/
def ceilLog2 (v : FVal) : Int :=
  match v with
  | .fin _ m e =>
    if m = 0 then -126
    else
      let l := m.log2
      let z : Int := if m = 2 ^ l then e + (l : Int) else e + (l : Int) + 1
      if e + (l : Int) < -126 then -126 else z
  | _ => -126

/-- M and k_min (Table: Pacer format constants). -/
def paceConst (fmt : Nat) : Nat × Int :=
  if fmt = 0 then (6, -123) else if fmt = 1 then (448, -117) else (57344, -110)

/-- SCALE = RNE(2^k / M), k = clamp(E + h, k_min, 127) (R118). -/
def paceScale (mest : Lane) (head fmt : Nat) : Lane :=
  let (m, kmin) := paceConst fmt
  let k := min (max (ceilLog2 (a32Val mest) + (head : Int)) kmin) 127
  toA32 ((FVal.fin false 1 k).div (.fin false m 0))

/-- The decay constant D (R116). -/
def paceDecay : Lane := 0x3F75257D

/-- The 128 bits of a Pacer record from its fields (R113). -/
def paceRecord (scale mest : Lane) (fmt clean head : Nat) (lastevt seen : Bool) : BitVec 128 :=
  scale ++ (mest ++ BitVec.ofNat 64 (fmt <<< 32 + clean <<< 20 + head <<< 16 + (if lastevt then 2 else 0) + (if seen then 1 else 0)))

/-- VPACE on a record read as a number: the new record, or none where R119 rejects it. `mag` is the measured magnitude as
read, `cnt` the count (R115-R121). [DESIGN CHOICE: log 99] -/
def paceUpdate (first : Bool) (rec : Nat) (mag : Lane) (cnt : Word) : Option (BitVec 128) :=
  let scale : Lane := BitVec.ofNat 32 (bitsAt rec 96 32)
  let mest : Lane := BitVec.ofNat 32 (bitsAt rec 64 32)
  let fmt := bitsAt rec 32 4
  let clean := bitsAt rec 20 6
  let head := bitsAt rec 16 3
  let seen := bitsAt rec 0 1 == 1
  let rsv := bitsAt rec 36 28 == 0 && bitsAt rec 26 6 == 0 && bitsAt rec 19 1 == 0 && bitsAt rec 2 14 == 0
  let mestBad := mest.getLsbD 31 || bitsAt mest.toNat 23 8 == 255
  if fmt > 2 ∨ head > 4 ∨ rsv = false ∨ (first = false ∧ (mestBad ∨ seen = false)) then none
  else
    let a : FVal := if (a32Val mag).isNan then .fin false 0 0 else (a32Val mag).abs
    if first then
      let m' : Lane := if a.isInf then 0x7F7FFFFF else toA32 a
      some (paceRecord (paceScale m' head fmt) m' fmt 0 head false true)
    else
      let evt := cnt != 0 || (fmt == 2 && !a.lt ((FVal.fin false 61440 0).mul (a32Val scale)))
      let head' := if evt then min (head + 1) 4 else if clean + 1 = 64 then head - 1 else head
      let clean' := if evt then 0 else if clean + 1 = 64 then 0 else clean + 1
      let dec := (a32Val mest).mul (a32Val paceDecay)
      let m' : Lane := if a.isInf then mest else toA32 (maxMag (a32Val (toA32 dec)) a)
      some (paceRecord (paceScale m' head' fmt) m' fmt clean' head' evt true)

/-! ### Operations -/

/-- The lane format of an operation is a reserved code (R34, R167). -/
def VecOp.fmtBad : VecOp → Bool
  | .bin _ fmt _ _ _ => fmtReserved fmt
  | .un _ fmt _ _ => fmtReserved fmt
  | .cmp fmt _ _ _ _ => fmtReserved fmt
  | .div fmt _ _ _ => fmtReserved fmt
  | .sqrt fmt _ _ => fmtReserved fmt
  | .red _ fmt _ _ => fmtReserved fmt
  | _ => false

/-- The register operands of a vector operation (R137, R178). -/
def Core.vecCaps (c : Core) : VecOp → VecCaps
  | .bin _ _ _ va b => caps c va (vb b) 0 (srcBase b) 0 0 0
  | .un _ _ _ va => caps c va 0 0 0 0 0 0
  | .mov _ va => caps c va 0 0 0 0 0 0
  | .cmp _ _ _ va b => caps c va (vb b) 0 (srcBase b) 0 0 0
  | .sel _ va vc b => caps c va (vb b) vc (srcBase b) 0 0 0
  | .bit _ _ va b => caps c va (vb b) 0 (srcBase b) 0 0 0
  | .bcast _ sa => caps c 0 0 0 sa 0 0 0
  | .iota _ sa => caps c 0 0 0 sa 0 0 0
  | .perm _ va v2 => caps c va v2 0 0 0 0 0
  | .div _ _ va v2 => caps c va v2 0 0 0 0 0
  | .sqrt _ _ va => caps c va 0 0 0 0 0 0
  | .red _ _ _ va => caps c va 0 0 0 0 0 0
  | .wid _ _ va => caps c va 0 0 0 0 0 0
  | .nar _ va v2 => caps c va v2 0 0 0 0 0
  | .enc _ va ss sf _ _ => caps c va 0 0 0 ss sf 0
  | .dec _ ss sf sa _ => caps c 0 0 0 sa ss sf 0
  | .fexp va ss sf => caps c va 0 0 0 ss sf 0
  | .out _ ss sf _ _ _ _ => caps c 0 0 0 0 ss sf 0
  | .pace _ ss scnt sa _ => caps c 0 0 0 sa ss 0 scnt
  | .tail _ va v2 vc _ => caps c va v2 vc 0 0 0 0
where
  vb : VSrc → Reg
    | .reg r => r
    | .row _ _ => 0
  caps (c : Core) (va vb vc sa ss sf scnt : Reg) : VecCaps :=
    ⟨c.vreg va, c.vreg vb, c.vreg vc, c.sreg sa, c.sreg ss, c.sreg sf, c.sreg scnt⟩

/-- The record an SS register holds. -/
def VecCaps.record (p : VecCaps) : FmtScale := FmtScale.ofWord p.ss

/-- The bytes an operation reads from memory: address and length (R137, R171). An operation that is rejected for its format code or
record reads none, and no address of it is checked. `w` is the tile width of the layout. [DESIGN CHOICE: log 87] -/
def VecOp.reads (o : VecOp) (p : VecCaps) (w : Nat) : List (Nat × Nat) :=
  let plane (r : FmtScale) (n : Nat) : List (Nat × Nat) :=
    if r.finePlane then [(planeAddr p.sf (planeLen r.blockAxis n), planeLen r.blockAxis n)] else []
  match o with
  | .bin _ _ _ _ b => if o.fmtBad then [] else srcAccess b p.sa
  | .cmp _ _ _ _ b => if o.fmtBad then [] else srcAccess b p.sa
  | .sel _ _ _ b => srcAccess b p.sa
  | .bit _ _ _ b => srcAccess b p.sa
  | .enc _ _ _ _ auto _ => if !auto && p.record.okScaled then plane p.record 256 else []
  | .dec _ _ _ _ off =>
    if p.record.okScaled then
      (alignDown (slotAddr p.sa off) 64, packedBytes p.record.fmt) :: plane p.record 256
    else []
  | .out _ _ _ _ _ auto _ => if !auto && p.record.okScaled then plane p.record w else []
  | _ => []

/-- The bytes an operation writes to memory at its landing, but for those of VPACE (R184, R185). -/
def VecOp.stores (o : VecOp) (p : VecCaps) (w : Nat) : List (Nat × Nat) :=
  match o with
  | .enc _ _ _ _ auto _ => if auto && p.record.okAuto then [(planeAddr p.sf 8, 8)] else []
  | .out _ _ _ _ _ auto _ => if auto && p.record.okAuto then [(planeAddr p.sf (w / 32), w / 32)] else []
  | .fexp _ _ _ =>
    if p.record.okFexp then
      [(planeAddr p.sf (planeLen p.record.blockAxis 256), planeLen p.record.blockAxis 256)]
    else []
  | _ => []

/-- The operation reads memory or tiles in cycle c + 2 (R137). A GIVEN conversion under a record with a fine plane lands as one that reads
it, its record valid or not (R167, R184). -/
def VecOp.late (o : VecOp) (p : VecCaps) : Bool :=
  match o with
  | .out _ _ _ _ _ _ _ => true
  | .pace _ _ _ _ _ => true
  | .enc _ _ _ _ auto _ => !auto && p.record.finePlane
  | o => !(o.reads p 256).isEmpty

/-- The latency of a vector operation (R138, R181-R188). -/
def VecOp.lat (o : VecOp) (p : VecCaps) : Nat :=
  match o with
  | .bin _ _ _ _ (.row _ _) => 8
  | .bin _ _ _ _ (.reg _) => 4
  | .un _ _ _ _ => 4
  | .mov _ _ => 4
  | .cmp _ _ _ _ (.row _ _) => 8
  | .cmp _ _ _ _ (.reg _) => 4
  | .sel _ _ _ (.row _ _) => 8
  | .sel _ _ _ (.reg _) => 4
  | .bit _ _ _ (.row _ _) => 8
  | .bit _ _ _ (.reg _) => 4
  | .bcast _ _ => 4
  | .iota _ _ => 4
  | .perm _ _ _ => 4
  | .div _ _ _ _ => 16
  | .sqrt _ _ _ => 16
  | .red _ _ _ _ => 12
  | .wid _ _ _ => 6
  | .nar _ _ _ => 6
  | .enc _ _ _ _ _ _ => if o.late p then 8 else 6
  | .dec _ _ _ _ _ => 8
  | .fexp _ _ _ => 6
  | .out _ _ _ _ _ _ _ => 8
  | .pace _ _ _ _ _ => 10
  | .tail _ _ _ _ _ => 10

/-- Bytes that an operation of the vector slot reads; an unmapped operation reads none, and gets zeros (R28, R503). [DEDUCED:
log 27] -/
def State.rdLive (s : State) (dead : Bool) (a n : Nat) : List Byte := if dead then List.replicate n 0 else s.rd a n

/-- The second operand of a lane operation, by lane; a row of +0 for an unmapped operation (R503). -/
def State.vecB (s : State) (dead : Bool) (p : VecCaps) : VSrc → VReg
  | .reg _ => p.vb
  | .row _ off =>
    let n := leNat (s.rdLive dead (rowAddr p.sa off) 1024)
    genV fun i => BitVec.ofNat 32 (n >>> (32 * i))

/-- The plane bytes that a conversion over `n` elements reads in GIVEN mode. [DEDUCED: log 22] -/
def State.planeRead (s : State) (dead : Bool) (p : VecCaps) (n : Nat) : List Byte :=
  let r := p.record
  if r.finePlane then s.rdLive dead (planeAddr p.sf (planeLen r.blockAxis n)) (planeLen r.blockAxis n) else []

/-- What VOUT writes: row `TROW` of a tile under the tile's metadata, all as they stand in its read cycle (R101, R186); an unmapped
VOUT reads no byte of the tile (R503). [DEDUCED: log 22, 27] -/
def State.outWrites (s : State) (k : CoreId) (dead : Bool) (vd : Reg) (tile : BitVec 6) (trow : BitVec 7) (auto : Bool)
    (cnt : Option Reg) (p : VecCaps) : List Wr :=
  let a := (s.core k).arch
  let l := a.layout
  let r := p.record
  if usableTiles l ≤ tile.toNat ∨ r.okOut auto = false then [.sticky BADFMT]
  else
    let m := a.tiles[tile.toNat]'(tile.isLt)
    let codes := if dead then List.replicate (tileWidth l) 0 else s.tileRow k l tile.toNat trow.toNat (tileWidth l)
    let vs := codes.map fun code =>
      ((((tileFmt l).decode code).scale (-m.teo.toInt)).mul (coarseVal m.cx)).mul (coarseVal m.cw)
    if r.fmt = 5 then [.vreg vd (mkV (vs.map toA32))]
    else if r.fmt = 4 then [.vreg vd (packV 24 (vs.map fun v => (FFmt.a24.encode v).1))]
    else convWrites r vs auto (s.planeRead dead p (tileWidth l)) p.sf vd cnt

/-- What a vector operation writes at its landing, from its captured registers and from memory as it stands now. `dead`: an access of it is
unmapped (R503). -/
def State.vecWrites (s : State) (k : CoreId) (dead : Bool) (o : VecOp) (p : VecCaps) : List Wr :=
  if o.fmtBad then [.sticky BADFMT]
  else
    match o with
    | .bin f fmt vd _ b => [.vreg vd (lanes2 (f.lane fmt) p.va (s.vecB dead p b))]
    | .un n fmt vd _ => [.vreg vd (lanes1 (onLane1 fmt fun v => if n then v.neg else v.abs) p.va)]
    | .mov vd _ => [.vreg vd p.va]
    | .cmp fmt cc vd _ b => [.vreg vd (lanes2 (cmpLane fmt cc) p.va (s.vecB dead p b))]
    | .sel vd _ _ b =>
      [.vreg vd (mkV (List.zipWith (fun c (ab : Lane × Lane) => if c ≠ 0 then ab.1 else ab.2) p.vc.toList
        (p.va.toList.zip (s.vecB dead p b).toList)))]
    | .bit f vd _ b => [.vreg vd (lanes2 f.lane p.va (s.vecB dead p b))]
    | .bcast vd _ => [.vreg vd (genV fun _ => p.sa.extractLsb' 0 32)]
    | .iota vd _ => [.vreg vd (genV fun i => p.sa.extractLsb' 0 32 + BitVec.ofNat 32 i)]
    | .perm vd _ _ => [.vreg vd (lanes1 (fun x => p.va.toList.getD (x.toNat % 256) 0) p.vb)]
    | .div _ vd _ _ => [.vreg vd (lanes2 (onLane2 5 FVal.div) p.va p.vb)]
    | .sqrt _ vd _ => [.vreg vd (lanes1 (onLane1 5 FVal.sqrt) p.va)]
    | .red f fmt sa _ => [.sreg sa (f.eval fmt p.va)]
    | .wid h vd _ =>
      let half := if h then p.va.toList.drop 128 else p.va.toList.take 128
      [.vreg vd (mkV (half.flatMap fun x => [widen16 (lo16 x), widen16 (hi16 x)]))]
    | .nar vd _ _ =>
      [.vreg vd (packV 16 ((p.va.toList ++ p.vb.toList).map fun x => (toG16 (a32Val x)).toNat))]
    | .enc vd _ _ _ auto cnt =>
      if (if auto then p.record.okAuto else p.record.okScaled) then
        convWrites p.record (p.va.toList.map a32Val) auto (s.planeRead dead p 256) p.sf vd cnt
      else [.sticky BADFMT]
    | .dec vd _ _ _ off =>
      if p.record.okScaled then
        match fmtOf p.record.fmt with
        | none => [.sticky BADFMT]
        | some f =>
          let codes := unpack (fmtBits p.record.fmt)
            (s.rdLive dead (alignDown (slotAddr p.sa off) 64) (packedBytes p.record.fmt)) 256
          let plane := s.planeRead dead p 256
          [.vreg vd (genV fun i => decodeScaled f (codes.getD i 0) (givenFine p.record plane i) (coarseVal p.record.coarse))]
      else [.sticky BADFMT]
    | .fexp _ _ _ =>
      if p.record.okFexp then
        match fmtOf p.record.fmt with
        | none => [.sticky BADFMT]
        | some f =>
          let vs := p.va.toList.map a32Val
          let fs :=
            if p.record.blockAxis = 0 then autoFines f p.record vs
            else vs.map fun v => autoFine f (coarseVal p.record.coarse) (blockMag [v])
          [.mem (planeAddr p.sf fs.length) (fineBytes fs)]
      else [.sticky BADFMT]
    | .out vd _ _ tile trow auto cnt => s.outWrites k dead vd tile trow auto cnt p
    | .pace first _ scnt _ off =>
      let a := slotAddr p.sa off
      if a % 16 ≠ 0 ∨ s.reach k a 16 ≠ .basin then [.sticky BADFMT]
      else
        match paceUpdate first (s.rdNat a 16) (p.ss.extractLsb' 0 32) p.scnt with
        | none => [.sticky BADFMT]
        | some r => [.mem a (natLe 16 r.toNat), .sreg scnt 0]
    | .tail vd _ _ _ cnt =>
      let wn := packNat 32 (p.vb.toList.map BitVec.toNat)
      let tn := packNat 32 (p.vc.toList.map BitVec.toNat)
      let es := (List.range 256).map fun j =>
        tailUpdate (BitVec.ofNat 16 (bitsAt wn (16 * j) 16)) (BitVec.ofNat 8 (bitsAt tn (8 * j) 8)) (p.va.toList.getD j 0)
      [.vreg vd (packV 16 (es.map fun e => e.1.toNat)), .vreg (vd + 1) (packV 8 (es.map fun e => e.2.1.toNat))] ++
        cntWr cnt (es.filter fun e => e.2.2).length

/-- Writes to memory dropped: an unmapped operation writes no memory byte (R503). -/
def dropMem (ws : List Wr) : List Wr := ws.filter fun w => match w with
  | .mem _ _ => false
  | _ => true

/-- An unmapped access by a slot of core k: UNMAP, stop cause 0x06, the first address kept for the record (R503). -/
def Core.unmappedStop (c : Core) (a : Nat) : Core :=
  let c := (c.stopSeq 0x06).flag UNMAP
  { c with launch := c.launch.map fun l => { l with unmapped := some (l.unmapped.getD (BitVec.ofNat 48 a)) } }

/-- The first byte of an access that its slot cannot reach (R28, R170). [DEDUCED: log 27] -/
def State.firstOut (s : State) (k : CoreId) (ok : Reach → Bool) (a n : Nat) : Nat :=
  match (List.range n).find? fun i => !ok (s.reachByte k ((a + i) % 2 ^ 48)) with
  | some i => (a + i) % 2 ^ 48
  | none => a

/-- The first byte that is not local to the core's vector slot, over the accesses of a list (R170). [DEDUCED: log 27] -/
def State.firstBad (s : State) (k : CoreId) (l : List (Nat × Nat)) : Option Nat :=
  (l.find? fun a => !(s.reach k a.1 a.2).isLocal).map fun a => s.firstOut k Reach.isLocal a.1 a.2

/-- What a vector operation writes at its landing, but for the memory bytes of an unmapped one (R503). -/
def State.vecLands (s : State) (k : CoreId) (o : VecOp) (p : VecCaps) (dead : Bool) : List Wr :=
  let ws := s.vecWrites k dead o p
  if dead then dropMem ws else ws

/-- A vector operation started in the current cycle of core k (R137, R167, R170, R503). -/
def State.startVector (s : State) (k : CoreId) (o : VecOp) : State :=
  let c := s.core k
  if o.listed = false then s.updCore k Core.badBundle
  else
    let p := c.vecCaps o
    let w := tileWidth c.arch.layout
    let bad := s.firstBad k (o.reads p w ++ o.stores p w)
    let body : OpBody := if o.late p then .read (.vec o p bad.isSome) else .writes (s.vecLands k o p bad.isSome)
    let s := s.updCore k fun c => c.start .vector (o.lat p) body
    match bad with
    | some a => s.updCore k fun c => c.unmappedStop a
    | none => s

end Sys2Proof.Machine
end

