-- ==== Sys2Proof/Machine/LoadStore.lean ====
section
/-! DEFINITION. The load and store slots (R169-R172, R191, R192): local accesses with a landing cycle, far accesses handed to the
core's queue, unmapped accesses. -/

namespace Sys2Proof.Machine

/-- Bytes a load moves (R191). -/
def LoadOp.len (o : LoadOp) : Nat :=
  match o.f with
  | .b => 1 | .h => 2 | .w => 4 | .d => 8
  | .v => 32 * 2 ^ o.size.toNat
  | .vw => 24 * 2 ^ o.size.toNat

/-- Bytes a store moves (R191). -/
def StoreOp.len (o : StoreOp) : Nat :=
  match o.f with
  | .b => 1 | .h => 2 | .w => 4 | .d => 8
  | .v => 32 * 2 ^ o.size.toNat

/-- The load fills a vector register. -/
def LoadFn.isVec : LoadFn → Bool
  | .v => true
  | .vw => true
  | _ => false

/-- A scalar load cannot reach the core's own Cistern (R170). -/
def loadReach (f : LoadFn) : Reach → Reach
  | .cistern => if f.isVec then .cistern else .unmapped
  | r => r

/-- What a load's bytes write (R191): zero-extended scalars, lanes, or A24 elements widened. -/
def loadWr (f : LoadFn) (dst : Reg) (bs : List Byte) : Wr :=
  match f with
  | .v => .vreg dst (packV 8 (bs.map BitVec.toNat))
  | .vw => .vreg dst (mkV ((unpack 24 bs (bs.length / 3)).map fun c => widen24 (BitVec.ofNat 24 c)))
  | _ => .sreg dst (BitVec.ofNat 64 (leNat bs))

/-- The bytes a store takes from its source register (R191). -/
def Core.storeBytes (c : Core) (o : StoreOp) : List Byte :=
  match o.f with
  | .v => (((c.vreg o.dst).toList.take (o.len / 4)).flatMap fun x => natLe 4 x.toNat)
  | _ => natLe o.len (c.sreg o.dst).toNat

/-- A load's address (R169, R171). -/
def Core.loadAddr (c : Core) (o : LoadOp) : Nat := alignDown (slotAddr (c.sreg o.areg) o.off) (accessAlign o.len)

/-- A store's address (R169, R171). -/
def Core.storeAddr (c : Core) (o : StoreOp) : Nat := alignDown (slotAddr (c.sreg o.areg) o.off) (accessAlign o.len)

/-- The far accesses a bundle's load and store slots hold (R172). -/
def State.farCount (s : State) (k : CoreId) (ld : Option LoadOp) (st : Option StoreOp) : Nat :=
  let c := s.core k
  (match ld with
   | some o => if s.reach k (c.loadAddr o) o.len = .far then 1 else 0
   | none => 0) +
  (match st with
   | some o => if s.reach k (c.storeAddr o) o.len = .far then 1 else 0
   | none => 0)

/-- The latency of a local load (R138, R191); an unmapped load lands as a Basin load does (R503). -/
def loadLat (f : LoadFn) (r : Reach) : Nat :=
  if f.isVec then (if r = .cistern then 10 else 8) else 6

/-- A far access started in the current cycle of core k: its address and source registers are read now (R172). -/
def State.startFar (s : State) (k : CoreId) (o : FarOp) : State :=
  s.updCore k fun c =>
    { c with far := c.far ++ [match o with
        | .load o => ⟨false, o.f, o.dst, c.loadAddr o, o.len, o.ctr, [], [], [], none, c.arch.seq.pc, c.now⟩
        | .store o => ⟨true, .b, o.dst, c.storeAddr o, o.len, o.ctr, c.storeBytes o, [], [], none, c.arch.seq.pc, c.now⟩] }

/-- A far access met: with 32 outstanding, or others waiting, it waits for a place (R172). -/
def State.meetFar (s : State) (k : CoreId) (o : FarOp) : State :=
  let c := s.core k
  if 32 ≤ c.far.length ∨ c.farWait.isEmpty = false then s.updCore k fun c => { c with farWait := c.farWait ++ [o] }
  else s.startFar k o

/-- The oldest waiting far access starts once a place is free (R172). -/
def State.startWaiting (s : State) (k : CoreId) : State :=
  match (s.core k).farWait with
  | [] => s
  | o :: l => if (s.core k).far.length < 32 then (s.updCore k fun c => { c with farWait := l }).startFar k o else s

/-- A load started in the current cycle of core k. -/
def State.startLoad (s : State) (k : CoreId) (o : LoadOp) : State :=
  if o.listed = false then s.updCore k Core.badBundle
  else
    let c := s.core k
    let a := c.loadAddr o
    match loadReach o.f (s.reach k a o.len) with
    | .far => s.meetFar k (.load o)
    | .unmapped =>
      s.updCore k fun c =>
        (c.start .load (loadLat o.f .unmapped) (.read (.load o.f o.dst a o.len))).unmappedStop
          (s.firstOut k (fun r => loadReach o.f r != .unmapped) a o.len)
    | r => s.updCore k fun c => c.start .load (loadLat o.f r) (.read (.load o.f o.dst a o.len))

/-- A store started in the current cycle of core k: its source register is read now (R172, R191). -/
def State.startStore (s : State) (k : CoreId) (o : StoreOp) : State :=
  if o.listed = false then s.updCore k Core.badBundle
  else
    let c := s.core k
    let a := c.storeAddr o
    match s.reach k a o.len with
    | .far => s.meetFar k (.store o)
    | .unmapped => s.updCore k fun c => c.unmappedStop (s.firstOut k (fun r => r != .unmapped) a o.len)
    | _ => s.updCore k fun c => c.start .store 3 (.writes [.mem a (c.storeBytes o)])

/-- The bytes a local load delivers; an unmapped load is not performed and delivers zeros (R28, R170, R503). [DEDUCED: log 27] -/
def State.loadBytes (s : State) (k : CoreId) (f : LoadFn) (a n : Nat) : List Byte :=
  if (loadReach f (s.reach k a n)).isLocal then s.rd a n else List.replicate n 0

/-- What a read two cycles after its issue delivers (R137). -/
def State.doRead (s : State) (k : CoreId) : MemRead → List Wr
  | .load f dst a n => [loadWr f dst (s.loadBytes k f a n)]
  | .vec o p dead => s.vecLands k o p dead

end Sys2Proof.Machine
end

