-- ==== Sys2Proof/Machine/Sync.lean ====
section
/-! DEFINITION. The sync slot (R193-R196): counter operations, watches and barrier arrivals as the issuing core starts and lands
them (R217-R224, R228). -/

namespace Sys2Proof.Machine

/-- A counter number below 48 as an index. -/
def ctrIdx (c : BitVec 6) : Fin 48 := ⟨c.toNat % 48, by omega⟩

/-- What a sync operation does at its landing; a CRD's counter and a CADD's register are read in the issue cycle (R194).
[DEDUCED: log 30] -/
def Core.syncWrites (c : Core) : SyncOp → List Wr
  | .cinc ctr imm => [.ctr (ctrIdx ctr) false imm]
  | .cset ctr imm => [.ctr (ctrIdx ctr) true imm]
  | .cadd ctr sreg => [.ctr (ctrIdx ctr) false ((c.sreg sreg).extractLsb' 0 16)]
  | .crd ctr sreg => [.sreg sreg ((c.arch.ctr ctr).zeroExtend 64)]
  | .cincr lcore ctr imm => [.remote lcore ctr imm]
  | .watch ws lcore ctr cond imm => [.watch ws lcore ctr cond imm]
  | .unwatch ws => [.unwatch ws]
  | .bar ws scope imm => [.bar ws scope imm]

/-- A sync operation started in the current cycle of core k; it lands two cycles later (R194). -/
def State.startSync (s : State) (k : CoreId) (o : SyncOp) : State :=
  if o.listed s.coreCount = false then s.updCore k Core.badBundle
  else s.updCore k fun c => c.start .sync 2 (.writes (c.syncWrites o))

/-- A registration placed with the Starter of the watched counter: it replaces the slot's earlier one there (R195, R224). -/
def Core.addWatcher (c : Core) (w : Watcher) : Core :=
  { c with watchers := (c.watchers.filter fun x => !(x.core == w.core && x.slot == w.slot)) ++ [w] }

/-- A WATCH lands: the slot is ARMED under a new tag (R221, R222). A watch on a counter of the own die is with its Starter at
once, and is judged from that counter's next cycle-end on (R223); one on another die travels there (R224). -/
def State.landWatch (s : State) (k : CoreId) (slot : Fin 16) (lcore : CoreId) (ctr : BitVec 6) (cond : BitVec 3)
    (imm : BitVec 16) : State :=
  let tag := (s.core k).nextTag
  let w : Watcher := ⟨k, slot, tag, ctr, cond, imm⟩
  let s := s.updCore k fun c =>
    { c with
      nextTag := tag + 1
      arch := { c.arch with watches := c.arch.watches.set slot.val ⟨.armed, 0, 0, lcore, ctr, cond, imm, tag, false⟩ } }
  if lcore = k then s.updCore k fun c => c.addWatcher w
  else if dieOf lcore = dieOf k then s.updCore lcore fun c => c.addWatcher w
  else { s with msgs := { s.msgs with regs := s.msgs.regs ++ [⟨lcore, w⟩] } }

/-- An UNWATCH lands: the slot is EMPTY (R221). [DESIGN CHOICE: log 105] -/
def CoreArch.landUnwatch (a : CoreArch) (slot : Fin 16) : CoreArch :=
  { a with watches := a.watches.set slot.val WatchRec.reset }

/-- The generation an arrival of core k would join, as the context stands: the next one where it has already arrived (R228,
R229). -/
def State.joinGen (s : State) (k : CoreId) (scope : BitVec 2) (ctx : BitVec 16) : BitVec 16 :=
  if scope = 2 then
    let f := s.fabs[ctx.toNat % 8]'(by omega)
    if f.arrived.getLsbD k.val then f.gen + 1 else f.gen
  else
    let b := (s.dies[dieOf k]).bars[ctx.toNat % 16]'(by omega)
    if b.arrived.getLsbD (localOf k).val then b.gen + 1 else b.gen

/-- A BAR lands: the slot is ARMED with the generation joined, and the arrival is on its way to its context (R221, R228). -/
def State.landBar (s : State) (k : CoreId) (slot : Fin 16) (scope : BitVec 2) (ctx : BitVec 16) : State :=
  let tag := (s.core k).nextTag
  let g := s.joinGen k scope ctx
  let s := s.updCore k fun c =>
    { c with
      nextTag := tag + 1
      arch := { c.arch with
        watches := c.arch.watches.set slot.val ⟨.armed, scope + 1, g, 0, 0, 0, ctx, tag, false⟩ } }
  { s with msgs := { s.msgs with arrs := s.msgs.arrs ++ [⟨k, slot, tag, scope, ctx⟩] } }

end Sys2Proof.Machine
end

