-- ==== Sys2Proof/Machine/Matrix.lean ====
section
/-! DEFINITION. The matrix array (R57-R109): judging an operation at issue, its schedule, the reads and row computations of a pass,
the check column, and what a replay recomputes. The sequencing by cycle is in Cycle. -/

namespace Sys2Proof.Machine

/-! ### Element values (R89, R92) -/

/-- The class of an entry code (R92). -/
def elemOfCode (f : FFmt) (c : Nat) : ElemSt :=
  match f.decode c with
  | .nan => .nan
  | .inf n => .inf n
  | .fin _ _ _ => .code c

/-- The stored code of a running value. [DESIGN CHOICE: log 97] -/
def ElemSt.toCode (f : FFmt) : ElemSt → Nat
  | .nan => f.nanCode
  | .inf n => f.withSign n (f.infCode.getD 0)
  | .ovf n => f.withSign n (f.infCode.getD 0)
  | .code c => c

/-- One step of an element: the exact product added with one rounding; an overflow keeps its sign until a NaN or an infinite
product decides the class (R89, R92, R96). -/
def elemStep (f : FFmt) (st : ElemSt) (p : FVal) : ElemSt :=
  match st, p with
  | .nan, _ => .nan
  | _, .nan => .nan
  | .inf a, .inf b => if a = b then .inf a else .nan
  | .inf a, .fin _ _ _ => .inf a
  | .ovf _, .inf b => .inf b
  | .ovf a, .fin _ _ _ => .ovf a
  | .code _, .inf b => .inf b
  | .code c, .fin n m e =>
    let sum := (f.decode c).add (.fin n m e)
    let r := (f.encode sum).1
    match f.decode r with
    | .inf neg => .ovf neg
    | _ => .code r

/-! ### Judging at issue (R61-R64, R68, R72, R74, R75, R82, R109) -/

/-- An operand's format: BADMX for 0x4-0x7, BADFMT for a reserved code, a coarse scale outside R47 or a reserved block axis. -/
def fmtBits_ (r : FmtScale) : BitVec 9 :=
  if fmtReserved r.fmt then BADFMT
  else if !r.scaled then BADMX
  else if !coarseOk r.coarse || decide (2 ≤ r.blockAxis.toNat) then BADFMT
  else 0

/-- BADMX where a condition of R82 or R109 holds. -/
def mxBad (p : Bool) : BitVec 9 := if p then BADMX else 0

/-- The bits a sub-problem's operands set: formats, reserved fields, and R64 over `xr` x `k` and `k` x `wc` delivered elements. -/
def operandBits (x w : Operand) (xr k wc : Nat) : BitVec 9 :=
  fmtBits_ x.fs ||| fmtBits_ w.fs ||| mxBad (!x.ok xr k) ||| mxBad (!w.ok k wc)

/-- Places occupied: from an operation's issue until cycle B + O (R68). -/
def Core.places (c : Core) : Nat := (c.mxq.filter fun o => decide (c.now < o.b + o.o)).length

/-- An accepted operation that has not landed has this tile of core k. -/
def Core.tileBusy (c : Core) (k : CoreId) (t : Nat) : Bool := c.mxq.any fun o => o.parts.any fun p => p.core == k && p.tile.val == t

/-- Table: Tile rejections, for one tile of core k and the coarse scales of its operands. -/
def Core.tileBits (c : Core) (k : CoreId) (tile start : Nat) (arm : Bool) (cx cw : List (BitVec 32)) : BitVec 9 :=
  let u := usableTiles c.arch.layout
  let m := c.arch.tiles[tile % 64]'(by omega)
  let img := c.arch.tiles[(tile + 1) % 64]'(by omega)
  mxBad (decide (u ≤ tile)) ||| mxBad (start == 3) |||
    mxBad (start == 0 && (!m.scaled || cx.any (· != m.cx) || cw.any (· != m.cw))) |||
    mxBad (arm && (tile % 2 == 1 || decide (u ≤ tile + 1))) |||
    mxBad (m.image || (arm && (img.armed || c.tileBusy k (tile + 1))))

/-- The extents' ranges for a dataflow (R61, R82); `wide` is the width of a chain's tiles. [DEDUCED: log 21] -/
def extentsOk (df : BitVec 2) (m n : Nat) (width wide : Nat) : Bool :=
  if df = 2 then decide (1 ≤ n ∧ n ≤ 128 ∧ 1 ≤ m ∧ m ≤ 256 ∧ m ≤ max width wide)
  else decide (1 ≤ m ∧ m ≤ 128 ∧ 1 ≤ n ∧ n ≤ max width wide)

/-- The descriptor's offset in the Basin (R189). -/
def Core.descOff (c : Core) (dreg : Reg) (doff : BitVec 19) : Nat :=
  ((c.sreg dreg).extractLsb' 0 32).toNat + 64 * doff.toNat

/-- The sub-problems a pack list places, and the bits it sets (R74). -/
def packSubs (df : BitVec 2) (width shared : Nat) (es : List PackEnt) : List MxSub × BitVec 9 :=
  let go := es.foldl (fun (acc : List MxSub × Nat × Nat × BitVec 9) e =>
    let (l, r0, c0, b) := acc
    let sub : MxSub := ⟨r0, e.h, c0, e.ext, e.k, e.x, e.w⟩
    let bits :=
      (if df = 2 then operandBits e.x e.w e.ext e.k shared else operandBits e.x e.w shared e.k e.ext) |||
        mxBad (!e.rsvZero) ||| mxBad (e.h % 8 != 0 || e.h < 8 || 128 < e.h) |||
        mxBad (e.cols % 32 != 0 || e.cols < 32 || 256 < e.cols) ||| mxBad (e.ext == 0 || e.cols < e.ext) |||
        mxBad (decide (65536 < e.k))
    (l ++ [sub], r0 + e.h, c0 + e.cols, b ||| bits)) ([], 0, 0, 0)
  let differ := match es with
    | [] => false
    | e :: _ => es.any fun x => x.x.fs.coarse != e.x.fs.coarse || x.w.fs.coarse != e.w.fs.coarse
  (go.1, go.2.2.2 ||| mxBad (decide (128 < go.2.1)) ||| mxBad (decide (width < go.2.2.1)) ||| mxBad differ)

/-- What judging an operation at issue gives: its bits, and for an operation without any its sub-problems and tile rows. -/
structure Judged where
  bits : BitVec 9
  subs : List MxSub
  rows : Nat
  desc : MxDesc
  deriving DecidableEq, Repr

/-- The number of set bits of a chain mask. -/
def chainCores (mask : BitVec 16) : List (Fin 16) := (List.finRange 16).filter fun i => mask.getLsbD i.val

/-- The judgement of MMUL and MRELAY at issue, with the descriptor at Basin offset `off` (R72, R82, R109). An operation whose
descriptor does not lie in the Basin on a 64-byte boundary is judged no further than its tile; pack entries are judged where they lie
in the Basin. [DEDUCED: log 21, 26] -/
def State.judgeMatrix (s : State) (k : CoreId) (relay : Bool) (a : MxArgs) (off : Nat) : Judged :=
  let c := s.core k
  let d := readDesc k (s.rdNat (basinBase k + off) 64)
  let full := if 4 ≤ c.places then MQFULL else 0
  let width := tileWidth c.arch.layout
  if off % 64 ≠ 0 ∨ basinSize < off + 64 then
    ⟨mxBad true ||| full ||| mxBad (a.df == 3) ||| c.tileBits k a.tile.toNat a.start.toNat a.arm [] [], [], 0, d⟩
  else
    let chain := chainCores d.relayMask
    let relayBits :=
      if relay then
        let lowest := chain.head?
        mxBad (lowest != some (localOf k)) ||| mxBad (d.pack != 0) |||
          mxBad (decide ((if a.df = 2 then d.mExt else d.nExt) ≤ 256 * (chain.length - 1)))
      else mxBad (d.relayMask != 0)
    let common := full ||| relayBits ||| mxBad (a.df == 3) ||| mxBad (!d.rsvZero)
    if d.pack = 0 then
      let wide := if relay && decide (1 < chain.length) then 256 * chain.length else 0
      let bits := common ||| operandBits d.x d.w d.mExt d.k (if relay then min d.nExt 256 else d.nExt) |||
        mxBad (!d.xRsv || !d.wRsv) ||| mxBad (decide (65536 < d.k)) ||| mxBad (!extentsOk a.df d.mExt d.nExt width wide) |||
        c.tileBits k a.tile.toNat a.start.toNat a.arm [d.x.fs.coarse] [d.w.fs.coarse]
      let ext := if a.df = 2 then d.mExt else d.nExt
      ⟨bits, [⟨0, 128, 0, min ext 256, d.k, d.x, d.w⟩], if a.df = 2 then d.nExt else d.mExt, d⟩
    else if 8 < d.pack then ⟨common ||| mxBad true, [], 0, d⟩
    else
      -- the entries that lie in the Basin
      let inside := (List.range d.pack).filter fun i => decide (off + 128 + 64 * i ≤ basinSize)
      let es := inside.map fun i => readPack k (s.rdNat (basinBase k + off + 64 + 64 * i) 64)
      let shared := if a.df = 2 then d.nExt else d.mExt
      let ps := packSubs a.df width shared es
      let bits := common ||| mxBad (decide (inside.length < d.pack)) ||| mxBad (a.df == 1) |||
        mxBad (decide (shared < 1 ∨ 128 < shared)) ||| ps.2 |||
        c.tileBits k a.tile.toNat a.start.toNat a.arm (es.map (·.x.fs.coarse)) (es.map (·.w.fs.coarse))
      ⟨bits, ps.1, shared, d⟩

/-! ### Accepting (R57, R69, R87, R88, R93) -/

/-- A sub-problem has a G16 operand (R57). -/
def MxSub.slow (p : MxSub) : Bool := p.x.fs.fmt == 3 || p.w.fs.fmt == 3

/-- A sub-problem has a turned operand. -/
def MxSub.isTurned (p : MxSub) : Bool := p.x.turned || p.w.turned

/-- Passes of an operation (R69). -/
def passes (subs : List MxSub) : Nat := subs.foldl (fun m p => max m ((p.k + p.h - 1) / p.h)) 0

/-- The landing cycle (R70, R73, R77). -/
def MxOp.land (o : MxOp) : Nat :=
  let d := 4 * (o.parts.length - 1)
  if o.p = 0 then o.b + 179 + d
  else if o.df = 1 then o.b + o.o + 179 + d
  else o.b + o.o - o.r + 52 + d

/-- The detection cycle of a pass (R94). -/
def MxOp.detect (o : MxOp) (p : Nat) : Nat :=
  let d := 4 * (o.parts.length - 1)
  if o.df = 1 then o.b + o.o + d else o.b + 128 * o.r * p + 127 * o.r + 52 + d

/-- The cycle in which the check lanes of a part of an OS operation are compared: *B* + *O*, with the part's delay on a chain
(R77, R106). [DEDUCED: log 23] -/
def MxOp.compareAt (o : MxOp) (q : MxPart) : Nat := o.b + o.o + q.delay

/-- The metadata changes of acceptance: the scales recorded under ZERO and BIAS, ARMED and IMAGE (R87, R88, R93). -/
def CoreArch.acceptMeta (a : CoreArch) (tile : Fin 64) (start : BitVec 2) (arm : Bool) (cx cw : BitVec 32) : CoreArch :=
  let a := if start = 0 then a else a.updTile tile fun m => { m with cx := cx, cw := cw, scaled := true }
  if arm then (a.updTile tile fun m => { m with armed := true }).updTile (tile + 1) fun m => { m with image := true } else a

/-- A WRTM that landed this cycle in a field the array writes now is lost and sets WCOLL (R143, R177). -/
def Core.metaCollides (c : Core) (tile : Fin 64) : Bool :=
  c.landed.any fun w => match w with
    | (.scalar, .cx t _) => t == tile
    | (.scalar, .cw t _) => t == tile
    | _ => false

/-- The operation the judgement accepts, issued in cycle c of core k (R69). -/
def buildOp (id c lastBO : Nat) (bidx : BIdx) (a : MxArgs) (rows : Nat) (packed relay : Bool)
    (parts : List MxPart) : MxOp :=
  let subs := parts.flatMap (·.subs)
  let r := if subs.any MxSub.slow then 2 else 1
  let p := passes subs
  let pre := (if a.df = 1 then 4 else 132) + (if subs.any MxSub.isTurned then 8 else 0) + (if packed then 8 else 0)
  { id := id, bidx := bidx, c := c, b := max (c + pre) lastBO, o := 128 * r * p, r := r, p := p, df := a.df,
    start := a.start, arm := a.arm, packed := packed, relay := relay, rows := rows, strm := [],
    parts := parts, teo := [], replays := 0, chkrep := false, begun := false }

/-! ### Reads by the schedule (R70, R77, R93) -/

/-- A pass number and a row of a schedule whose row 0 of pass 0 falls in cycle `first`: rows follow at `step` cycles, passes at
128 r. -/
def schedAt (t first unit step : Nat) : Option (Nat × Nat) :=
  if t < first then none
  else
    let u := t - first
    if (u % unit) % step = 0 then some (u / unit, (u % unit) / step) else none

/-- A key of a row in the stores of a part. -/
def rowKey (p m : Nat) : Nat := 128 * p + m

/-- The held operand's element at reduction index `i` and delivered column `col` of a sub-problem. -/
def State.heldElem (s : State) (df : BitVec 2) (b : MxSub) (i col : Nat) : FVal :=
  if df = 2 then s.elem b.x col i else s.elem b.w i col

/-- The streamed operand's element at streamed row `m` and reduction index `i`. -/
def State.strmElem (s : State) (df : BitVec 2) (b : MxSub) (m i : Nat) : FVal :=
  if df = 2 then s.elem b.w i m else s.elem b.x m i

/-- The held operand of a sub-problem, and the streamed one. -/
def MxSub.heldOp (b : MxSub) (df : BitVec 2) : Operand := if df = 2 then b.x else b.w
def MxSub.strmOp (b : MxSub) (df : BitVec 2) : Operand := if df = 2 then b.w else b.x

/-- Cell row `r` of the held block of pass `p` (WS, IS): the columns of the sub-problem whose band holds it. -/
def State.heldRow (s : State) (df : BitVec 2) (b : MxSub) (p r : Nat) : List (Option FVal) :=
  let i := b.h * p + (r - b.row0)
  (List.range 256).map fun col =>
    if b.row0 ≤ r ∧ r < b.row0 + b.h ∧ i < b.k ∧ b.col0 ≤ col ∧ col < b.col0 + b.ext then
      some (s.heldElem df b i (col - b.col0))
    else none

/-- Streamed row `m` of pass `p` (WS, IS): a sub-problem's elements in its band of cell rows. -/
def State.strmRow (s : State) (df : BitVec 2) (b : MxSub) (p m : Nat) : List (Option FVal) :=
  (List.range 128).map fun r =>
    if b.row0 ≤ r ∧ r < b.row0 + b.h ∧ b.h * p + (r - b.row0) < b.k then
      some (s.strmElem df b m (b.h * p + (r - b.row0)))
    else none

/-- Two partial rows merged. -/
def mergeRow (a b : List (Option FVal)) : List (Option FVal) := List.zipWith (fun x y => x.or y) a b

/-- A row put into a store, merged with what it holds. -/
def putRow (m : Sparse (List (Option FVal))) (key : Nat) (row : List (Option FVal)) : Sparse (List (Option FVal)) :=
  match Sparse.find m key with
  | some old => Sparse.put m key (mergeRow row old)
  | none => Sparse.put m key row

/-- Column `i` of X (OS) over the tile rows, and row `i` of W over the columns. -/
def State.osCol (s : State) (b : MxSub) (rows i : Nat) : List (Option FVal) :=
  (List.range rows).map fun m => some (s.elem b.x m i)
def State.osRow (s : State) (b : MxSub) (i : Nat) : List (Option FVal) :=
  (List.range 256).map fun col => if col < b.ext then some (s.elem b.w i col) else none

/-- The streamed rows (WS, IS) or columns of X (OS) that an operation reads in cycle `t`, on its lead (R70, R77). -/
def State.readStrm (s : State) (o : MxOp) (t : Nat) : Sparse (List (Option FVal)) :=
  match o.parts with
  | [] => o.strm
  | p0 :: _ =>
    p0.subs.foldl (fun acc b =>
      let sh := if (b.strmOp o.df).turned then 8 else 0
      if o.df = 1 then
        match schedAt (t + sh + 4) o.b (128 * o.r * (o.p + 1)) o.r with
        | some (0, i) => if i < b.k then putRow acc i (s.osCol b o.rows i) else acc
        | _ => acc
      else
        match schedAt (t + sh + 4) o.b (128 * o.r) o.r with
        | some (p, m) => if p < o.p ∧ m < o.rows then putRow acc (rowKey p m) (s.strmRow o.df b p m) else acc
        | none => acc) o.strm

/-- The held rows (WS, IS) or rows of W (OS) that a part reads in cycle `t`. -/
def State.readHeld (s : State) (o : MxOp) (q : MxPart) (t : Nat) : Sparse (List (Option FVal)) :=
  q.subs.foldl (fun acc b =>
    let sh := if (b.heldOp o.df).turned then 8 else 0
    if o.df = 1 then
      match schedAt (t + sh + 4) (o.b + q.delay) (128 * o.r * (o.p + 1)) o.r with
      | some (0, i) => if i < b.k then putRow acc i (s.osRow b i) else acc
      | _ => acc
    else
      match schedAt (t + sh + 132) (o.b + q.delay) (128 * o.r) 1 with
      | some (p, r) =>
        if p < o.p ∧ b.row0 ≤ r ∧ r < b.row0 + b.h ∧ r < 128 then putRow acc (rowKey p r) (s.heldRow o.df b p r) else acc
      | none => acc) q.held

/-- The tile row that a part reads in cycle `t`: its pass and row (R70, R73). -/
def MxOp.entryAt (o : MxOp) (q : MxPart) (t : Nat) : Option (Nat × Nat) :=
  if o.p = 0 ∨ o.df = 1 then
    match schedAt (t + 4) (o.b + q.delay) 65536 1 with
    | some (0, m) => if m < o.rows then some (0, m) else none
    | _ => none
  else
    match schedAt (t + 4) (o.b + q.delay) (128 * o.r) o.r with
    | some (p, m) => if p < o.p ∧ m < o.rows then some (p, m) else none
    | none => none

/-- A column lies inside the extents of a part. -/
def MxPart.inExt (q : MxPart) (col : Nat) : Bool := q.subs.any fun b => decide (b.col0 ≤ col ∧ col < b.col0 + b.ext)

/-- The image row of an armed operation: what the read returns, or +0 inside the extents under ZERO (R93). -/
def imageRow (o : MxOp) (q : MxPart) (codes : List Nat) : List Nat :=
  if o.start = 1 then (List.range codes.length).map fun c => if q.inExt c then 0 else codes.getD c 0 else codes

/-- Element codes as bytes. -/
def codeBytes (l : BitVec 2) (codes : List Nat) : List Byte := codes.flatMap fun c => natLe (elemBytes l) c

/-- One part's reads of cycle `t`: held rows, its tile row, and the image row written beside it. -/
def State.readPart (s : State) (o : MxOp) (q : MxPart) (t : Nat) : MxPart × List (Nat × List Byte) :=
  let held := s.readHeld o q t
  match o.entryAt q t with
  | none => ({ q with held := held }, [])
  | some (p, m) =>
    let codes := s.tileRow q.core q.layout q.tile.val m (tileWidth q.layout)
    let img :=
      if o.arm ∧ p = 0 then
        [(tileAddr q.core q.layout (q.tile.val + 1) m 0, codeBytes q.layout (imageRow o q codes))]
      else []
    let imgs :=
      if o.arm ∧ p = 0 then Sparse.put q.imgs m (s.tileRow q.core q.layout (q.tile.val + 1) m (tileWidth q.layout))
      else q.imgs
    ({ q with held := held, entry := Sparse.put q.entry (rowKey p m) codes, imgs := imgs }, img)

/-! ### Rows (R59, R89, R90, R92) -/

/-- The pairs of streamed and held elements of one output element in ascending reduction index. -/
def MxOp.terms (o : MxOp) (q : MxPart) (p m col : Nat) : List (FVal × FVal) :=
  if o.df = 1 then
    (List.range (128 * o.p)).filterMap fun i =>
      match (Sparse.find o.strm i).bind (fun r => r.getD m none), (Sparse.find q.held i).bind (fun r => r.getD col none) with
      | some a, some b => some (a, b)
      | _, _ => none
  else
    match Sparse.find o.strm (rowKey p m) with
    | none => []
    | some srow =>
      (List.range 128).filterMap fun r =>
        match srow.getD r none, (Sparse.find q.held (rowKey p r)).bind (fun h => h.getD col none) with
        | some a, some b => some (a, b)
        | _, _ => none

/-- The running value an element enters a pass with: its start value in the first pass (R88); later its value after the pass
before, unless the row has been written over since. -/
def MxOp.enterElem (o : MxOp) (q : MxPart) (p m col : Nat) (codes : List Nat) : ElemSt :=
  let f := tileFmt q.layout
  let c := codes.getD col 0
  if p = 0 then (if o.start = 1 then .code 0 else elemOfCode f c)
  else
    match (Sparse.find q.done (rowKey (p - 1) m)).bind (fun r => r.getD col none) with
    | some st => if st.toCode f = c then st else elemOfCode f c
    | none => elemOfCode f c

/-- A tile row after a pass, columns outside the extents left out. -/
def MxOp.runRow (o : MxOp) (i : Nat) (q : MxPart) (p m : Nat) : List (Option ElemSt) :=
  let f := tileFmt q.layout
  let codes := (Sparse.find q.entry (rowKey p m)).getD []
  let t := o.teo.getD i 0
  (List.range (tileWidth q.layout)).map fun col =>
    if q.inExt col then
      some ((o.terms q p m col).foldl (fun st ab => elemStep f st ((ab.1.mul ab.2).scale t)) (o.enterElem q p m col codes))
    else none

/-- An operation's reads of cycle `t` (R70), and the image rows it writes. A row that a check replay has computed ahead of its tile read
is computed from what that read returns (R106, R128). [DEDUCED: log 82] -/
def State.readOp (s : State) (o : MxOp) (t : Nat) : MxOp × List (Nat × List Byte) :=
  let rs := o.parts.map fun q => s.readPart o q t
  let o : MxOp := { o with strm := s.readStrm o t, parts := rs.map (·.1) }
  ({ o with parts := o.parts.mapIdx fun i q =>
      match o.entryAt q t with
      | some (p, m) =>
        if (Sparse.find q.done (rowKey p m)).isSome then { q with done := Sparse.put q.done (rowKey p m) (o.runRow i q p m) }
        else q
      | none => q },
   rs.flatMap (·.2))

/-- The writes of a row: the columns inside the extents (R61, R102). -/
def rowWrites (q : MxPart) (m : Nat) (row : List (Option ElemSt)) : List Wr :=
  q.subs.map fun b =>
    .mem (tileAddr q.core q.layout q.tile.val m b.col0)
      (codeBytes q.layout ((List.range b.ext).map fun c =>
        match row.getD (b.col0 + c) none with
        | some st => st.toCode (tileFmt q.layout)
        | none => 0))

/-- The tile row that a part writes in cycle `t` (R70, R73, R77). -/
def MxOp.writeAt (o : MxOp) (q : MxPart) (t : Nat) : Option (Nat × Nat) :=
  let base := if o.df = 1 then o.b + o.o + q.delay + 52 else o.b + q.delay + 52
  if o.p = 0 ∨ o.df = 1 then
    match schedAt t base 65536 1 with
    | some (0, m) => if m < o.rows then some (0, m) else none
    | _ => none
  else
    match schedAt t base (128 * o.r) o.r with
    | some (p, m) => if p < o.p ∧ m < o.rows then some (p, m) else none
    | none => none

/-! ### The check column (R103-R105) -/

/-- A sum in A32, each step rounded (R103). -/
def chkSum (vs : List FVal) : FVal := vs.foldl (fun s x => a32Val (toA32 (s.add x))) (.fin false 0 0)

/-- A lane of a row mismatches: columns `cols` of one sub-problem, entry values `y`, presented values `y'` (R103-R105). `ks`
are
the streamed elements with the held row of each. The sum of magnitudes of a column of *U* is added exactly and rounded once
into
the running sum; *T* and |*G* - *Q*| are compared exactly. [DESIGN CHOICE: log 98] -/
def laneMismatch (df : BitVec 2) (l : BitVec 2) (t : Int) (cols : List Nat) (y y' : Nat → ElemSt) (kc : Nat)
    (ks : List (FVal × List (Option FVal))) : Bool :=
  let f := tileFmt l
  let finite (st : ElemSt) : Bool := match st with
    | .code _ => true
    | _ => false
  if cols.isEmpty ∨ (cols.any fun c => !finite (y c) || !finite (y' c)) ∨
      (elemBytes l = 3 ∧ df = 1 ∧ 4096 < kc) then false
  else
    let val (st : ElemSt) : FVal := f.decode (st.toCode f)
    let h (row : List (Option FVal)) : List FVal := cols.filterMap fun c => (row.getD c none).map fun v => v.scale t
    let q := chkSum (ks.map fun k => k.1.mul (chkSum (h k.2)))
    let v := chkSum (ks.map fun k => k.1.abs.mul (chkSum ((h k.2).map FVal.abs)))
    let g := chkSum (cols.map fun c => a32Val (toA32 ((val (y' c)).sub (val (y c)))))
    let u := chkSum (cols.map fun c => (val (y c)).abs.add (val (y' c)).abs)
    let sums := cols.any fun _ => ks.any fun k => !(chkSum (h k.2)).isFin
    if sums || !q.isFin || !v.isFin || !g.isFin || !u.isFin then false
    else
      let a24 := elemBytes l = 3
      let tol := ((u.add v).mul (.fin false (kc + 64) (if a24 then -14 else -22))).add
        (.fin false 1 (if a24 then -112 else -120))
      tol.lt (g.sub q).abs

/-- A row presented as `row'` in place of the array's own result: whether some check lane mismatches over its span (R103-R105). -/
def MxOp.rowMismatch (o : MxOp) (i : Nat) (q : MxPart) (p m : Nat) (row' : List (Option ElemSt)) : Bool :=
  let codes := (Sparse.find q.entry (rowKey p m)).getD []
  let t := o.teo.getD i 0
  q.subs.any fun b =>
    let ks : List (FVal × List (Option FVal)) :=
      if o.df = 1 then
        (List.range b.k).filterMap fun j =>
          match (Sparse.find o.strm j).bind (fun r => r.getD m none), Sparse.find q.held j with
          | some a, some h => some (a, h)
          | _, _ => none
      else
        (List.range 128).filterMap fun r =>
          if b.row0 ≤ r ∧ r < b.row0 + b.h then
            match ((Sparse.find o.strm (rowKey p m)).getD []).getD r none, Sparse.find q.held (rowKey p r) with
            | some a, some h => some (a, h)
            | _, _ => none
          else none
    let kc := if o.df = 1 then b.k else if o.packed then b.h else 128
    (List.range 8).any fun lane =>
      let cols := (List.range 32).filterMap fun c =>
        let col := 32 * lane + c
        if b.col0 ≤ col ∧ col < b.col0 + b.ext then some col else none
      laneMismatch o.df q.layout t cols (fun c => o.enterElem q p m c codes) (fun c => (row'.getD c none).getD .nan) kc ks

/-- A row as a faulty array presents it (R103). -/
def faultyStates (q : MxPart) (lanes : List Lane) : List (Option ElemSt) :=
  (List.range (tileWidth q.layout)).map fun c =>
    if q.inExt c then some (elemOfCode (tileFmt q.layout) ((lanes.getD c 0).toNat % 256 ^ elemBytes q.layout)) else none

/-! ### Reruns (R95, R98, R106) -/

/-- Every operand row of a pass read as memory stands now (R95, R106). -/
def State.freshPass (s : State) (o : MxOp) (p : Nat) : MxOp :=
  let rows := List.range o.rows
  let strm := match o.parts with
    | [] => o.strm
    | p0 :: _ =>
      if o.df = 1 then
        p0.subs.foldl (fun acc b => (List.range b.k).foldl (fun acc i => Sparse.put acc i (s.osCol b o.rows i)) acc) o.strm
      else
        rows.foldl (fun acc m =>
          Sparse.put acc (rowKey p m)
            (p0.subs.foldl (fun r b => mergeRow (s.strmRow o.df b p m) r) (List.replicate 128 none))) o.strm
  let parts := o.parts.map fun q =>
    if o.df = 1 then
      { q with held := q.subs.foldl (fun acc b => (List.range b.k).foldl (fun acc i => Sparse.put acc i (s.osRow b i)) acc) q.held }
    else
      { q with
        held := (List.range 128).foldl (fun acc r =>
          Sparse.put acc (rowKey p r)
            (q.subs.foldl (fun row b => mergeRow (s.heldRow o.df b p r) row) (List.replicate 256 none))) q.held }
  { o with strm := strm, parts := parts }

/-- Every row of a pass of some parts computed from its entry values. -/
def MxOp.runParts (o : MxOp) (p : Nat) (only : MxPart → Bool) : MxOp :=
  { o with parts := o.parts.mapIdx fun i q =>
      if only q then
        { q with done := (List.range o.rows).foldl (fun d m => Sparse.put d (rowKey p m) (o.runRow i q p m)) q.done }
      else q }

/-- Every row of a pass computed from its entry values. -/
def MxOp.runPass (o : MxOp) (p : Nat) : MxOp := o.runParts p fun _ => true

/-- The codes of a whole tile row after a pass: computed columns and, outside the extents, the entry's. -/
def MxPart.rowCodes (q : MxPart) (p m : Nat) : List Nat :=
  let entry := (Sparse.find q.entry (rowKey p m)).getD []
  match Sparse.find q.done (rowKey p m) with
  | none => entry
  | some row => (List.range entry.length).map fun c =>
    match row.getD c none with
    | some st => st.toCode (tileFmt q.layout)
    | none => entry.getD c 0

/-- The entry rows of a pass set from the pass before. -/
def MxOp.chainEntry (o : MxOp) (p : Nat) (only : MxPart → Nat → Bool) : MxOp :=
  { o with parts := o.parts.map fun q =>
      { q with entry := (List.range o.rows).foldl (fun e m =>
          if only q m then Sparse.put e (rowKey (p + 1) m) (q.rowCodes p m) else e) q.entry } }

/-- A step of pass `p` has carried a class 3 element of a part beyond its format: not one that an earlier pass did (R94, R96). -/
def MxOp.partOverflowed (o : MxOp) (q : MxPart) (p : Nat) : Bool :=
  (List.range o.rows).any fun m =>
    let codes := (Sparse.find q.entry (rowKey p m)).getD []
    (((Sparse.find q.done (rowKey p m)).getD []).mapIdx fun col st => match st with
      | some (.ovf _) =>
        (match o.enterElem q p m col codes with
         | .ovf _ => false
         | _ => true)
      | _ => false).any fun b => b

/-- Some element of the operation has overflowed in a pass (R94). -/
def MxOp.overflowed (o : MxOp) (p : Nat) : Bool :=
  o.parts.any fun q => o.partOverflowed q p

/-- The parts whose elements have become infinite in a pass carry it (R96). -/
def MxOp.markOvf (o : MxOp) (p : Nat) : MxOp :=
  { o with parts := o.parts.map fun q => if o.partOverflowed q p then { q with ovfinf := true } else q }

/-- An overflow of this operation can be replayed (R95, R98). -/
def MxOp.canReplay (o : MxOp) : Bool := o.arm && decide (o.replays < 3) && o.teo.all fun t => decide (-96 ≤ t)

/-- A code times 2^-32, rounded once (R95). [DEDUCED: log 23] -/
def rescale (f : FFmt) (c : Nat) : Nat := (f.encode ((f.decode c).scale (-32))).1

/-- The passes of a rerun from its first to pass `p`: it stops at a pass whose overflow can be replayed again. [DEDUCED: log
23] -/
def State.rerunTo (s : State) (o : MxOp) : Nat → Nat → MxOp × Option Nat
  | 0, _ => (o, none)
  | n + 1, p =>
    let o := (s.freshPass o p).runPass p
    if o.overflowed p && o.canReplay then (o, some p)
    else
      match n with
      | 0 => (o, none)
      | n + 1 => s.rerunTo (o.chainEntry p fun _ _ => true) (n + 1) (p + 1)

/-- The hold of a replay (Table: Replay holds). -/
def replayHold (o : MxOp) (check : Bool) (p : Nat) : Nat :=
  let d := 4 * (o.parts.length - 1)
  if check then 192 + (if o.df = 1 then o.o else 128 * o.r) + d
  else 456 + (if o.df = 1 then o.o else 128 * o.r * (p + 1)) + d

/-- The entry rows of an overflow replay: each image row as it stands, or as a rerun of this replay has written it, times 2^-32
with one rounding (R91, R95). [DEDUCED: log 23, 24] -/
def State.rescaleEntry (s : State) (o : MxOp) (rerun : Bool) (q : MxPart) : MxPart :=
  { q with
    done := []
    ovfinf := false
    entry := (List.range o.rows).foldl (fun e m =>
      let row := if rerun then imageRow o q ((Sparse.find q.entry (rowKey 0 m)).getD [])
        else s.tileRow q.core q.layout (q.tile.val + 1) m (tileWidth q.layout)
      Sparse.put e (rowKey 0 m) (row.map (rescale (tileFmt q.layout)))) [] }

/-- One overflow replay at the detection cycle of pass `p` (R95): entry rows rescaled, TEO lowered by 32, passes 0 to `p` rerun. The
result, and the pass in which the rerun overflows and may be replayed again. `rerun`: the operation is itself the rerun of a replay made
in this cycle. [DEDUCED: log 23, 24] -/
def State.overflowRun (s : State) (o : MxOp) (p : Nat) (rerun : Bool) : MxOp × Option Nat :=
  let o1 := { o with
    replays := o.replays + 1
    teo := o.teo.map fun t => t - 32
    parts := o.parts.map (s.rescaleEntry o rerun) }
  -- the rescaled entry row is the start value, also under ZERO
  let r := s.rerunTo { o1 with start := 2 } (if o.df = 1 then 1 else p + 1) 0
  ({ r.1 with start := o.start }, r.2)

/-- The last pass whose write of row `m` of a part is scheduled in cycle `t` or earlier (R70, R73, R77). -/
def MxOp.passBy (o : MxOp) (q : MxPart) (m t : Nat) : Option Nat :=
  if o.p = 0 ∨ o.df = 1 then (if o.b + o.o + q.delay + 52 + m ≤ t then some 0 else none)
  else
    let first := o.b + q.delay + 52 + o.r * m
    if t < first then none else some (min (o.p - 1) ((t - first) / (128 * o.r)))

/-- The pass after `p` taken on from the values that pass `p` leaves, as far as its rows are read and written by cycle `t`: on a
chain the lead runs ahead of a detection cycle (R77, R95, R98, R106). -/
def MxOp.goOn (o : MxOp) (p t : Nat) : MxOp :=
  if o.df = 1 ∨ o.p ≤ p + 1 then o
  else
    let o := o.chainEntry p fun q m => decide (o.b + q.delay + 128 * o.r * (p + 1) + o.r * m ≤ t + 4)
    { o with parts := o.parts.mapIdx fun i q =>
        { q with done := (List.range o.rows).foldl (fun d m =>
            if o.passBy q m t = some (p + 1) then Sparse.put d (rowKey (p + 1) m) (o.runRow i q (p + 1) m) else d) q.done } }

/-- The bytes of a tile row's computed columns. -/
def MxPart.rowOut (q : MxPart) (p m : Nat) : List (Nat × List Byte) :=
  match Sparse.find q.done (rowKey p m) with
  | none => []
  | some row => (rowWrites q m row).filterMap fun w => match w with
    | .mem a bs => some (a, bs)
    | _ => none

/-- The rows that a check replay of pass `p` presents in cycle `t`: those of this pass or a later one that are scheduled by then, with
the rerun's values (R106). -/
def MxOp.checkRows (o : MxOp) (p t : Nat) : List (Nat × List Byte) :=
  o.parts.flatMap fun q => (List.range o.rows).flatMap fun m =>
    match o.passBy q m t with
    | some p' => if p ≤ p' then q.rowOut p' m else []
    | none => []

/-- The bytes an overflow replay presents from the detection cycle `t` on (R70, R93, R95): each tile row that the operation read as its
last scheduled pass leaves it, or as rescaled until its first write; each other row rescaled as it stands; and the image rows that the
rerun's first pass wrote. -/
def State.presentAll (s : State) (o : MxOp) (t : Nat) (times : Nat) : List (Nat × List Byte) :=
  let entry (q : MxPart) (m : Nat) : List Nat := (Sparse.find q.entry (rowKey 0 m)).getD []
  o.parts.flatMap fun q =>
    ((List.range 128).map fun m =>
      let codes :=
        if m < o.rows then
          (match o.passBy q m t with
           | some p => q.rowCodes p m
           | none => entry q m)
        else (s.tileRow q.core q.layout q.tile.val m (tileWidth q.layout)).map fun c =>
          (List.range times).foldl (fun c _ => rescale (tileFmt q.layout) c) c
      (tileAddr q.core q.layout q.tile.val m 0, codeBytes q.layout codes)) ++
    (List.range o.rows).map fun m =>
      (tileAddr q.core q.layout (q.tile.val + 1) m 0, codeBytes q.layout (imageRow o q (entry q m)))

end Sys2Proof.Machine
end

