-- ==== Sys2Proof/Machine/Cycle.lean ====
section
/-! DEFINITION. A program cycle of a core (R135-R145): landings and tile-row writes with their collisions, detection cycles and
replays (R94-R98, R106), reads, bank conflicts (R140, R210), and the passing of the cycle. -/

namespace Sys2Proof.Machine

/-! ### Landings (R136, R143, R144) -/

/-- Address ranges overlap. -/
def rangesMeet (a n b m : Nat) : Bool := decide (a < b + m ∧ b < a + n)

/-- Two writes have a destination in common (R143). -/
def Wr.meets : Wr → Wr → Bool
  | .sreg a _, .sreg b _ => a == b
  | .vreg a _, .vreg b _ => a == b
  | .mem a x, .mem b y => rangesMeet a x.length b y.length
  | .layout _, .layout _ => true
  | .teo a _, .teo b _ => a == b
  | .cx a _, .cx b _ => a == b
  | .cw a _, .cw b _ => a == b
  | _, _ => false

/-- Writes of two slots meet somewhere in a list. -/
def collide : List (SlotId × Wr) → Bool
  | [] => false
  | w :: l => (l.any fun x => x.1 != w.1 && x.2.meets w.2) || collide l

/-- A count as the register write it is: a 64-bit add that holds at its largest value, on the register as earlier cycles left it
(R55). -/
def Core.resolve (c : Core) : Wr → Wr
  | .count r n => .sreg r (BitVec.ofNat 64 (min ((c.sreg r).toNat + n) (2 ^ 64 - 1)))
  | w => w

/-- The writes in the order in which the first-ranked slot's is made last, and in a slot the later-issued one (R143, R144). -/
def byRank (ws : List (SlotId × Wr)) : List (SlotId × Wr) :=
  [SlotId.scalar, .sync, .store, .load, .vector, .matrix].flatMap fun sl => ws.filter fun w => w.1 == sl

/-- The sticky bits that a W1C write clears: `BADBUN` of a bad-bundle stop is set once the operations in flight have landed, after
their writes (R157, R159). -/
def CoreArch.w1cMask (a : CoreArch) (m : BitVec 9) : BitVec 9 := if a.stopCause = 0x03 then m &&& ~~~BADBUN else m

/-- One write made on core k. -/
def State.applyWr (s : State) (k : CoreId) : Wr → State
  | .sreg r v => s.updArch k fun a => { a with sregs := a.sregs.set r.val v }
  | .count _ _ => s
  | .vreg r v => s.updArch k fun a => { a with vregs := a.vregs.set r.val v }
  | .mem addr bs => s.wrSlot addr bs
  | .ctr c set v =>
    s.updArch k fun a => { a with ctrs := a.ctrs.set c.val (if set then v else a.ctrs[c] + v) }
  | .w1c m => s.updArch k fun a => { a with sticky := a.sticky &&& ~~~a.w1cMask m }
  | .layout v => s.updArch k fun a => { a with layout := v }
  | .teo t v => s.updArch k fun a => a.updTile t fun m => { m with teo := v }
  | .cx t v => s.updArch k fun a => a.updTile t fun m => { m with cx := v, scaled := true }
  | .cw t v => s.updArch k fun a => a.updTile t fun m => { m with cw := v, scaled := true }
  | .sticky m => s.updCore k fun c => c.flag m
  | .watch slot lcore ctr cond imm => s.landWatch k slot lcore ctr cond imm
  | .unwatch slot => s.updArch k fun a => a.landUnwatch slot
  | .bar slot scope ctx => s.landBar k slot scope ctx
  | .remote lcore ctr v => s.sendCtr ⟨lcore, k.val, ctr, v, false⟩

/-- A cycle's writes made on core k, collisions resolved by rank, WCOLL set where two slots meet (R143). -/
def State.landAll (s : State) (k : CoreId) (ws : List (SlotId × Wr)) : State :=
  let c := s.core k
  let ws := ws.map fun w => (w.1, c.resolve w.2)
  let s := (byRank ws).foldl (fun s w => s.applyWr k w.2) s
  let s := if collide ws then s.updCore k fun c => c.flag WCOLL else s
  s.updCore k fun c => { c with landed := c.landed ++ ws }

/-- The writes of the slot operations that land in the current cycle, in issue order, and the operations left (R136). -/
def Core.dueWrites (c : Core) : List (SlotId × Wr) :=
  c.inflight.flatMap fun o =>
    if o.land = c.now then
      match o.body with
      | .writes ws => ws.map fun w => (o.slot, w)
      | .read _ => []
    else []

/-- What the loads that land in the current cycle write, with their issue cycles (R144). -/
def Core.dueLoads (c : Core) : List (Wr × Nat) :=
  c.inflight.flatMap fun o =>
    if o.land = c.now ∧ o.slot = .load then
      match o.body with
      | .writes ws => ws.map fun w => (w, o.issue)
      | .read _ => []
    else []

/-! ### Tile-row writes, checks (R70, R106) -/

/-- Operations of a core with one replaced. -/
def replaceOp (l : List MxOp) (o : MxOp) : List MxOp := l.map fun x => if x.id = o.id then o else x

/-- A faulty row that bears on a part and row. -/
def faultOn (faulty : Option FaultyRow) (i m : Nat) : Option (List Lane) :=
  match faulty with
  | some f => if f.part = i ∧ f.row = m then some f.lanes else none
  | none => none

/-- What a part writes in cycle `t`: the operation with the row computed, its writes, and the row whose check failed. -/
def MxOp.rowStep (o : MxOp) (t : Nat) (faulty : Option FaultyRow) (i : Nat) :
    MxOp × List Wr × Option (Nat × Nat × Nat) :=
  match o.parts[i]? with
  | none => (o, [], none)
  | some q =>
    match o.writeAt q t with
    | none => (o, [], none)
    | some (p, m) =>
      let known := Sparse.find q.done (rowKey p m)
      let clean := known.getD (o.runRow i q p m)
      let bad := if o.p = 0 ∨ o.df = 1 ∨ known.isSome then none else faultOn faulty i m
      let row := match bad with
        | some lanes => faultyStates q lanes
        | none => clean
      if bad.isSome && o.rowMismatch i q p m row then (o, [], some (i, p, m))
      else
        let q' := { q with done := Sparse.put q.done (rowKey p m) row }
        ({ o with parts := o.parts.set i q' }, rowWrites q m row, none)

/-- What an operation writes in cycle `t`, over its parts. -/
def MxOp.stepRows (o : MxOp) (t : Nat) (faulty : Option FaultyRow) : MxOp × List Wr × Option (Nat × Nat × Nat) :=
  (List.range o.parts.length).foldl (fun acc i =>
    let (o, ws, bad) := acc
    let (o, w, b) := o.rowStep t faulty i
    (o, ws ++ w, bad.or b)) (o, [], none)

/-- What a later operation has written by cycle `t`, as it stood before: the computed columns of its tile rows and its image
rows (R95:
its work is discarded). [DEDUCED: log 23] -/
def MxOp.undone (o : MxOp) (t : Nat) : List (Nat × List Byte) :=
  o.parts.flatMap fun q =>
    ((List.range o.rows).flatMap fun m =>
      match o.passBy q m t, Sparse.find q.entry (rowKey 0 m) with
      | some _, some codes =>
        q.subs.map fun b => (tileAddr q.core q.layout q.tile.val m b.col0, codeBytes q.layout ((codes.drop b.col0).take b.ext))
      | _, _ => []) ++
    q.imgs.map fun (e : Nat × List Nat) => (tileAddr q.core q.layout (q.tile.val + 1) e.1 0, codeBytes q.layout e.2)

/-- Begun work of a later operation made again on memory as it stands: rows read, image rows and the tile rows scheduled by cycle `t`
written (R95). -/
def State.refreshOp (s : State) (o : MxOp) (t : Nat) : MxOp × List (Nat × List Byte) :=
  let strm := o.strm.map fun (e : Nat × List (Option FVal)) =>
    match o.parts with
    | [] => e
    | p0 :: _ =>
      if o.df = 1 then (e.1, (p0.subs.foldl (fun r b => mergeRow (s.osCol b o.rows e.1) r) (List.replicate o.rows none)))
      else
        (e.1, (p0.subs.foldl (fun r b => mergeRow (s.strmRow o.df b (e.1 / 128) (e.1 % 128)) r) (List.replicate 128 none)))
  let parts := o.parts.map fun q =>
    { q with
      held := q.held.map fun (e : Nat × List (Option FVal)) =>
        if o.df = 1 then (e.1, (q.subs.foldl (fun r b => mergeRow (s.osRow b e.1) r) (List.replicate 256 none)))
        else
          (e.1, (q.subs.foldl (fun r b => mergeRow (s.heldRow o.df b (e.1 / 128) (e.1 % 128)) r) (List.replicate 256 none)))
      entry := q.entry.map fun (e : Nat × List Nat) =>
        (e.1, s.tileRow q.core q.layout q.tile.val (e.1 % 128) (tileWidth q.layout))
      imgs := q.imgs.map fun (e : Nat × List Nat) =>
        (e.1, s.tileRow q.core q.layout (q.tile.val + 1) e.1 (tileWidth q.layout)) }
  let imgs := parts.flatMap fun q =>
    if o.arm then
      q.entry.filterMap fun (e : Nat × List Nat) =>
        if e.1 < 128 then
          some (tileAddr q.core q.layout (q.tile.val + 1) e.1 0, codeBytes q.layout (imageRow o q e.2))
        else none
    else []
  let o : MxOp := { o with strm := strm, parts := parts }
  let o : MxOp := { o with parts := o.parts.mapIdx fun i q =>
    { q with done := q.done.map fun (e : Nat × List (Option ElemSt)) => (e.1, o.runRow i q (e.1 / 128) (e.1 % 128)) } }
  (o, imgs ++ o.parts.flatMap fun q => q.done.flatMap fun e =>
    match o.passBy q (e.1 % 128) t with
    | some p => if e.1 / 128 ≤ p then q.rowOut (e.1 / 128) (e.1 % 128) else []
    | none => [])

/-- Bytes written in order. -/
def State.wrAll (s : State) (ws : List (Nat × List Byte)) : State := ws.foldl (fun s w => s.wrSlot w.1 w.2) s

/-- The operations that follow a replayed one, each made again on what the replay leaves (R95): the operations and the bytes that they
present. A detection cycle comes less than a pass after the beginning of the next operation, so that none of them has read a row that
another of them has written (R69, R70, R77). -/
def State.refreshLater (s : State) (id t : Nat) (ops : List MxOp) : List MxOp × List (Nat × List Byte) :=
  let rs := ops.map fun x => if x.id ≤ id then (x, []) else s.refreshOp x t
  (rs.map (·.1), rs.flatMap (·.2))

/-- Tile exponents by core and tile, the last setting first. -/
abbrev TeoTable := List ((CoreId × Fin 64) × Int)

/-- The exponent that a table gives a part's tile. -/
def TeoTable.of (l : TeoTable) (q : MxPart) : Option Int := (l.find? fun x => x.1 == (q.core, q.tile)).map (·.2)

/-- An operation that has begun makes its own change of `TEO` again, and reads it as the table has it (R88, R90, R95). -/
def TeoTable.redo (l : TeoTable) (x : MxOp) : TeoTable × MxOp :=
  if x.start = 0 then (l, { x with teo := (x.parts.zip x.teo).map fun (y : MxPart × Int) => (TeoTable.of l y.1).getD y.2 })
  else ((x.parts.map fun q => ((q.core, q.tile), (0 : Int))) ++ l, { x with teo := x.parts.map fun _ => 0 })

/-- The later operations that have begun, in their order, make their metadata changes again on what a replay of `o` leaves (R95): the table
and the operations. -/
def redoTeo (o : MxOp) (ops : List MxOp) : TeoTable × List MxOp :=
  ops.foldl (fun (acc : TeoTable × List MxOp) x =>
    if o.id < x.id ∧ x.begun = true then
      let r := acc.1.redo x
      (r.1, acc.2 ++ [r.2])
    else (acc.1, acc.2 ++ [x])) ((o.parts.zip o.teo).map fun (y : MxPart × Int) => ((y.1.core, y.1.tile), y.2), [])

/-- The table as settings, the last one of a tile last. -/
def TeoTable.settings (l : TeoTable) : List (CoreId × Fin 64 × BitVec 8) :=
  l.reverse.map fun x => (x.1.1, x.1.2, BitVec.ofInt 8 x.2)

/-- A slot's write of the current cycle meets bytes or tile exponents that the array writes in it (R71, R143). -/
def Core.arrayMeets (c : Core) (k : CoreId) (ws : List (Nat × List Byte)) (teo : List (CoreId × Fin 64 × BitVec 8)) : Bool :=
  c.landed.any fun x => x.1 != .matrix &&
    ((ws.any fun w => x.2.meets (.mem w.1 w.2)) || teo.any fun t => t.1 == k && x.2.meets (.teo t.2.1 t.2.2))

/-- The bytes that undo what the operations behind one have written by the current cycle, the last one's first (R95).
[DEDUCED: log 23] -/
def Core.undoLater (c : Core) (id : Nat) : List (Nat × List Byte) :=
  (c.mxq.filter fun x => decide (id < x.id)).reverse.flatMap fun x => x.undone c.now

/-- A replay set up on core k: the operation as rerun, the bytes it presents, and the begun work of later operations discarded and made
again on those bytes (R95, R106). A slot's write of the cycle that meets what the replay writes is lost to it (R71, R143). `h` names the
row whose check is made again. -/
def State.setReplay (s : State) (k : CoreId) (o : MxOp) (ws : List (Nat × List Byte)) (h : Replay) : State :=
  let c := s.core k
  let undo := c.undoLater o.id
  let ops := replaceOp c.mxq o
  let redone := if h.check then ([], ops) else redoTeo o ops
  let later := ((s.wrAll undo).wrAll ws).refreshLater o.id c.now redone.2
  let teo := TeoTable.settings redone.1
  let hit := c.arrayMeets k ws teo
  s.updCore k fun c =>
    { (if hit then c.flag WCOLL else c) with
      hold := some { h with ops := later.1, writes := undo ++ ws ++ later.2, teo := teo, op := o.id } }

/-- One more check replay of a core: CHECK_REPLAY at most once per second (R351). [DEDUCED: log 72] -/
def State.checkReplayEvent (s : State) (k : CoreId) (tile : Nat) : State :=
  let x := (s.core k).checks
  if x.open_ s.power.ticks then
    (s.updCore k fun c => { c with checks := ⟨0, some s.power.ticks⟩ }).emitCore 0x04 0 k (BitVec.ofNat 64 tile) 0
  else s.updCore k fun c => { c with checks := { x with held := x.held + 1 } }

/-- A check replay of a pass found at row `m` of part `i` in the current cycle (R106): the pass rerun from the entry values of its
rows; rows scheduled by now are presented, later rows keep the rerun's values for their cycles, and what the next pass has begun is made
again. A row whose tile read is still to come is computed from its tile row as it stands, and once more when it is read. The
operands are read on memory without the later operations' work. [DEDUCED: log 82] -/
def State.startCheck (s : State) (k : CoreId) (o : MxOp) (i p m : Nat) : State :=
  let c := s.core k
  let now := c.now
  let u := s.wrAll (c.undoLater o.id)
  let filled := { o with
    chkrep := true
    parts := o.parts.map fun q =>
      { q with entry := (List.range o.rows).foldl (fun e r =>
          if (Sparse.find e (rowKey p r)).isSome then e
          else Sparse.put e (rowKey p r) (u.tileRow q.core q.layout q.tile.val r (tileWidth q.layout))) q.entry } }
  let r := ((u.freshPass filled p).runParts p fun q => o.df != 1 || decide (o.compareAt q ≤ now)).goOn p now
  let q := o.parts[i]?
  (s.setReplay k r (r.checkRows p now)
    { check := true, left := replayHold o true p, ops := [], writes := [], teo := [], op := o.id, part := i, pass := p, row := m,
      detect := p, times := 0, again := none }).checkReplayEvent
    ((q.map fun q => q.core).getD k) ((q.map fun q => q.tile.val).getD 0)

/-! ### Stage 1: landings -/

/-- Every operation of the core's slots has landed (R155). -/
def Core.quiet (c : Core) : Bool := c.inflight.isEmpty && c.mxq.isEmpty && c.relay == .none

/-- The sequencer's phase set. -/
def Core.setPhase (c : Core) (p : Phase) : Core := { c with arch := { c.arch with seq := { c.arch.seq with phase := p } } }

/-- A FENCE or HALT whose core has an operation in flight at the beginning of a cycle goes on to the next cycle at least: the next
bundle issues in the cycle after the last landing (R155, R156). -/
def Core.bumpFence (c : Core) : Core :=
  if c.quiet then c
  else
    match c.arch.seq.phase with
    | .fence a => c.setPhase (.fence (max a (c.now + 1)))
    | .halting a => c.setPhase (.halting (max a (c.now + 1)))
    | _ => c


/-- Operations whose first pass begins in the current cycle set and read TEO (R88, R90); a WRTM of the cycle to the same TEO is
lost (R143). -/
def State.beginOps (s : State) (k : CoreId) : State :=
  let c := s.core k
  c.mxq.foldl (fun s o =>
    if o.begun = false ∧ o.b ≤ c.now then
      let hit := o.start != 0 && o.parts.any fun q =>
        (s.core q.core).landed.any fun w => match w with
          | (.scalar, .teo t _) => t == q.tile
          | _ => false
      let s := if o.start = 0 then s
        else o.parts.foldl (fun s q => s.updArch q.core fun a => a.updTile q.tile fun m => { m with teo := 0 }) s
      let s := if hit then s.updCore k fun c => c.flag WCOLL else s
      let teo := o.parts.map fun q => ((s.core q.core).arch.tiles[q.tile]).teo.toInt
      s.updCore k fun c => { c with mxq := replaceOp c.mxq { o with begun := true, teo := teo } }
    else s) s

/-- Notifications of own-core watches that are due reach their slots (R225). [DEDUCED: log 29] -/
def Core.dueNotes (c : Core) : Core :=
  let due := c.notes.filter fun n => decide (n.due ≤ c.now)
  ({ c with
    notes := c.notes.filter fun n => decide (c.now < n.due)
    arch := due.foldl (fun a n => a.notify n.slot n.tag) c.arch } : Core).wake

/-- The pass whose detection cycle is `t` (R94). -/
def MxOp.detectAt (o : MxOp) (t : Nat) : Option Nat :=
  if o.p = 0 then none
  else if o.df = 1 then (if o.detect 0 = t then some 0 else none)
  else
    match schedAt t (o.detect 0) (128 * o.r) (128 * o.r) with
    | some (p, _) => if p < o.p then some p else none
    | none => none

/-- An operation is judged in cycle `t`: a detection cycle, or in OS the cycle in which a part's lanes are compared (R94, R106). -/
def MxOp.judgedAt (o : MxOp) (t : Nat) : Bool :=
  (o.detectAt t).isSome || (o.df == 1 && o.p != 0 && o.parts.any fun q => decide (o.compareAt q = t))

/-- A mismatching row's cycle is a detection cycle that replays an overflow: the mismatch is not counted (R108). -/
def MxOp.overflowFirst (o : MxOp) (t : Nat) : Bool :=
  let u := (o.stepRows t none).1
  match u.detectAt t with
  | some p => u.overflowed p && u.canReplay
  | none => false

/-- A faulty row as it counts in the current cycle of a core (R108). -/
def Core.counted (c : Core) (faulty : Option FaultyRow) : Option FaultyRow :=
  if faulty.isSome && c.mxq.any fun o => (o.stepRows c.now faulty).2.2.isSome && o.overflowFirst c.now then none else faulty

/-- Everything core k writes in its current cycle (R136, R143): slot operations, tile rows, tile exponents, notifications; those of a
logical core that rotates are held (R236). -/
def State.stageLand (s : State) (k : CoreId) (faulty : Option FaultyRow) : State :=
  let c := s.core k
  let rows := c.mxq.map fun o => o.stepRows c.now (c.counted faulty)
  let ws := c.dueWrites ++ rows.flatMap fun r => r.2.1.map fun w => (SlotId.matrix, w)
  let s := s.updCore k fun c =>
    { c.bumpFence with
      stage := 1
      landedLoads := c.dueLoads
      mxq := rows.map (·.1)
      inflight := c.inflight.filter fun o => decide (o.land ≠ c.now) }
  let s := s.landAll k ws
  let s := s.beginOps k
  let s := if s.rotating k then s else s.updCore k Core.dueNotes
  match rows.find? fun r => r.2.2.isSome with
  | some (o, _, some (i, p, m)) => s.startCheck k o i p m
  | _ => s

/-! ### Stage 2: detection cycles -/

/-- The parts that pass `p` has made infinite mark OVFINF on their tiles and cores (R96). -/
def State.setOvfinf (s : State) (o : MxOp) (p : Nat) : State :=
  o.parts.foldl (fun s q =>
    if o.partOverflowed q p then
      (s.updArch q.core fun a => a.updTile q.tile fun m => { m with ovfinf := true }).updCore q.core fun c => c.flag OVFINF
    else s) s

/-- Overflows of passes 0 to `n` - 1 that no replay takes, marked on the operation, its tiles and cores (R96). -/
def State.markPasses (s : State) (o : MxOp) : Nat → State × MxOp
  | 0 => (s, o)
  | n + 1 =>
    let r := s.markPasses o n
    (r.1.setOvfinf r.2 n, r.2.markOvf n)

/-- One overflow replay of operation `o` at the detection cycle of pass `p`, for an overflow found in pass `pd`, after `times` others made
in this cycle (R95, R96, R98). Each has its own hold (R99, R106). A rerun that overflows and may be replayed again is followed by the
next one; overflows that no replay takes are marked. -/
def State.overflowStep (s : State) (k : CoreId) (o : MxOp) (p pd times : Nat) : State :=
  let now := (s.core k).now
  let u := s.wrAll ((s.core k).undoLater o.id)
  let r := u.overflowRun o p (times != 0)
  let x := if r.2.isSome then (s, r.1)
    else
      let y := s.markPasses r.1 (p + 1)
      (y.1, y.2.goOn p now)
  x.1.setReplay k x.2 (u.presentAll x.2 now (times + 1))
    { check := false, left := replayHold o false pd, ops := [], writes := [], teo := [], op := o.id, part := 0, pass := p, row := 0,
      detect := p, times := times + 1, again := r.2 }

/-- The row of an OS operation whose check lanes fail in cycle `t`, among the parts that are compared in it (R106). -/
def MxOp.osMismatch (o : MxOp) (t : Nat) (faulty : Option FaultyRow) : Option FaultyRow :=
  match faulty with
  | none => none
  | some f =>
    match o.parts[f.part]? with
    | none => none
    | some q =>
      if o.compareAt q = t ∧ f.row < o.rows ∧ o.rowMismatch f.part q 0 f.row (faultyStates q f.lanes) = true then some f else none

/-- An operation judged at a detection cycle or where its lanes are compared (R94-R96, R98, R106, R108): in OS the rows of a part are
computed here and their lanes compared, once. -/
def State.judgeOp (s : State) (k : CoreId) (o : MxOp) (faulty : Option FaultyRow) : State :=
  let now := (s.core k).now
  let due (q : MxPart) : Bool := o.df == 1 && decide (o.compareAt q = now) && (Sparse.find q.done (rowKey 0 0)).isNone
  let fresh := o.parts.any due
  let o := if fresh then o.runParts 0 due else o
  let s := s.updCore k fun c => { c with mxq := replaceOp c.mxq o }
  let hit := (o.detectAt now).filter fun p => o.overflowed p
  match hit.filter fun _ => o.canReplay with
  | some p => s.overflowStep k o p p 0
  | none =>
    match if fresh && !o.chkrep then o.osMismatch now faulty else none with
    | some f => s.startCheck k o f.part 0 f.row
    | none =>
      match hit with
      | some p => (s.setOvfinf o p).updCore k fun c => { c with mxq := replaceOp c.mxq (o.markOvf p) }
      | none => s

/-- The detection cycles that fall in the current cycle of core k. -/
def State.stageJudge (s : State) (k : CoreId) (faulty : Option FaultyRow) : State :=
  let c := s.core k
  let s := c.mxq.foldl (fun s o =>
    if (s.core k).hold.isSome then s
    else
      if o.judgedAt c.now then s.judgeOp k o faulty else s) s
  if (s.core k).hold.isSome then s else s.updCore k fun c => { c with stage := 2 }

/-! ### Stage 3: matrix landings and reads -/

/-- A landed operation's marks on one part (R87, R93). `rest` are the operations left. -/
def State.landPart (s : State) (o : MxOp) (rest : List MxOp) (q : MxPart) : State :=
  let stillArmed := rest.any fun x => x.arm && x.parts.any fun y => y.core == q.core && y.tile == q.tile
  let stillImage := rest.any fun x => x.arm && x.parts.any fun y => y.core == q.core && y.tile == q.tile
  let s := s.updArch q.core fun a => a.updTile q.tile fun m =>
    { m with replays := BitVec.ofNat 2 o.replays, chkrep := o.chkrep, ovfinf := q.ovfinf,
             armed := if o.arm then stillArmed else m.armed }
  if o.arm then s.updArch q.core fun a => a.updTile (q.tile + 1) fun m => { m with image := stillImage } else s

/-- A chain core released when its Relay operation has landed or ended (R76): it goes on in the program cycle in which its
hold began. [DESIGN CHOICE: log 83] -/
def State.releaseChain (s : State) (k : CoreId) (o : MxOp) : State :=
  if o.relay then
    o.parts.foldl (fun s q => if q.core = k then s else s.updCore q.core fun c => { c with relay := .none }) s
  else s

/-- B' + O' of the last of a core's accepted operations that are left; 0 where there is none (R69). -/
def lastEnd (l : List MxOp) : Nat :=
  match l.getLast? with
  | some o => o.b + o.o
  | none => 0

/-- Operations whose landing cycle is the current one leave the array. -/
def State.landOps (s : State) (k : CoreId) : State :=
  let c := s.core k
  c.mxq.foldl (fun s o =>
    if o.land ≤ c.now then
      let rest := (s.core k).mxq.filter fun x => x.id != o.id
      let s := s.updCore k fun c => { c with mxq := rest }
      (o.parts.foldl (fun s q => s.landPart o rest q) s).releaseChain k o
    else s) s

/-- An array write of image rows: it stands over a slot's write of the cycle, and WCOLL is set (R71, R93). [DEDUCED: log 23]
-/
def State.writeImages (s : State) (k : CoreId) (ws : List (Nat × List Byte)) : State :=
  let hit := (s.core k).arrayMeets k ws []
  (s.wrAll ws).updCore k fun c => { (if hit then c.flag WCOLL else c) with images := c.images ++ ws }

/-- The array's reads of the current cycle, and the image rows written beside them (R70, R93). -/
def State.readOps (s : State) (k : CoreId) : State :=
  let c := s.core k
  let rs := c.mxq.map fun o => s.readOp o c.now
  (s.updCore k fun c => { c with mxq := rs.map (·.1) }).writeImages k (rs.flatMap (·.2))

/-- The slots' memory reads of the current cycle, those of operations issued two cycles before (R137). They are made at the
cycle's end,
and before a hold as a lent core, so that they see what an operation accepted in the cycle records (R71, R87, R88). -/
def State.readSlots (s : State) (k : CoreId) : State :=
  let c := s.core k
  s.updCore k fun c' =>
    { c' with inflight := c'.inflight.map fun o =>
        match o.body with
        | .read r => if o.issue + 2 = c.now then { o with body := .writes (s.doRead k r) } else o
        | .writes _ => o }

/-! ### Bank conflicts (R140, R209, R210) -/

/-- The banks of the Basin or Cistern that bytes at a device address touch, marked apart by memory. -/
def State.banks (s : State) (k : CoreId) (a n : Nat) : List Nat :=
  match s.reachByte k a with
  | .basin => (List.range ((a % 64 + n + 63) / 64)).map fun i => ((a - basinBase k) / 64 + i) % 32
  | .cistern => (List.range ((a % 128 + n + 127) / 128)).map fun i => 32 + ((a - cisternBase k) / 128 + i) % 32
  | _ => []

/-- The banks that slot accesses read in the current cycle, one list per access. -/
def State.slotReadBanks (s : State) (k : CoreId) : List (List Nat) :=
  let c := s.core k
  c.inflight.filterMap fun o =>
    if o.issue + 2 = c.now then
      match o.body with
      | .read (.load _ _ a n) => some (s.banks k a n)
      | .read (.vec op p _) =>
        let rows := (op.reads p (tileWidth c.arch.layout)).flatMap fun r => s.banks k r.1 r.2
        match op with
        | .out _ _ _ tile trow _ _ =>
          some (rows ++ s.banks k (tileAddr k c.arch.layout tile.toNat trow.toNat 0)
            (tileWidth c.arch.layout * elemBytes c.arch.layout))
        | .pace _ _ _ _ off => some (s.banks k (slotAddr p.sa off) 16)
        | _ => some rows
      | _ => none
    else none

/-- The banks a write touches. -/
def State.writeBanks (s : State) (k : CoreId) (w : Wr) : List Nat :=
  match w with
  | .mem a bs => s.banks k a bs.length
  | _ => []

/-- The Basin bytes of `n` elements of an operand and of their fine exponents, as offset and length: delivered row `i` from column
`j` on, or with `col` delivered column `j` from row `i` on (R64, R65). Along a stored row they lie side by side. -/
def Operand.lines (o : Operand) (col : Bool) (i j n : Nat) : List (Nat × Nat) :=
  let bits := fmtBits o.fs.fmt
  let si := if o.turned then j else i
  let sj := if o.turned then i else j
  if n = 0 then []
  else if col = o.turned then
    (o.base + si * o.pitch + sj * bits / 8, (n * bits + 7) / 8) ::
      (if !o.fs.finePlane then []
       else if o.fs.blockAxis = 0 then [(o.fbase + si * o.fpitch + sj / 32, (sj + n - 1) / 32 - sj / 32 + 1)]
       else [(o.fbase + si / 32 * o.fpitch + sj, n)])
  else
    (List.range n).flatMap fun d =>
      (o.base + (si + d) * o.pitch + sj * bits / 8, (bits + 7) / 8) ::
        (if !o.fs.finePlane then []
         else if o.fs.blockAxis = 0 then [(o.fbase + (si + d) * o.fpitch + sj / 32, 1)]
         else [(o.fbase + (si + d) / 32 * o.fpitch + sj, 1)])

/-- The Basin bytes of a sub-problem's held operand that a part reads in cycle `t` (R70). -/
def MxOp.heldLines (o : MxOp) (q : MxPart) (b : MxSub) (t : Nat) : List (Nat × Nat) :=
  let x := b.heldOp o.df
  let sh := if x.turned then 8 else 0
  if o.df = 1 then
    match schedAt (t + sh + 4) (o.b + q.delay) (128 * o.r * (o.p + 1)) o.r with
    | some (0, i) => if i < b.k then x.lines false i 0 b.ext else []
    | _ => []
  else
    match schedAt (t + sh + 132) (o.b + q.delay) (128 * o.r) 1 with
    | some (p, r) =>
      let i := b.h * p + (r - b.row0)
      if p < o.p ∧ r < 128 ∧ b.row0 ≤ r ∧ r < b.row0 + b.h ∧ i < b.k then
        (if o.df = 2 then x.lines true 0 i b.ext else x.lines false i 0 b.ext)
      else []
    | none => []

/-- The Basin bytes of a sub-problem's streamed operand that the lead reads in cycle `t` (R70). -/
def MxOp.strmLines (o : MxOp) (b : MxSub) (t : Nat) : List (Nat × Nat) :=
  let x := b.strmOp o.df
  let sh := if x.turned then 8 else 0
  if o.df = 1 then
    match schedAt (t + sh + 4) o.b (128 * o.r * (o.p + 1)) o.r with
    | some (0, i) => if i < b.k then x.lines true 0 i o.rows else []
    | _ => []
  else
    match schedAt (t + sh + 4) o.b (128 * o.r) o.r with
    | some (p, m) =>
      if p < o.p ∧ m < o.rows then
        let n := min b.h (b.k - b.h * p)
        (if o.df = 2 then x.lines true (b.h * p) m n else x.lines false m (b.h * p) n)
      else []
    | none => []

/-- The banks that an operation reads on core k in its current cycle: operand rows and columns, fine exponents, tile rows (R80,
R209). -/
def State.opReadBanks (s : State) (k : CoreId) (o : MxOp) : List Nat :=
  let t := (s.core k).now
  o.parts.flatMap fun q =>
    if q.core ≠ k then []
    else
      let tile := match o.entryAt q t with
        | some (_, m) => s.banks k (tileAddr k q.layout q.tile.val m 0) (tileWidth q.layout * elemBytes q.layout)
        | none => []
      let lines := q.subs.flatMap fun b => o.heldLines q b t ++ if q.delay = 0 then o.strmLines b t else []
      tile ++ lines.flatMap fun x => s.banks k (basinBase k + x.1) x.2

/-- The banks the array reads in the current cycle. -/
def State.arrayReadBanks (s : State) (k : CoreId) : List Nat := (s.core k).mxq.flatMap fun o => s.opReadBanks k o

/-- Hold cycles for one kind of port: on the most contended bank, one per slot access beyond the first granted, the array first
(R210). -/
def portHold (array : List Nat) (slots : List (List Nat)) : Nat :=
  (List.range 64).foldl (fun h b =>
    let n := (slots.filter fun l => l.contains b).length
    let wait := if array.contains b then n else n - 1
    max h wait) 0

/-- The hold cycles of the current cycle's bank conflicts: reads and writes wait at the same time, so the longer counts (R140). -/
def State.bankHolds (s : State) (k : CoreId) : Nat :=
  let c := s.core k
  let aw := (c.landed.filter fun w => w.1 == .matrix).flatMap fun w => s.writeBanks k w.2
  let sw := (c.landed.filter fun w => w.1 != .matrix).map fun w => s.writeBanks k w.2
  max (if c.slotReads.isEmpty then 0 else portHold (s.arrayReadBanks k) c.slotReads) (if sw.isEmpty then 0 else portHold aw sw)

/-! ### The matrix slot (R68-R72, R76, R82) -/

/-- An operation accepted in the current cycle of core k (R69, R82). Its reads of this cycle take their bank ports too (R210). -/
def State.acceptOp (s : State) (k : CoreId) (a : MxArgs) (bidx : BIdx) (rows : Nat) (packed relay : Bool)
    (parts : List MxPart) : State :=
  let c := s.core k
  let o := buildOp c.mxSerial c.now c.lastBO bidx a rows packed relay parts
  let s := parts.foldl (fun s q =>
    let x := (q.subs.head?.map fun b => b.x.fs.coarse).getD 0
    let w := (q.subs.head?.map fun b => b.w.fs.coarse).getD 0
    let hit := a.start != 0 && (s.core q.core).metaCollides q.tile
    let s := s.updArch q.core fun ar => ar.acceptMeta q.tile a.start a.arm x w
    if hit then s.updCore q.core fun c => c.flag WCOLL else s) s
  let (o, imgs) := s.readOp o c.now
  let before := s.bankHolds k
  let s := s.updCore k fun c => { c with mxq := c.mxq ++ [o], lastBO := o.b + o.o, mxSerial := c.mxSerial + 1 }
  let more := s.bankHolds k - before
  (s.updCore k fun c => { c with bankHold := c.bankHold + more }).writeImages k imgs

/-- A tile index as a number below 64. -/
def tileIdx (t : BitVec 6) : Fin 64 := ⟨t.toNat, t.isLt⟩

/-- The part of an operation on its own core. -/
def State.ownPart (s : State) (k : CoreId) (tile : BitVec 6) (subs : List MxSub) : MxPart :=
  ⟨k, tileIdx tile, (s.core k).arch.layout, 0, subs, [], [], [], [], false⟩

/-- A judged operation of one core taken in the current cycle, or its bits set (R82). -/
def State.takeJudged (s : State) (k : CoreId) (a : MxArgs) (bidx : BIdx) (j : Judged) : State :=
  if j.bits ≠ 0 then s.updCore k fun c => c.flag j.bits
  else s.acceptOp k a bidx j.rows (decide (0 < j.desc.pack)) false [s.ownPart k a.tile j.subs]

/-- MMUL started in the current cycle of core k (R69, R82). -/
def State.startMmul (s : State) (k : CoreId) (a : MxArgs) : State :=
  s.takeJudged k a (s.core k).arch.seq.pc (s.judgeMatrix k false a ((s.core k).descOff a.dreg a.doff))

/-- The sequencer of a core that has waited in Relay mode goes on in the cycle after the current one. -/
def Core.relayResume (c : Core) : Core :=
  let t := c.now + 1
  match c.arch.seq.phase with
  | .issuing a => c.setPhase (.issuing (max a t))
  | .gap a => c.setPhase (.gap (max a t))
  | .bubble a => c.setPhase (.bubble (max a t))
  | .fence a => c.setPhase (.fence (max a t))
  | .halting a => c.setPhase (.halting (max a t))
  | _ => c

/-- The wait of MRELAY for its own array ends in the current cycle, its issue cycle: the descriptor is read and judged (R63, R72,
R76). A rejected operation sets its bits; a chain of one core runs as an ordinary operation; a longer one holds for its chain. -/
def State.endLeadWait (s : State) (k : CoreId) : State :=
  match (s.core k).relay with
  | .waiting a off bidx =>
    if (s.core k).mxq.isEmpty then
      let j := s.judgeMatrix k true a off
      if j.bits = 0 ∧ 1 < (chainCores j.desc.relayMask).length then
        s.updCore k fun c => { c with relay := .lead a (s.rd (basinBase k + off) 64) bidx }
      else (s.updCore k fun c => ({ c with relay := .none } : Core).relayResume).takeJudged k a bidx j
    else s
  | _ => s

/-- MRELAY started in the current cycle of core k. Its `RELAY_MASK` is looked at: a chain of one core runs as an ordinary operation;
a longer one waits for its array, and its descriptor is read and judged at the end of the wait (R75, R76). An operation whose descriptor
cannot be read is rejected now. [DESIGN CHOICE: log 84] -/
def State.startMrelay (s : State) (k : CoreId) (a : MxArgs) : State :=
  let c := s.core k
  let off := c.descOff a.dreg a.doff
  let j := s.judgeMatrix k true a off
  if off % 64 ≠ 0 ∨ basinSize < off + 64 ∨ (chainCores j.desc.relayMask).length = 1 then s.takeJudged k a c.arch.seq.pc j
  else (s.updCore k fun c => { c with relay := .waiting a off c.arch.seq.pc }).endLeadWait k

/-- A member's wait has ended: it holds, lent, from the current cycle on (R76). -/
def Core.lentNow (c : Core) : Bool :=
  match c.relay with
  | .member _ _ _ _ => c.mxq.isEmpty
  | _ => false

/-- MLEND started in the current cycle of core k (R76, R82, R109, R190): its descriptor is read now. [DEDUCED: log 26] -/
def State.startMlend (s : State) (k : CoreId) (dreg : Reg) (doff : BitVec 19) (tile : BitVec 6) (lead : Fin 16) : State :=
  let c := s.core k
  let off := c.descOff dreg doff
  let bits := mxBad (lead == localOf k) ||| mxBad (decide (off % 64 ≠ 0 ∨ basinSize < off + 64)) |||
    mxBad (decide (usableTiles c.arch.layout ≤ tile.toNat)) ||| (if 4 ≤ c.places then MQFULL else 0)
  if bits ≠ 0 then s.updCore k fun c => c.flag bits
  else
    let s := s.updCore k fun c =>
      { c with relay := .member (coreAt (dieOf k) lead) tile (s.rd (basinBase k + off) 64) c.arch.seq.pc }
    if (s.core k).lentNow then s.readSlots k else s

/-- A matrix-slot operation started in the current cycle of core k. -/
def State.startMatrix (s : State) (k : CoreId) : MatOp → State
  | .mmul a => s.startMmul k a
  | .mrelay a => s.startMrelay k a
  | .mlend dreg doff tile lead => s.startMlend k dreg doff tile lead

/-! ### Stage 3 and the sequencer's phases -/

/-- Where bundle 8,192 would issue the sequencer stops with PC_END (R134). -/
def Core.stopPast (c : Core) : Core :=
  match c.arch.seq.phase with
  | .issuing a => if a ≤ c.now ∧ c.arch.seq.past = true then c.stopSeq 0x04 else c
  | _ => c

/-- The sequencer leaves gap cycles, with the loop-end test after them (R133, R151), and bubbles (R149) whose end is the current cycle,
a FENCE in the cycle after the last landing (R155), stops after a HALT's fence (R156) and past bundle 8,191 (R134). -/
def Core.stepPhase (c : Core) : Core :=
  match c.arch.seq.phase with
  | .gap a => (if a ≤ c.now then c.flowNext a Phase.issuing else c).stopPast
  | .bubble a => (if a ≤ c.now then c.setPhase (.issuing a) else c).stopPast
  | .fence a => (if a ≤ c.now ∧ c.quiet = true then c.setPhase (.issuing c.now) else c).stopPast
  | .halting a => if a ≤ c.now ∧ c.quiet = true then c.stopSeq 0x01 else c
  | .issuing _ => c.stopPast
  | _ => c

/-- Landings of matrix operations and the reads of the current cycle. -/
def State.stageRead (s : State) (k : CoreId) : State :=
  let s := (s.landOps k).updCore k fun c => { c with slotReads := s.slotReadBanks k }
  let h := s.bankHolds k
  let s := s.readOps k
  let s := ((s.updCore k fun c => ({ c with stage := 3, bankHold := c.bankHold + h }).stepPhase).endLeadWait k)
  if (s.core k).lentNow then s.readSlots k else s

/-! ### The cycle -/

/-- Landings of the current cycle, where they have not been made. -/
def State.toLand (s : State) (k : CoreId) (faulty : Option FaultyRow) : State :=
  if (s.core k).stage = 0 ∧ (s.core k).hold.isNone then s.stageLand k faulty else s

/-- The current cycle up to its detection cycles. -/
def State.toJudge (s : State) (k : CoreId) (faulty : Option FaultyRow) : State :=
  let s := s.toLand k none
  if (s.core k).stage = 1 ∧ (s.core k).hold.isNone then s.stageJudge k faulty else s

/-- Everything of the current cycle but an issue. A core in a replay's hold stands still. -/
def State.settle (s : State) (k : CoreId) : State :=
  let s := s.toJudge k none
  if (s.core k).stage = 2 ∧ (s.core k).hold.isNone then s.stageRead k else s

/-- Bundle `PC` is to issue in the current cycle. -/
def Core.issueDue (c : Core) : Bool :=
  match c.arch.seq.phase with
  | .issuing a => decide (a ≤ c.now) && c.relay == .none && c.farWait.isEmpty
  | _ => false

/-- The current cycle is spent in a wait (R135, R161): no bundle has issued in it, and it is no gap cycle and no bubble. The cycle in
which a notification arrives is the last one of its wait (R154). -/
def Core.waiting (c : Core) : Bool :=
  !c.issued &&
    (c.relay != .none ||
      (match c.arch.seq.phase with
       | .stopped => false
       | .gap _ => false
       | .bubble _ => false
       | _ => true))

/-- The current cycle ends: its sticky bits show, the next cycle begins, and `CYC` counts it while the sequencer runs (R135,
R159). -/
def Core.endCycle (c : Core) : Core :=
  { c with
    arch := { c.arch with
      sticky := c.arch.sticky ||| c.stickyNew
      seq := { c.arch.seq with cyc := if c.running then c.arch.seq.cyc + 1 else c.arch.seq.cyc } }
    stickyNew := 0, stage := 0, landed := [], landedLoads := [], images := [], slotReads := [], issued := false, bankHold := 0, now := c.now + 1
    launch := if c.waiting then c.launch.map fun l => { l with lastWait := c.now } else c.launch }

/-- `ISSUED` has reached the stop count N (R161). -/
def Core.prefixDue (c : Core) : Bool :=
  c.running &&
    (match c.launch with
     | some l => l.stopN != 0 && l.stopN == c.arch.seq.issued
     | none => false)

/-- The entry of a discarded operation (R163). [DEDUCED: log 20] -/
def dumpEntry (now land : Nat) (slot : SlotId) (b : BIdx) : Word :=
  BitVec.ofNat 64 ((min (land - now) 0xFFFFFFFF) <<< 32 + slot.code <<< 16 + b.toNat)

/-- A pair put into a list that rises by its first part, after its equals. -/
def insertKey (x : Nat × Word) : List (Nat × Word) → List (Nat × Word)
  | [] => [x]
  | y :: l => if x.1 < y.1 then x :: y :: l else y :: insertKey x l

/-- A list of pairs in rising order of their first parts, equals in the order they came. -/
def sortKeys (l : List (Nat × Word)) : List (Nat × Word) := l.foldl (fun acc x => insertKey x acc) []

/-- The operations that EDGE discards, with their issue cycle and entry, in issue order and in a bundle in the order of the
slot
codes (R161, R163). [DEDUCED: log 20] -/
def Core.discarded (c : Core) (w : Nat) : List (Nat × Word) :=
  let a := (c.inflight.filter fun o => decide (w ≤ o.issue)).map fun o =>
    (8 * o.issue + o.slot.code, dumpEntry c.now o.land o.slot o.bidx)
  let m := (c.mxq.filter fun o => decide (w ≤ o.c)).map fun o =>
    (8 * o.c + SlotId.matrix.code, dumpEntry c.now o.land .matrix o.bidx)
  sortKeys (a ++ m)

/-- The bundle of a MRELAY or MLEND that is still in its wait. -/
def RelaySt.waits : RelaySt → Option BIdx
  | .waiting _ _ b => some b
  | .member _ _ _ b => some b
  | _ => Option.none

/-- The cycle in which the wait of a core for its own array ends: the last landing of its accepted operations (R76). -/
def Core.ownArrayEnd (c : Core) : Nat := c.mxq.foldl (fun m o => max m o.land) c.now

/-- The landing cycle of a MRELAY in its wait, as its descriptor stands: that of its operation issued at the end of the wait (R69, R76,
R77), on a chain of the cores that its mask names; a rejected one ends there. [DEDUCED: log 85] -/
def State.relayLanding (s : State) (k : CoreId) (a : MxArgs) (off : Nat) : Nat :=
  let c := s.core k
  let j := s.judgeMatrix k true a off
  if j.bits &&& ~~~MQFULL ≠ 0 then c.ownArrayEnd
  else
    let n := (chainCores j.desc.relayMask).length
    let ext := if a.df = 2 then j.desc.mExt else j.desc.nExt
    let own := s.ownPart k a.tile [⟨0, 128, 0, min 256 ext, j.desc.k, j.desc.x, j.desc.w⟩]
    (buildOp 0 c.ownArrayEnd c.lastBO 0 a j.rows false true (List.replicate n own)).land

/-- The landing cycle of a MRELAY or MLEND that is still in its wait: an MLEND waits for its own array and lands nothing of
its own. [DEDUCED: log 85] -/
def State.waitLanding (s : State) (k : CoreId) : Nat :=
  match (s.core k).relay with
  | .waiting a off _ => s.relayLanding k a off
  | _ => (s.core k).ownArrayEnd

/-- A MRELAY or MLEND of bundle N that is still in its wait is discarded with the rest (R161, R163). [DEDUCED: log 85] -/
def State.dropWaiting (s : State) (k : CoreId) : State × List (Nat × Word) :=
  match (s.core k).relay.waits with
  | none => (s, [])
  | some b =>
    let c := s.core k
    (s.updCore k fun c => { c with relay := .none },
     [(8 * c.now + SlotId.matrix.code, dumpEntry c.now (s.waitLanding k) .matrix b)])

/-- The prefix stop of core k at the end of cycle c_N (R161): the flow of bundle N acts; LAND lets work land; EDGE discards every later
write of operations issued after the last wait cycle, clears the marks of discarded matrix operations and records them. -/
def State.prefixStop (s : State) (k : CoreId) : State :=
  let c := s.core k
  match c.launch with
  | none => s
  | some l =>
    let s := s.updCore k fun c =>
      (match c.arch.seq.phase with
       | .gap a => c.flowNext a Phase.issuing
       | _ => c).stopSeq 0x02
    if l.edge then
      let gone := c.mxq.filter fun o => decide (l.lastWait ≤ o.c)
      let rest := c.mxq.filter fun o => decide (o.c < l.lastWait)
      let w := s.dropWaiting k
      let entries := (sortKeys (c.discarded l.lastWait ++ w.2)).map (·.2)
      let s := w.1.updCore k fun c => { c with
        inflight := c.inflight.filter fun o => decide (o.issue < l.lastWait)
        mxq := rest
        lastBO := lastEnd rest
        dump := BitVec.ofNat 64 entries.length :: entries }
      gone.foldl (fun s o =>
        ((if o.arm then
            o.parts.foldl (fun s q =>
              (s.updArch q.core fun a => a.updTile q.tile fun m => { m with armed := false }).updArch q.core fun a =>
                a.updTile (q.tile + 1) fun m => { m with image := false }) s
          else s) : State).releaseChain k o) s
    else s.updCore k fun c => { c with dump := [0] }

/-- Core k at the end of the current cycle, where no bundle has still to issue in it and no hold stands: watches on its counters
are judged (R196, R223). -/
def State.passCycle (s : State) (k : CoreId) : State :=
  let s := s.settle k
  if (s.core k).held then s
  else
    let s := if (s.core k).prefixDue then s.prefixStop k else s
    if (s.core k).issueDue then s else ((((s.readSlots k).startWaiting k).judge k).updCore k Core.endCycle).noteDeps

/-- At most `n` cycles of core k pass. -/
def State.passCycles (s : State) (k : CoreId) : Nat → State
  | 0 => s
  | n + 1 => (s.passCycle k).passCycles k n

/-- Core k brought to program cycle `t`, as far as no bundle has to issue and no hold begins before it. [DESIGN CHOICE: log
12] -/
def State.runTo (s : State) (k : CoreId) (t : Nat) : State := s.passCycles k (t - (s.core k).now)

/-- An event of core k whose cycle is `t`: it happens there if nothing of the core comes before it. [DESIGN CHOICE: log 12] -/
def State.atCycle (s : State) (k : CoreId) (t : Option Nat) (f : State → State) : State :=
  match t with
  | none => s
  | some t =>
    let s' := s.runTo k t
    if (s'.core k).now = t ∧ (s'.core k).held = false then f s' else s

/-- The least of a list. -/
def leastOf : List Nat → Option Nat
  | [] => none
  | a :: l => match leastOf l with
    | none => some a
    | some b => some (min a b)

end Sys2Proof.Machine
end

