-- ==== Sys2Proof/Machine/Hbm.lean ====
section
/-! DEFINITION. Bibs and blocks (R325-R330), frames and stacks (R396-R413), block reads and writes of every memory, and the rows
of the HBM controllers. -/

namespace Sys2Proof.Machine

/-! ### Bibs (R325, R326) -/

/-- One bit of CRC-32C, reflected. -/
def crcBit (c : BitVec 32) : BitVec 32 := if c.getLsbD 0 then (c >>> 1) ^^^ 0x82F63B78 else c >>> 1

/-- One byte of CRC-32C. -/
def crcByte (c : BitVec 32) (b : Byte) : BitVec 32 :=
  crcBit (crcBit (crcBit (crcBit (crcBit (crcBit (crcBit (crcBit (c ^^^ b.zeroExtend 32))))))))

/-- CRC-32C (R326). [PRESUMED: log 78] -/
def crc32c (bs : List Byte) : BitVec 32 := ~~~(bs.foldl crcByte 0xFFFFFFFF)

/-- A bib (Table: Bib). -/
def mkBib (tag : BitVec 12) (idx : Nat) (crc : BitVec 32) : Word := tag ++ (BitVec.ofNat 20 idx ++ crc)

def bibCrc (b : Word) : BitVec 32 := b.extractLsb' 0 32
def bibIdx (b : Word) : BitVec 20 := b.extractLsb' 32 20
def bibTag (b : Word) : BitVec 12 := b.extractLsb' 52 12

/-- A bib with its `CRC` field inverted (R330). -/
def invertCrc (b : Word) : Word := b ^^^ 0xFFFFFFFF

/-- The `CRC` of 4,096 bytes of zero. -/
def zeroCrc : BitVec 32 := crc32c (List.replicate 4096 0)

/-- A digest contribution (R341): CRC x (2p + 1). -/
def digestTerm (p : Nat) (crc : BitVec 32) : Word := BitVec.ofNat 64 (crc.toNat * (2 * p + 1))

/-! ### Frames and stacks (R397-R401) -/

/-- Where a codeword lies in its stack (Table: Stack offset decode, R399). -/
structure StackLoc where
  channel : Nat
  column : Nat
  bank : Nat
  row : Nat
  deriving DecidableEq, Repr

/-- The place of codeword `C` of a stack (R399). -/
def stackLoc (c : Nat) : StackLoc := ⟨c % 32, c / 2 ^ 5 % 32, (c / 2 ^ 10 % 64) ^^^ (c / 2 ^ 16 % 64), c / 2 ^ 16 % 2 ^ 14⟩

/-- The lane that carries a symbol of a codeword, and the memory die that drives a lane (R395, R396): data lane k symbol k, check lane i
symbol 64 + i; data die j lanes 4j to 4j + 3, the check dies 16 and 17 the check lanes. -/
def symbolLane (k : Fin 72) : Fin 72 := k
def laneDie (l : Fin 72) : Nat := l.val / 4

/-- The codeword of a stack that holds codeword `i` of block `sb`: its data, its bib (at 0xF_F000_0000 + 8 sb), or its poison mark (bit sb mod 8
of the byte at 0xF_F7F8_0000 + sb / 8) (R399, R401). -/
def codewordAt (sb : Nat) (i : CwNo) : Nat :=
  if i.val < 64 then 64 * sb + i.val
  else if i.val = 64 then (0xFF0000000 + 8 * sb) / 64
  else (0xFF7F80000 + sb / 8) / 64

/-- The frames of the grade. -/
def State.frameCount (s : State) : Nat := s.hbmTop / 2 ^ 30

/-- The device address of a stack offset in a frame, where the frame holds it. -/
def State.addrIn (s : State) (st : StackId) (off : Nat) (nf : Nat × Frame) : Option Nat :=
  let f := nf.2
  let n := s.frameStacks f
  let base := f.fslice.toNat * 2 ^ 25
  let q := (off - base) / 4096
  if off < base ∨ 2 ^ 30 ≤ q * n * 4096 ∨ (f.fmode = false ∧ st.val / 8 ≠ f.fdie.toNat) then none
  else
    let sel := if f.fmode then st.val else st.val % 8
    some (nf.1 * 2 ^ 30 + (q * n + (sel ^^^ (q % n))) * 4096 + off % 4096)

/-- The device address whose byte lies at a stack offset. -/
def State.addrOf (s : State) (st : StackId) (off : Nat) : Option Nat := s.frames.findSome? (s.addrIn st off)

/-- The compute die at which a device address lies (R12, R27). -/
def State.dieAt (s : State) (a : Nat) : Option DieId :=
  match s.place a with
  | .hbm => (s.stackAt a).map fun x => dieOfStack x.1
  | .basin k _ => some (dieOf k)
  | .cistern k _ => some (dieOf k)
  | .istore k _ => some (dieOf k)
  | _ => none

/-- The port of the core whose memory holds an address is not isolated (R353). -/
def State.portOpen (s : State) (a : Nat) : Bool :=
  match s.place a with
  | .basin k _ => !s.underTest k
  | .cistern k _ => !s.underTest k
  | .istore k _ => !s.underTest k
  | _ => true

/-- A transfer between a core's die and a device address has its way: the same die, or both die links up (R14), to an open port. -/
def State.dieReaches (s : State) (d : DieId) (a : Nat) : Bool :=
  s.portOpen a &&
    (match s.dieAt a with
     | some t => s.path d t
     | none => true)

/-- A transfer between the hub and a device address has its way (R26, R353, R378, R383). -/
def State.hubReaches (s : State) (a : Nat) : Bool :=
  s.portOpen a &&
    (match s.dieAt a with
     | some t => s.hubDie t
     | none => true)

/-- A device address lies in a die that has stopped or is cut off (R26, R383). -/
def State.addrOut (s : State) (a : Nat) : Bool :=
  match s.dieAt a with
  | some t => s.dieOut t
  | none => false

/-- The port at which a transfer of die `d` meets a device address: its die's link towards another die, the stack's controller, or the
core's port (R14-R16). -/
def State.netPort (s : State) (d : DieId) (a : Nat) : Nat :=
  if s.dieAt a ≠ some d then 200
  else
    match s.place a with
    | .hbm => 100 + ((s.stackAt a).map fun x => x.1.val).getD 0
    | .basin k _ => k.val
    | .cistern k _ => k.val
    | .istore k _ => k.val
    | _ => 200

/-- One stack changed. -/
def State.updStack (s : State) (st : StackId) (f : Stack → Stack) : State := { s with hbms := vupd s.hbms st f }

/-! ### Stored bibs and poison -/

/-- A fill holds a block. -/
def Fill.covers (f : Fill) (blk : Nat) : Bool := decide (f.first ≤ blk ∧ blk < f.first + f.blocks)

/-- The stored bib of an HBM block; a block never written has 0. [DESIGN CHOICE: log 38] -/
def State.hbmBib (s : State) (blk : Nat) : Word :=
  match Sparse.find s.bibs blk with
  | some b => b
  | none => match s.fills.find? fun f => f.covers blk with
    | some f => if f.void then 0 else mkBib f.tag (blk - f.first) zeroCrc
    | none => 0

/-- The poison mark of an HBM block (R330, R404). [DESIGN CHOICE: log 4] -/
def State.poisoned (s : State) (blk : Nat) : Bool :=
  (Sparse.find s.poison blk).isSome ||
    ((Sparse.find s.bibs blk).isNone && (match s.fills.find? fun f => f.covers blk with
      | some f => f.void
      | none => true))

/-- A block is poisoned (R330). -/
def State.setPoison (s : State) (blk : Nat) : State := { s with poison := Sparse.put s.poison blk () }

/-- An HBM block as a controller delivers it (R330, R402, R409): its data and bib. -/
def State.readHbm (s : State) (blk : Nat) : List Byte × Word :=
  if s.stackDead (4096 * blk) then (List.replicate 4096 0, invertCrc (s.hbmBib blk))
  else if s.poisoned blk then (s.rd (4096 * blk) 4096, invertCrc (s.hbmBib blk))
  else (s.rd (4096 * blk) 4096, s.hbmBib blk)

/-! ### Digest updates (R341, R345, R402) -/

/-- Who writes a block, as the step digest tells writers apart (R345). -/
inductive Writer where
  | core (k : CoreId)
  | baton
  | other
  deriving DecidableEq, Repr

/-- The running sums of an entry after a block's bib changes (R341). -/
def DigEntry.update (e : DigEntry) (blk : Nat) (old new : Word) : DigEntry :=
  let c (i : Nat) (w : Word) : Word := digestTerm (e.slot.toNat * 2 ^ 20 + i) (bibCrc w)
  let e := if e.first0 ≤ blk ∧ blk < e.first0 + e.blocks then
      { e with sum0 := e.sum0 + c (blk - e.first0) new - c (blk - e.first0) old } else e
  if e.alt = true ∧ e.first1 ≤ blk ∧ blk < e.first1 + e.blocks then
    { e with sum1 := e.sum1 + c (blk - e.first1) new - c (blk - e.first1) old }
  else e

/-- The part of a step digest that a writer's blocks go to. -/
def Writer.part : Writer → Option Nat
  | .core k => some k.val
  | .baton => some 64
  | .other => none

/-- The guard after a block's bib changes. -/
def Guard.wrote (g : Guard) (blk : Nat) (old new : Word) (w : Writer) : Guard :=
  let g := { g with list := g.list.map fun e => e.update blk old new }
  match w.part with
  | some p =>
    if g.twen then
      { g with twin := { g.twin with
          own := listUpd g.twin.own p fun x => x + digestTerm (bibIdx new).toNat (bibCrc new) } }
    else g
  | none => g

/-! ### Block writes (R402-R404) -/

/-- A whole-block write: data and bib stored, poison cleared, digests updated (R402). A stack out of service discards it
(R409). -/
def State.writeHbm (s : State) (blk : Nat) (data : List Byte) (bib : Word) (w : Writer) : State :=
  if s.stackDead (4096 * blk) then s
  else
    let old := s.hbmBib blk
    { (s.wr (4096 * blk) data) with
      bibs := Sparse.put s.bibs blk bib
      poison := Sparse.del s.poison blk
      guard := s.guard.wrote blk old bib w }

/-- A list of bytes written over a part of another. -/
def splice (l : List Byte) (off : Nat) (bs : List Byte) : List Byte := l.take off ++ bs ++ l.drop (off + bs.length)

/-- A write merged into its block by the controller (R403): a new `CRC`, `TAG` and `BIDX` kept; a block found poisoned or failing
its `CRC` is stored and stays poisoned. The bytes lie in one block. -/
def State.mergeHbm (s : State) (a : Nat) (bs : List Byte) (w : Writer) : State :=
  let blk := a / 4096
  if s.stackDead a then s
  else
    let old := s.rd (4096 * blk) 4096
    let bib := s.hbmBib blk
    let bad := s.poisoned blk || crc32c old != bibCrc bib
    let data := splice old (a % 4096) bs
    let s := s.writeHbm blk data (mkBib (bibTag bib) (bibIdx bib).toNat (crc32c data)) w
    if bad then s.setPoison blk else s

/-- Codeword writes merged one by one (R403). -/
def State.writeCodewords (s : State) (a : Nat) : Nat → List Byte → State
  | 0, _ => s
  | n + 1, bs => (s.mergeHbm a (bs.take 64) .other).writeCodewords (a + 64) n (bs.drop 64)

/-- Bytes written to HBM in whole aligned codewords, as the scheduler and the Clerk write them (R403). -/
def State.writeHbmBytes (s : State) (a : Nat) (bs : List Byte) : State := s.writeCodewords a ((bs.length + 63) / 64) bs

/-- Pairs of a map outside a range. -/
def outside {α : Type} (m : Sparse α) (lo hi : Nat) : Sparse α := m.filter fun e => !(decide (lo ≤ e.1 ∧ e.1 < hi))

/-- The blocks of a range that lie on a stack out of service: a write of them is discarded (R409). -/
def State.deadBlocks (s : State) (first n : Nat) : List Nat :=
  if s.hbms.any fun x => x.hstate == .outOfService then
    (List.range n).filterMap fun i => if s.stackDead (4096 * (first + i)) then some (first + i) else none
  else []

/-- The runs that a run over a range of blocks leaves in sight. -/
def Fill.without (l : List Fill) (first n : Nat) : List Fill :=
  l.filter fun f => !decide (first ≤ f.first ∧ f.first + f.blocks ≤ first + n)

/-- The Clerk's zero fill of a range of blocks (R404), but for blocks of a stack out of service (R409). -/
def State.zeroFill (s : State) (first n : Nat) (tag : BitVec 12) : State :=
  let dead := s.deadBlocks first n
  let hit (b c : Nat) : List Nat := (List.range c).filterMap fun i => if first ≤ b + i ∧ b + i < first + n then some (b + i) else none
  let blks := s.guard.list.flatMap fun e => hit e.first0 e.blocks ++ (if e.alt then hit e.first1 e.blocks else [])
  let g := (blks.eraseDups.filter fun b => !dead.contains b).foldl
    (fun g b => g.wrote b (s.hbmBib b) (mkBib tag (b - first) zeroCrc) .other) s.guard
  { s with
    mem := s.mem.filter fun e => !decide (4096 * first ≤ e.1 ∧ e.1 < 4096 * (first + n)) || dead.contains (e.1 / 4096)
    bibs := dead.foldl (fun m b => Sparse.put m b (s.hbmBib b)) (outside s.bibs first (first + n))
    poison := dead.foldl (fun m b => if s.poisoned b then Sparse.put m b () else m) (outside s.poison first (first + n))
    fills := ⟨first, n, tag, false⟩ :: Fill.without s.fills first n
    guard := g }

/-- Whole blocks of a run written by the Clerk, with `TAG` 0 and `BIDX` counted from the run's start (R400, R404): `l` gives the bytes by their
offset; those not listed are 0. -/
def State.writeRun (s : State) (first n : Nat) (l : List (Nat × Byte)) : State :=
  let dead := s.deadBlocks first n
  let live := l.filter fun e => !dead.contains (first + e.1 / 4096)
  let s := live.foldl (fun s e => s.wr (4096 * first + e.1) [e.2]) (s.zeroFill first n 0)
  ((live.map fun e => e.1 / 4096).eraseDups).foldl (fun s b =>
    let a := 4096 * (first + b)
    { s with bibs := Sparse.put s.bibs (first + b) (mkBib 0 b (crc32c (s.rd a 4096))) }) s

/-! ### Blocks of every region (R197, R212) -/

/-- A block of any memory as an engine reads it: its data, and its bib where it has one. -/
def State.readBlock (s : State) (a : Nat) : List Byte × Option Word :=
  let blk := a / 4096
  match s.place a with
  | .hbm => let r := s.readHbm blk; (r.1, some r.2)
  | .basin _ _ => (s.rd (4096 * blk) 4096, Sparse.find s.bibs blk)
  | .cistern _ _ => (s.rd (4096 * blk) 4096, Sparse.find s.bibs blk)
  | _ => (s.rd (4096 * blk) 4096, none)

/-- Bytes of a write that the slots and the array of the core wrote in the same cycle stand (R145). -/
def keepSlots (a : Nat) (ws : List (SlotId × Wr)) (data : List Byte) : List Byte :=
  ws.foldl (fun d w => match w.2 with
    | .mem b bs =>
      (List.range d.length).map fun i =>
        if b ≤ a + i ∧ a + i < b + bs.length then bs.getD (a + i - b) 0 else d.getD i 0
    | _ => d) data

/-- A write of a slot or the array in the cycle meets a range. -/
def meetsRange (a n : Nat) (ws : List (SlotId × Wr)) : Bool :=
  ws.any fun w => match w.2 with
    | .mem b bs => rangesMeet a n b bs.length
    | _ => false

/-- What the slots and the array of a core have written in its current cycle, the write that stands last (R143). -/
def Core.written (c : Core) : List (SlotId × Wr) := byRank c.landed ++ c.images.map fun w => (.matrix, .mem w.1 w.2)

/-- Bytes written into core k's Basin or Cistern from outside: a slot's write of the same cycle stands, with WCOLL (R145). -/
def State.wrOutside (s : State) (k : CoreId) (a : Nat) (data : List Byte) : State :=
  let ws := (s.core k).written
  let s := s.wr a (keepSlots a ws data)
  if meetsRange a data.length ws then s.updCore k fun c => c.flag WCOLL else s

/-- A whole block written into core k's Basin or Cistern by a Runnel or Baton: its bib stored and its mark set, but for a block
that a slot has written in the same cycle (R145, R212). -/
def State.writeSram (s : State) (k : CoreId) (a : Nat) (data : List Byte) (bib : Word) : State :=
  let s := s.settle k
  let t := s.wrOutside k a data
  if meetsRange a data.length (s.core k).written then t.clearMarks a data.length
  else { t with bibs := Sparse.put t.bibs (a / 4096) bib }

/-- A whole block written at a device address with its bib (R197). -/
def State.writeBlock (s : State) (a : Nat) (data : List Byte) (bib : Word) (w : Writer) : State :=
  match s.place a with
  | .hbm => s.writeHbm (a / 4096) data bib w
  | .basin k _ => s.writeSram k a data bib
  | .cistern k _ => s.writeSram k a data bib
  | .istore _ _ => s.wr a data
  | _ => s

/-- Whether a block's data agree with a bib's `CRC` (R327). -/
def crcOk (data : List Byte) (bib : Word) : Bool := crc32c data == bibCrc bib

/-! ### Controller events (R329-R331, R405-R413) -/

/-- A block lies in an area of a reserved frame that is in use (R400, R502): the pattern set where it is staged, a save slot that holds an
image, the die save slot during the test of the die's logic, the step save area with `REPEN`. -/
def State.areaInUse (s : State) (d : DieId) (off : Nat) : Bool :=
  let x := s.dies[d]
  if off < 0x2000000 then x.staged
  else if off < 0x3D00000 then x.saves[0].isSome
  else if off < 0x5A00000 then x.saves[1].isSome
  else if off < 0x6000000 then x.barSave.isSome
  else s.guard.repen

/-- A block lies in a range that the Clerk has allocated, or in an area of the reserved frames in use (R400, R502). -/
def State.allocated (s : State) (blk : Nat) : Bool :=
  (s.handles.live.any fun h => decide (h.2.first ≤ blk ∧ blk < h.2.first + h.2.blocks)) ||
    (s.rings.any fun r => decide (r.2.first ≤ blk ∧ blk < r.2.first + r.2.blocks)) ||
    (List.finRange 4).any fun d =>
      let b := s.dies[d].saveBase.toNat
      b != 0 && decide (b ≤ 4096 * blk ∧ 4096 * blk < b + 2 ^ 30) && s.areaInUse d (4096 * blk - b)

/-- An event of a stack (R413). -/
def State.emitStack (s : State) (evt sev : Byte) (st : StackId) (detail : Nat) (addr : Nat) : State :=
  s.emit evt sev (BitVec.ofNat 8 (st.val / 8)) 0x7F (BitVec.ofNat 64 detail) addr false

/-- A stack is taken out of service (R409, R410). -/
def State.stackFault (s : State) (st : StackId) (atStart : Bool) (cause ch : Nat) : State :=
  ((s.updStack st fun x => { x with hstate := .outOfService }).emitStack 0x1F 2 st
    (st.val + (if atStart then 2 ^ 8 else 0) + cause * 2 ^ 9 + ch * 2 ^ 12) 0).mark 5

/-- A lane fails the lane test of a start (R408, R412, R413): it is repaired onto a redundant lane, or kept in service, its symbols carried by
the code. -/
def State.stackLaneFails (s : State) (st : StackId) (ch : Fin 32) (lane : Fin 72) (spare : Bool) : State :=
  if s.hbms[st].badLanes.contains (ch, lane) then s
  else
    (s.updStack st fun x =>
      if spare then { x with lrep := BitVec.ofNat 7 (min (x.lrep.toNat + 1) 127) }
      else { x with nospare := true, badLanes := x.badLanes ++ [(ch, lane)] }).emitStack 0x20 0 st
      (st.val + ch.val * 2 ^ 5 + lane.val * 2 ^ 10 + (if spare then 0 else 2 ^ 17)) 0

/-- `n` more corrected codewords of a stack: MEM_CE at most once per second, with the count since its last record (R351).
[DEDUCED: log 72] -/
def State.memCe (s : State) (st : StackId) (n : Nat) : State :=
  let x := s.hbms[st].corrected
  if x.open_ s.power.ticks then
    (s.updStack st fun y => { y with corrected := ⟨0, some s.power.ticks⟩ }).emitStack 0x01 0 st
      ((x.held + n) % 2 ^ 32 + st.val * 2 ^ 32) 0
  else s.updStack st fun y => { y with corrected := { x with held := x.held + n } }

/-! ### The controllers' view: a stack block stands at its device block, or on the shelf where no frame holds it -/

/-- Where a stack block's data, bib and poison mark stand. -/
inductive BlockRef where
  | device (blk : Nat)
  | shelf (key : Nat)
  deriving DecidableEq, Repr

/-- Block `sb` of a stack. -/
def State.refAt (s : State) (st : StackId) (sb : Nat) : BlockRef :=
  match s.addrOf st (sb * 4096) with
  | some a => .device (a / 4096)
  | none => .shelf (st.val * 2 ^ 24 + sb)

/-- The data stored in a block. -/
def State.refData (s : State) : BlockRef → List Byte
  | .device b => s.rd (4096 * b) 4096
  | .shelf k => Memory.bytes s.shelf.mem (4096 * k) 4096

/-- The bib stored for a block; 0 where none has been written. [DESIGN CHOICE: log 38] -/
def State.refBib (s : State) : BlockRef → Word
  | .device b => s.hbmBib b
  | .shelf k => (Sparse.find s.shelf.bibs k).getD 0

/-- A block's poison mark. -/
def State.refPoisoned (s : State) : BlockRef → Bool
  | .device b => s.poisoned b
  | .shelf k => (Sparse.find s.shelf.poison k).isSome || (Sparse.find s.shelf.bibs k).isNone

/-- A block poisoned (R330). -/
def State.refPoison (s : State) : BlockRef → State
  | .device b => s.setPoison b
  | .shelf k => { s with shelf := { s.shelf with poison := Sparse.put s.shelf.poison k () } }

/-- A block's mark cleared; a block never written has none to clear but its own first write. -/
def State.refHeal (s : State) : BlockRef → State
  | .device b => { s with poison := Sparse.del s.poison b }
  | .shelf k => { s with shelf := { s.shelf with poison := Sparse.del s.shelf.poison k } }

/-- A block's data written back by its controller, its bib and mark as they are. -/
def State.refStore (s : State) (data : List Byte) : BlockRef → State
  | .device b => s.wr (4096 * b) data
  | .shelf k => { s with shelf := { s.shelf with mem := Memory.setBytes s.shelf.mem (4096 * k) data } }

/-- A stored bib replaced beside its block, whose poison mark stays (R402). -/
def State.refSetBib (s : State) (r : BlockRef) (bib : Word) : State :=
  let s := if s.refPoisoned r then s.refPoison r else s
  match r with
  | .device b => { s with bibs := Sparse.put s.bibs b bib }
  | .shelf k => { s with shelf := { s.shelf with bibs := Sparse.put s.shelf.bibs k bib } }

/-- The device block of a block, where it has one. -/
def BlockRef.device? : BlockRef → Option Nat
  | .device b => some b
  | .shelf _ => none

/-- Blocks whose bibs, or whose poison marks, the codeword of a table that belongs to block `sb` holds: 8 bibs, 512 marks (R401). -/
def State.refGroup (s : State) (st : StackId) (sb n : Nat) : List BlockRef := (List.range n).map fun j => s.refAt st (n * (sb / n) + j)

/-- MEM_DUE for the blocks poisoned, the block read first: `SEV` 2 where one of them lies in a range in use (R351, R502). A block of no
frame has no device address. [DESIGN CHOICE: log 38] -/
def State.memDue (s : State) (st : StackId) (blks : List BlockRef) (n : Nat) : State :=
  let l := blks.filterMap BlockRef.device?
  s.emitStack 0x02 (if l.any s.allocated then 2 else 1) st (st.val * 2 ^ 32 + n % 256) (4096 * l.headD 0)

/-- The data that the decoder hands on for a codeword where they are not those stored. -/
def handedData : CwOutcome → Option (List Byte)
  | .corrected _ => none
  | .uncorrectable _ bs => some bs
  | .miscorrected _ bs => some bs
  | .undetected _ bs => some bs

/-- The data that the controller writes back for a codeword that is not stored so: a miscorrected one as decoded (R329). -/
def rewrittenData : CwOutcome → Option (List Byte)
  | .miscorrected _ bs => some bs
  | _ => none

/-- A block's data with codewords replaced. -/
def patched (data : List Byte) (errs : List (CwNo × CwOutcome)) (f : CwOutcome → Option (List Byte)) : List Byte :=
  errs.foldl (fun d e => match f e.2 with
    | some bs => if e.1.val < 64 ∧ bs.length = 64 then splice d (64 * e.1.val) bs else d
    | none => d) data

/-- The block as the decoder hands it on. -/
def decodedBlock (data : List Byte) (errs : List (CwNo × CwOutcome)) : List Byte := patched data errs handedData

/-- The block with the codewords that the decoder corrected written back (R329). -/
def writtenBack (data : List Byte) (errs : List (CwNo × CwOutcome)) : List Byte := patched data errs rewrittenData

/-- The bib as read from its codeword of 8 bibs. -/
def decodedBib (bib : Word) (slot : Nat) (errs : List (CwNo × CwOutcome)) : Word :=
  errs.foldl (fun b e => match handedData e.2 with
    | some bs => if e.1.val = 64 ∧ bs.length = 64 then BitVec.ofNat 64 (leNat ((bs.drop (8 * slot)).take 8)) else b
    | none => b) bib

/-- Codewords the decoder corrected, among them miscorrected ones. -/
def correctedCount (errs : List (CwNo × CwOutcome)) : Nat :=
  (errs.filter fun e => match e.2 with
    | .corrected n => n.val != 0
    | .miscorrected _ _ => true
    | _ => false).length

/-- Symbols in error of the first codeword whose correction the block check doubts. -/
def doubtSymbols (errs : List (CwNo × CwOutcome)) : Nat :=
  (errs.findSome? fun e => match e.2 with
    | .miscorrected n _ => some n
    | .undetected n _ => some n
    | _ => none).getD 0

/-- Codewords reported uncorrectable: the codeword and its symbols in error. -/
def uncorrectables (errs : List (CwNo × CwOutcome)) : List (CwNo × Nat) :=
  errs.filterMap fun e => match e.2 with
    | .uncorrectable n _ => some (e.1, n)
    | _ => none

/-- The channel of codeword `i` of stack block `sb` (R399, R401). -/
def channelOf (sb : Nat) (i : CwNo) : Nat := (stackLoc (codewordAt sb i)).channel

/-- Symbols of a codeword that lie on lanes which the code carries (R408). -/
def Stack.carried (x : Stack) (sb : Nat) (i : CwNo) : Nat :=
  ((List.finRange 72).filter fun k => x.badLanes.any fun l => l.1.val == channelOf sb i && l.2 == symbolLane k).length

/-- The outcomes with the symbols of failed lanes added (R408): every codeword of their channel has them in error, and at
most four symbols
are corrected; what is beyond them is reported uncorrectable. [DEDUCED: log 15] -/
def Stack.withLanes (x : Stack) (sb : Nat) (data : List Byte) (errs : List (CwNo × CwOutcome)) : List (CwNo × CwOutcome) :=
  let sum (i : CwNo) (n : Nat) : CwOutcome :=
    if h : n < 5 then .corrected ⟨n, h⟩ else .uncorrectable n ((data.drop (64 * i.val)).take 64)
  if x.badLanes.isEmpty then errs
  else
    (List.finRange 66).filterMap fun i =>
      let m := x.carried sb i
      match (errs.find? fun e => e.1 == i).map fun e => e.2 with
      | none => if m = 0 then none else some (i, sum i m)
      | some (CwOutcome.corrected n) => some (i, sum i (n.val + m))
      | some o => some (i, o)

/-- The runs of uncorrectable reads of each channel after a block read; channels 0-31 are all read (R409). -/
def Stack.countRuns (x : Stack) (chs : List Nat) : Stack :=
  { x with dueRun := Vector.ofFn fun c =>
      if chs.contains c.val then BitVec.ofNat 5 (min (x.dueRun[c].toNat + 1) 16) else 0 }

/-- The 64 bytes of a miscorrected codeword that are written back, for codeword `i`. -/
def rewrittenAt (errs : List (CwNo × CwOutcome)) (i : Nat) : Option (List Byte) :=
  errs.findSome? fun e => if e.1.val = i then (rewrittenData e.2).filter fun bs => bs.length == 64 else none

/-- A miscorrected bib-table codeword written back as decoded: the 8 bibs it holds (R329, R401). -/
def State.writeBackBibs (s : State) (st : StackId) (sb : Nat) (errs : List (CwNo × CwOutcome)) : State :=
  match rewrittenAt errs 64 with
  | none => s
  | some bs =>
    ((s.refGroup st sb 8).zipIdx).foldl (fun s r => s.refSetBib r.1 (BitVec.ofNat 64 (leNat ((bs.drop (8 * r.2)).take 8)))) s

/-- The 512 marks of a poison-map codeword take new values (R401). -/
def State.setMarks (s : State) (st : StackId) (sb : Nat) (bit : Nat → Bool) : State :=
  ((s.refGroup st sb 512).zipIdx).foldl (fun s r => if bit r.2 then s.refPoison r.1 else s.refHeal r.1) s

/-- A poison-map codeword after a read: a miscorrected one stands as decoded; of one that is uncorrectable the manual does not say what becomes
of its marks, and they are free values. [DESIGN CHOICE: log 8, 38] -/
def State.readMarks (s : State) (st : StackId) (sb : Nat) (errs : List (CwNo × CwOutcome)) : State :=
  match rewrittenAt errs 65 with
  | some bs => s.setMarks st sb fun j => (bs.getD (j / 8) 0).getLsbD (j % 8)
  | none =>
    if (uncorrectables errs).any fun d => d.1.val == 65 then
      ({ s with fresh := s.fresh + 8 } : State).setMarks st sb fun j => (Config.freeWord (s.fresh + j / 64)).getLsbD (j % 64)
    else s

/-- `n` corrected codewords of a block that has passed its check are counted (R329). -/
def State.countCe (s : State) (st : StackId) (n : Nat) : State :=
  if n = 0 then s else (s.updStack st fun x => { x with cecnt := sat16 x.cecnt n }).memCe st n

/-- The blocks that an uncorrectable codeword poisons: its own block, and with a bib-table codeword those of its 8 bibs (R402). -/
def State.poisonedBy (s : State) (st : StackId) (sb : Nat) (i : CwNo) : List BlockRef :=
  if i.val < 64 then [s.refAt st sb] else if i.val = 64 then s.refAt st sb :: s.refGroup st sb 8 else []

/-- Uncorrectable codewords of a block reported, and the poison they set (R329, R330, R402). -/
def State.poisonDue (s : State) (st : StackId) (sb : Nat) (due : List (CwNo × Nat)) : State :=
  due.foldl (fun s d =>
    let l := s.poisonedBy st sb d.1
    l.foldl State.refPoison (s.memDue st (if l.isEmpty then [s.refAt st sb] else l) d.2)) s

/-- The block check, where the decoder has corrected a codeword of the block (R329, R402): on a match the corrections are written back and
counted; otherwise the block is poisoned. A block of the controller area has no bib to be checked against. -/
def State.blockCheck (s : State) (st : StackId) (sb : Nat) (errs : List (CwNo × CwOutcome)) : State :=
  let own := errs.filter fun e => e.1.val < 65
  let ce := correctedCount own
  if ce = 0 then s
  else if 2040 * 8192 ≤ sb then s.countCe st ce
  else
    let r := s.refAt st sb
    if crcOk (decodedBlock (s.refData r) own) (decodedBib (s.refBib r) (sb % 8) own) then
      ((s.refStore (writtenBack (s.refData r) own) r).writeBackBibs st sb own).countCe st ce
    else (s.refPoison r).memDue st [r] (doubtSymbols own)

/-- A read of a stack block by its controller with the decoder's outcomes (R329, R330, R402, R408): counts, poison, block check, write-back,
events. -/
def State.controllerRead (s : State) (st : StackId) (off : Nat) (errs : List (CwNo × CwOutcome)) : State :=
  let sb := off / 4096
  let errs := s.hbms[st].withLanes sb (s.refData (s.refAt st sb)) errs
  let due := uncorrectables errs
  let s := s.updStack st fun x =>
    ({ x with duecnt := sat16 x.duecnt due.length } : Stack).countRuns (due.map fun d => channelOf sb d.1)
  let s := (((s.poisonDue st sb due).blockCheck st sb errs).readMarks st sb errs).countCe st
    (correctedCount (errs.filter fun e => e.1.val == 65))
  match (List.range 32).find? fun c => (s.hbms[st].dueRun.toList.getD c 0) == 16 with
  | some c => if (s.hbms[st].hstate == HState.outOfService) = true then s else s.stackFault st false 3 c
  | none => s

/-- HBM_BLOCK_READ (R402). A stack out of service reads nothing (R409). -/
def execHbmBlockRead (addr : BitVec 48) (errs : List (CwNo × CwOutcome)) (s : State) : Host.Outcome State Fault Refusal :=
  always s fun s =>
    match s.stackAt addr.toNat with
    | some (st, off) => if s.stackDead addr.toNat then s else s.controllerRead st off errs
    | none => s

/-- HBM_BLOCK_WRITE (R402): a whole-block write with its bib. -/
def execHbmBlockWrite (addr : BitVec 48) (data : List Byte) (bib : Word) (s : State) : Host.Outcome State Fault Refusal :=
  always s fun s =>
    if s.place addr.toNat = .hbm ∧ data.length = 4096 then s.writeHbm (addr.toNat / 4096) data bib .other else s

/-- HBM_CODEWORD_WRITE (R403): whole aligned codewords, merged one by one. -/
def execHbmCodewordWrite (addr : BitVec 48) (data : List Byte) (s : State) : Host.Outcome State Fault Refusal :=
  always s fun s =>
    if addr.toNat % 64 = 0 ∧ data.length % 64 = 0 ∧ s.place addr.toNat = .hbm ∧
        s.place (addr.toNat + data.length - 1) = .hbm then s.writeHbmBytes addr.toNat data
    else s

/-- PATROL_SCRUB (R331): the next block of the stack in address order. [DESIGN CHOICE: log 38] -/
def execPatrolScrub (st : StackId) (errs : List (CwNo × CwOutcome)) (s : State) : Host.Outcome State Fault Refusal :=
  atStack st s fun s =>
    if s.hbms[st].hstate ≠ .inService then s
    else
      let cw := s.hbms[st].nextcw
      let s := s.controllerRead st (cw.toNat / 64 * 4096) errs
      s.updStack st fun x =>
        { x with
          nextcw := x.nextcw + 64
          passes := if x.nextcw.toNat + 64 = 2 ^ 30 then BitVec.ofNat 8 (min (x.passes.toNat + 1) 255) else x.passes }

/-- HBM_REFRESH (R406): one bank of the stack. -/
def execHbmRefresh (st : StackId) (s : State) : Host.Outcome State Fault Refusal :=
  atStack st s fun s => s.updStack st fun x => { x with refreshBank := x.refreshBank + 1 }

/-- Two temperatures are 10 degrees or more apart. -/
def tenApart (a b : Byte) : Bool := decide (a.toNat + 10 ≤ b.toNat ∨ b.toNat + 10 ≤ a.toNat)

/-- Whether the stack is to refresh at the 16 ms rate after a reading (R406). -/
def nextRefresh (fast : Bool) (temp : Byte) : Bool := if 85 < temp.toNat then true else if temp.toNat < 80 then false else fast

/-- HBM_TEMP_POLL (R406, R407). -/
def execHbmTempPoll (st : StackId) (temp : BitVec 8) (s : State) : Host.Outcome State Fault Refusal :=
  atStack st s fun s =>
    let x := s.hbms[st]
    let fast := nextRefresh x.ref2x temp
    let due := (List.range 32).foldl (fun (m : BitVec 32) c =>
      if tenApart temp (x.winTemp.toList.getD c 0) then m ||| (1#32 <<< c) else m) x.winDue
    let s := s.updStack st fun x => { x with temp := temp, ref2x := fast, winDue := due }
    if fast = x.ref2x then s
    else s.emitStack 0x21 0 st (st.val + temp.toNat * 2 ^ 8 + (if fast then 2 ^ 16 else 0)) 0

/-- HBM_RECENTRE_WINDOW (R407, R409). -/
def execHbmRecentreWindow (st : StackId) (ch : Fin 32) (ok : Bool) (s : State) : Host.Outcome State Fault Refusal :=
  atStack st s fun s =>
    if s.hbms[st].hstate ≠ .inService then s
    else
      let s := s.updStack st fun x =>
        { x with
          winTemp := x.winTemp.set ch.val x.temp
          winDue := x.winDue &&& ~~~(1#32 <<< ch.val)
          winFails := x.winFails.set ch.val (if ok then 0 else x.winFails[ch] + 1) }
      if 2 ≤ s.hbms[st].winFails[ch].toNat then s.stackFault st false 2 ch.val else s

end Sys2Proof.Machine
end

