-- ==== Sys2Proof/Machine/Firmware.lean ====
section
/-! DEFINITION. SHA-256 (FIPS 180-4), the bytes of firmware slots, their verification (R453-R455), the boot control record (R450),
fuses (R460), the identity key (R461) and the measurement registers (R462). -/

namespace Sys2Proof.Machine

/-! ### SHA-256 -/

/-- A number as `n` bytes, the most significant first. -/
def natBe (n v : Nat) : List Byte := (natLe n v).reverse

/-- Bytes as a number, the first the most significant. -/
def beNat (l : List Byte) : Nat := leNat l.reverse

/-- The whole part of the `k`-th root of `v` from its highest bits down: `r` so far, `n` bits to come. -/
def rootBits (k v : Nat) : Nat → Nat → Nat
  | 0, r => r
  | n + 1, r => rootBits k v n (if (r + 2 ^ n) ^ k ≤ v then r + 2 ^ n else r)

/-- The first 32 bits of the fraction of the `k`-th root of `p`. -/
def rootFraction (k p : Nat) : BitVec 32 := BitVec.ofNat 32 (rootBits k (p * 2 ^ (32 * k)) 40 0)

/-- The first 64 primes. -/
def shaPrimes : List Nat := (List.range 312).filter fun n => decide (2 ≤ n) && (List.range n).all fun d => decide (d < 2) || n % d != 0

/-- The words of the hash before the first block, and the constants of the rounds. [PRESUMED: log 78] -/
def shaStart : List (BitVec 32) := (shaPrimes.take 8).map (rootFraction 2)
def shaConstants : List (BitVec 32) := shaPrimes.map (rootFraction 3)

/-- A word's rotations to the right, added without carry. -/
def turned (x : BitVec 32) (by_ : List Nat) : BitVec 32 := by_.foldl (fun a n => a ^^^ x.rotateRight n) 0

/-- The working variables: a to d, and e to h. -/
structure ShaVars where
  lo : List (BitVec 32)
  hi : List (BitVec 32)
  deriving DecidableEq, Repr

/-- One round with its constant and schedule word. -/
def ShaVars.round (v : ShaVars) (c w : BitVec 32) : ShaVars :=
  let a (i : Nat) : BitVec 32 := v.lo.getD i 0
  let e (i : Nat) : BitVec 32 := v.hi.getD i 0
  let choice := (e 0 &&& (e 1 ^^^ e 2)) ^^^ e 2
  let majority := (a 0 &&& (a 1 ||| a 2)) ||| (a 1 &&& a 2)
  let t := c + w + choice + turned (e 0) [6, 11, 25] + e 3
  ⟨(majority + turned (a 0) [2, 13, 22] + t) :: v.lo.take 3, (a 3 + t) :: v.hi.take 3⟩

/-- The 16 schedule words from the current one on, one round later. -/
def nextWords (w : List (BitVec 32)) : List (BitVec 32) :=
  let small (x : BitVec 32) (r : List Nat) (n : Nat) : BitVec 32 := turned x r ^^^ (x >>> n)
  w.drop 1 ++ [small (w.getD 14 0) [17, 19] 10 + small (w.getD 1 0) [7, 18] 3 + w.getD 9 0 + w.getD 0 0]

/-- A round for each constant. -/
def ShaVars.rounds (v : ShaVars) : List (BitVec 32) → List (BitVec 32) → ShaVars
  | [], _ => v
  | c :: cs, w => (v.round c (w.headD 0)).rounds cs (nextWords w)

/-- The hash after one block of 64 bytes. -/
def hashBlock (h : List (BitVec 32)) (blk : List Byte) : List (BitVec 32) :=
  let w := (List.range 16).map fun i => BitVec.ofNat 32 (beNat ((blk.drop (4 * i)).take 4))
  let v := (⟨h.take 4, h.drop 4⟩ : ShaVars).rounds shaConstants w
  List.zipWith (· + ·) h (v.lo ++ v.hi)

/-- The hash after `n` blocks of a padded message. -/
def hashBlocks (h : List (BitVec 32)) : Nat → List Byte → List (BitVec 32)
  | 0, _ => h
  | n + 1, m => hashBlocks (hashBlock h m) n (m.drop 64)

/-- SHA-256 of a message: 32 bytes in the digest's byte order. [PRESUMED: log 78] -/
def sha256 (m : List Byte) : List Byte :=
  let p := m ++ 0x80 :: List.replicate ((119 - m.length % 64) % 64) 0 ++ natBe 8 (8 * m.length)
  (hashBlocks shaStart (p.length / 64) p).flatMap fun x => natBe 4 x.toNat

/-- A digest as a 256-bit value, its first byte in bits [7:0] (R8). -/
def digest256 (l : List Byte) : BitVec 256 := BitVec.ofNat 256 (leNat l)

/-! ### Firmware slots (R453-R455) -/

/-- The image that the factory writes: an issued one, with security version 0 and for the steppings A1 to B1. [DESIGN CHOICE: log 16] -/
def factoryByte (i : Nat) : Byte := if i = 8 ∨ i = 9 then 0 else if i = 10 then 0x01 else if i = 11 then 0x11 else Config.factoryImage i

/-- One byte of a slot. -/
def FwSlot.byte (f : FwSlot) (i : Nat) : Byte :=
  match Sparse.find f.blocks (i / 4096) with
  | some l => l.getD (i % 4096) 0
  | none => if f.factory then factoryByte i else 0

/-- The image as the factory wrote it. [DESIGN CHOICE: log 16] -/
def FwSlot.pristine (f : FwSlot) : Bool := f.factory && f.blocks.isEmpty

/-- Whole 4 KiB blocks of a slot erased, to be programmed by the time of the reply (R459). -/
def FwSlot.erase (f : FwSlot) (blk : Nat) : Nat → FwSlot
  | 0 => f
  | n + 1 => ({ f with blocks := Sparse.put f.blocks blk (List.replicate 4096 0xFF), torn := blk :: f.torn } : FwSlot).erase (blk + 1) n

/-- Whole 4 KiB blocks of a slot programmed. -/
def FwSlot.program (f : FwSlot) (blk : Nat) : Nat → List Byte → FwSlot
  | 0, _ => f
  | n + 1, bs =>
    ({ f with blocks := Sparse.put f.blocks blk (bs.take 4096), torn := f.torn.filter (· != blk) } : FwSlot).program (blk + 1) n
      (bs.drop 4096)

/-- Bytes of a slot. -/
def FwSlot.bytes (f : FwSlot) (off n : Nat) : List Byte := (List.range n).map fun i => f.byte (off + i)

/-- A little-endian number of a slot's header. -/
def FwSlot.num (f : FwSlot) (off n : Nat) : Nat := leNat (f.bytes off n)

/-- Slot A or B (true). -/
def Flash.slot (f : Flash) (b : Bool) : FwSlot := if b then f.slotB else f.slotA

/-- One slot replaced. -/
def Flash.setSlot (f : Flash) (b : Bool) (x : FwSlot) : Flash := if b then { f with slotB := x } else { f with slotA := x }

/-- Why a slot does not verify (R454), by the reason codes of R457; none where it verifies. The header is judged first, then
in the
order of R454. A slot whose writing was cut short does not verify (R459). The key, signature and digest of the image written at the
factory hold. [DEDUCED: log 76] -/
def slotFault (fu : Fuses) (x : FwSlot) : Option Nat :=
  let versions : Option Nat :=
    if x.num 8 2 < fu.svn then some 4
    else if fu.stepping.toNat < (x.byte 10).toNat ∨ (x.byte 11).toNat < fu.stepping.toNat then some 5
    else none
  if x.torn ≠ [] then some 3
  else if x.pristine then versions
  else
    let plen := x.num 12 4
    if x.bytes 0 4 ≠ [0x47, 0x59, 0x46, 0x57] ∨ 0x03FF0000 < plen ∨ 64 < x.num 8 2 then some 6
    else
      let key := x.bytes 576 48
      if digest256 (sha256 key) ≠ Config.fwKeyHash then some 1
      else if Config.slhVerify key (x.bytes 0 624) (x.bytes 624 16224) = false then some 2
      else if sha256 (x.bytes 0x10000 plen) ≠ x.bytes 16 32 then some 3
      else versions

/-- A slot verifies (R454). [DEDUCED: log 76] -/
def State.verifies (s : State) (b : Bool) : Bool := (slotFault s.fuses (s.flash.slot b)).isNone

/-- The slot that runs. -/
def State.running (s : State) : FwSlot := s.flash.slot s.clerk.slot

/-! ### Boot control record (R450) -/

/-- The record that a start takes; with neither copy valid, slot A is active and nothing is pending. [DEDUCED: log 76] -/
def Flash.bootRec (f : Flash) : BootRec :=
  match f.bcr0, f.bcr1 with
  | some a, some b => if (b.bseq - a.bseq).toNat < 2 ^ 31 then b else a
  | some a, none => a
  | none, some b => b
  | none, none => ⟨0xFFFFFFFF, false, none, 0⟩

/-- A new record written to the copy on device `BSEQ` mod 2. [DEDUCED: log 76] -/
def Flash.writeRec (f : Flash) (bact : Bool) (bpend : Option Bool) (btrial : Nat) : Flash :=
  let r : BootRec := ⟨f.bootRec.bseq + 1, bact, bpend, btrial⟩
  if r.bseq.getLsbD 0 then { f with bcr1 := some r } else { f with bcr0 := some r }

/-- A boot control record as its 32 bytes (Table: Boot control record). -/
def BootRec.bytes (r : BootRec) : List Byte :=
  let act : Byte := if r.bact then 1 else 0
  let pend : Byte := match r.bpend with
    | none => 0xFF
    | some b => if b then 1 else 0
  let body := natLe 4 r.bseq.toNat ++ [act, pend, BitVec.ofNat 8 r.btrial] ++ natLe 21 0
  body ++ natLe 4 (crc32c body).toNat

/-! ### Fuses and identity (R460, R461) -/

/-- `DIEPOP` and `SPAREF` of the grade, with physical cores 16 and 17 as the fused spares of each die present. -/
def Fuses.diepop (f : Fuses) : Nat := if f.gy4 then 15 else 3

/-- The spares of die `d` in `SPAREF`, above bit 362 − 10d. -/
def Fuses.spares (f : Fuses) (d : Nat) : Nat := if (BitVec.ofNat 4 f.diepop).getLsbD d then 16 * 32 + 17 else 0

/-- The fuse block (Table: Hub fuses) without the secret seed: bits [767:0]. [DEDUCED: log 70] -/
def Fuses.block (f : Fuses) : Nat :=
  Config.fwKeyHash.toNat <<< 512 + f.serial.toNat <<< 448 + ((2 ^ f.svn - 1) % 2 ^ 64) <<< 384 + f.stepping.toNat <<< 376 +
    f.diepop <<< 372 + f.spares 0 <<< 362 + f.spares 1 <<< 352 + f.spares 2 <<< 342 + f.spares 3 <<< 332

/-- The part number with its four fields, padded to 16 bytes (R4). -/
def Fuses.part (f : Fuses) : List Byte :=
  let base : List Byte :=
    if f.gy4 then [0x47, 0x59, 0x34, 0x2D, 0x32, 0x30, 0x34, 0x38, 0x2D, 0x4C, 0x2D]
    else [0x47, 0x59, 0x32, 0x2D, 0x31, 0x30, 0x32, 0x34, 0x2D, 0x4C, 0x2D]
  base ++ [BitVec.ofNat 8 (0x41 + f.stepping.toNat / 16), BitVec.ofNat 8 (0x30 + f.stepping.toNat % 16)] ++ [0, 0, 0]

/-- The three 24-byte seeds of the identity key (R461): 72 bytes. -/
def identitySeeds : List Byte :=
  let seed := natLe 32 Config.idSeed.toNat
  (sha256 (seed ++ [1]) ++ sha256 (seed ++ [2]) ++ sha256 (seed ++ [3])).take 72

/-- A list brought to `n` bytes. -/
def padTo (n : Nat) (l : List Byte) : List Byte := l.take n ++ List.replicate (n - l.length) 0

/-- The identity public key, 48 bytes (R461). -/
def identityKey : List Byte := padTo 48 (Config.slhPublic identitySeeds)

/-! ### Measurement (R462) -/

/-- Register `i` extended with a digest. [DEDUCED: log 70] -/
def Clerk.extend (c : Clerk) (i : Fin 8) (x : BitVec 256) : Clerk :=
  { c with meas := vupd c.meas i fun m => digest256 (sha256 (natLe 32 m.toNat ++ natLe 32 x.toNat)) }

/-- The pattern-set digest that the running slot's manifest gives for the module's stepping (R453); zeros where it has none. -/
def State.patternDigest (s : State) : BitVec 256 :=
  match (List.range 16).find? fun i => s.running.byte (48 + 33 * i) == s.fuses.stepping with
  | some i => digest256 (s.running.bytes (49 + 33 * i) 32)
  | none => 0

end Sys2Proof.Machine
end

