-- ==== Sys2Proof/Machine/BundleCode.lean ====
section
/-! DEFINITION. The bundle's 512 bits (R130, R131, R147, R173-R195): the field of each slot operation, and the operation a field
holds. A field is read by taking its operation from the bits and accepting it only if that operation's own encoding is the
field, bit for bit: every field the operation does not use must then hold 0 (R166). -/

namespace Sys2Proof.Machine

/-- A register number as 5 bits. -/
def regBits (r : Reg) : BitVec 5 := BitVec.ofNat 5 r.val
/-- The register that 5 bits name. -/
def bitsReg (b : BitVec 5) : Reg := ⟨b.toNat, b.isLt⟩
/-- A bit. -/
def boolBit (b : Bool) : BitVec 1 := if b then 1 else 0

/-! ### Scalar slot (R173, R174) -/

def AluFn.code : AluFn → BitVec 4
  | .add => 1 | .sub => 2 | .and => 3 | .or => 4 | .xor => 5 | .shl => 6 | .shr => 7 | .sar => 8 | .min => 9 | .max => 10
  | .minu => 11 | .maxu => 12 | .seq => 13 | .slt => 14 | .sltu => 15

def AluFn.ofCode (c : BitVec 4) : Option AluFn :=
  [(1#4, AluFn.add), (2, .sub), (3, .and), (4, .or), (5, .xor), (6, .shl), (7, .shr), (8, .sar), (9, .min), (10, .max),
    (11, .minu), (12, .maxu), (13, .seq), (14, .slt), (15, .sltu)].lookup c

/-- The 64 bits of Table: Scalar operation. -/
def scalarField (op : BitVec 8) (sd sa sb : Reg) (sx : BitVec 9) (imm : BitVec 32) : BitVec 64 :=
  op ++ (regBits sd ++ (regBits sa ++ (regBits sb ++ (sx ++ imm))))

def ScalarOp.encode : ScalarOp → BitVec 64
  | .alu f sd sa (.reg sb) => scalarField (0#4 ++ f.code) sd sa sb 0 0
  | .alu f sd sa (.imm v) => scalarField (1#4 ++ f.code) sd sa 0 0 v
  | .movi sd v => scalarField 0x20 sd 0 0 0 v
  | .movhi sd sa v => scalarField 0x21 sd sa 0 0 v
  | .sel sd sa sb v => scalarField 0x22 sd sa sb 0 v
  | .mul .mul sd sa sb => scalarField 0x30 sd sa sb 0 0
  | .mul .mulh sd sa sb => scalarField 0x31 sd sa sb 0 0
  | .mul .mulhu sd sa sb => scalarField 0x32 sd sa sb 0 0
  | .rdcr sd sx => scalarField 0x40 sd 0 0 sx 0
  | .wrcr sa sx => scalarField 0x41 0 sa 0 sx 0
  | .rdtm sd sx => scalarField 0x42 sd 0 0 sx 0
  | .wrtm sa sx => scalarField 0x43 0 sa 0 sx 0

/-- The operation the bits of a scalar field spell, whatever its unused fields hold. -/
def ScalarOp.read (w : BitVec 64) : Option ScalarOp :=
  let op := w.extractLsb' 56 8
  let sd := bitsReg (w.extractLsb' 51 5)
  let sa := bitsReg (w.extractLsb' 46 5)
  let sb := bitsReg (w.extractLsb' 41 5)
  let sx := w.extractLsb' 32 9
  let imm := w.extractLsb' 0 32
  if op = 0x20 then some (.movi sd imm)
  else if op = 0x21 then some (.movhi sd sa imm)
  else if op = 0x22 then some (.sel sd sa sb imm)
  else if op = 0x30 then some (.mul .mul sd sa sb)
  else if op = 0x31 then some (.mul .mulh sd sa sb)
  else if op = 0x32 then some (.mul .mulhu sd sa sb)
  else if op = 0x40 then some (.rdcr sd sx)
  else if op = 0x41 then some (.wrcr sa sx)
  else if op = 0x42 then some (.rdtm sd sx)
  else if op = 0x43 then some (.wrtm sa sx)
  else if op.extractLsb' 4 4 = 0 then
    (AluFn.ofCode (op.extractLsb' 0 4)).map fun f => .alu f sd sa (.reg sb)
  else if op.extractLsb' 4 4 = 1 then
    (AluFn.ofCode (op.extractLsb' 0 4)).map fun f => .alu f sd sa (.imm imm)
  else none

/-- The listed scalar operation a field holds (R166). -/
def ScalarOp.decode (w : BitVec 64) : Option ScalarOp :=
  match ScalarOp.read w with
  | some o => if o.encode = w ∧ o.listed = true then some o else none
  | none => none

/-! ### Vector slot (R178) -/

/-- The 96 bits of Table: Vector operation. -/
def vectorField (op : BitVec 8) (vd va vb vc : Reg) (fmt : BitVec 4) (sa ss sf scnt : Reg) (cnten msrc mode : Bool)
    (cc : BitVec 3) (tile : BitVec 6) (trow : BitVec 7) (off : BitVec 24) : BitVec 96 :=
  op ++ (regBits vd ++ (regBits va ++ (regBits vb ++ (regBits vc ++ (fmt ++ (regBits sa ++ (regBits ss ++ (regBits sf ++
    (regBits scnt ++ (boolBit cnten ++ (boolBit msrc ++ (boolBit mode ++ (cc ++ (tile ++ (0#1 ++ (trow ++ off))))))))))))))))

/-- A field of a lane operation whose second operand is a register or a memory row. -/
def laneField (op : BitVec 8) (vd va vc : Reg) (fmt : BitVec 4) (cc : BitVec 3) : VSrc → BitVec 96
  | .reg vb => vectorField op vd va vb vc fmt 0 0 0 0 false false false cc 0 0 0
  | .row sa off => vectorField op vd va 0 vc fmt sa 0 0 0 false true false cc 0 0 off

/-- The count register and its enable (R55, R185). -/
def cntReg : Option Reg → Reg
  | some r => r
  | none => 0

def BinFn.code : BinFn → BitVec 8
  | .add => 0x01 | .sub => 0x02 | .mul => 0x03 | .min => 0x04 | .max => 0x05 | .maxmag => 0x06

def BitFn.code : BitFn → BitVec 8
  | .and => 0x0C | .or => 0x0D | .xor => 0x0E | .shl => 0x0F | .shr => 0x10

def RedFn.code : RedFn → BitVec 8
  | .sum => 0x20 | .max => 0x21 | .min => 0x22 | .maxmag => 0x23

def VecOp.encode : VecOp → BitVec 96
  | .bin f fmt vd va b => laneField f.code vd va 0 fmt 0 b
  | .un n fmt vd va => vectorField (if n then 0x08 else 0x07) vd va 0 0 fmt 0 0 0 0 false false false 0 0 0 0
  | .mov vd va => vectorField 0x09 vd va 0 0 0 0 0 0 0 false false false 0 0 0 0
  | .cmp fmt cc vd va b => laneField 0x0A vd va 0 fmt cc b
  | .sel vd va vc b => laneField 0x0B vd va vc 0 0 b
  | .bit f vd va b => laneField f.code vd va 0 0 0 b
  | .bcast vd sa => vectorField 0x11 vd 0 0 0 0 sa 0 0 0 false false false 0 0 0 0
  | .iota vd sa => vectorField 0x12 vd 0 0 0 0 sa 0 0 0 false false false 0 0 0 0
  | .perm vd va vb => vectorField 0x13 vd va vb 0 0 0 0 0 0 false false false 0 0 0 0
  | .div fmt vd va vb => vectorField 0x18 vd va vb 0 fmt 0 0 0 0 false false false 0 0 0 0
  | .sqrt fmt vd va => vectorField 0x19 vd va 0 0 fmt 0 0 0 0 false false false 0 0 0 0
  | .red f fmt sa va => vectorField f.code 0 va 0 0 fmt sa 0 0 0 false false false 0 0 0 0
  | .wid h vd va => vectorField (if h then 0x31 else 0x30) vd va 0 0 0 0 0 0 0 false false false 0 0 0 0
  | .nar vd va vb => vectorField 0x32 vd va vb 0 0 0 0 0 0 false false false 0 0 0 0
  | .enc vd va ss sf auto cnt => vectorField 0x33 vd va 0 0 0 0 ss sf (cntReg cnt) cnt.isSome false auto 0 0 0 0
  | .dec vd ss sf sa off => vectorField 0x34 vd 0 0 0 0 sa ss sf 0 false false false 0 0 0 off
  | .fexp va ss sf => vectorField 0x35 0 va 0 0 0 0 ss sf 0 false false false 0 0 0 0
  | .out vd ss sf tile trow auto cnt =>
    vectorField 0x36 vd 0 0 0 0 0 ss sf (cntReg cnt) cnt.isSome false auto 0 tile trow 0
  | .pace first ss scnt sa off => vectorField 0x38 0 0 0 0 0 sa ss 0 scnt false false first 0 0 0 off
  | .tail vd va vb vc cnt => vectorField 0x39 vd va vb vc 0 0 0 0 (cntReg cnt) cnt.isSome false false 0 0 0 0

/-- The operation the bits of a vector field spell, whatever its unused fields hold. -/
def VecOp.read (w : BitVec 96) : Option VecOp :=
  let op := w.extractLsb' 88 8
  let vd := bitsReg (w.extractLsb' 83 5)
  let va := bitsReg (w.extractLsb' 78 5)
  let vb := bitsReg (w.extractLsb' 73 5)
  let vc := bitsReg (w.extractLsb' 68 5)
  let fmt := w.extractLsb' 64 4
  let sa := bitsReg (w.extractLsb' 59 5)
  let ss := bitsReg (w.extractLsb' 54 5)
  let sf := bitsReg (w.extractLsb' 49 5)
  let scnt := bitsReg (w.extractLsb' 44 5)
  let cnten := w.getLsbD 43
  let msrc := w.getLsbD 42
  let mode := w.getLsbD 41
  let cc := w.extractLsb' 38 3
  let tile := w.extractLsb' 32 6
  let trow := w.extractLsb' 24 7
  let off := w.extractLsb' 0 24
  let b : VSrc := if msrc then .row sa off else .reg vb
  let cnt : Option Reg := if cnten then some scnt else none
  if op = 0x01 then some (.bin .add fmt vd va b)
  else if op = 0x02 then some (.bin .sub fmt vd va b)
  else if op = 0x03 then some (.bin .mul fmt vd va b)
  else if op = 0x04 then some (.bin .min fmt vd va b)
  else if op = 0x05 then some (.bin .max fmt vd va b)
  else if op = 0x06 then some (.bin .maxmag fmt vd va b)
  else if op = 0x07 then some (.un false fmt vd va)
  else if op = 0x08 then some (.un true fmt vd va)
  else if op = 0x09 then some (.mov vd va)
  else if op = 0x0A then some (.cmp fmt cc vd va b)
  else if op = 0x0B then some (.sel vd va vc b)
  else if op = 0x0C then some (.bit .and vd va b)
  else if op = 0x0D then some (.bit .or vd va b)
  else if op = 0x0E then some (.bit .xor vd va b)
  else if op = 0x0F then some (.bit .shl vd va b)
  else if op = 0x10 then some (.bit .shr vd va b)
  else if op = 0x11 then some (.bcast vd sa)
  else if op = 0x12 then some (.iota vd sa)
  else if op = 0x13 then some (.perm vd va vb)
  else if op = 0x18 then some (.div fmt vd va vb)
  else if op = 0x19 then some (.sqrt fmt vd va)
  else if op = 0x20 then some (.red .sum fmt sa va)
  else if op = 0x21 then some (.red .max fmt sa va)
  else if op = 0x22 then some (.red .min fmt sa va)
  else if op = 0x23 then some (.red .maxmag fmt sa va)
  else if op = 0x30 then some (.wid false vd va)
  else if op = 0x31 then some (.wid true vd va)
  else if op = 0x32 then some (.nar vd va vb)
  else if op = 0x33 then some (.enc vd va ss sf mode cnt)
  else if op = 0x34 then some (.dec vd ss sf sa off)
  else if op = 0x35 then some (.fexp va ss sf)
  else if op = 0x36 then some (.out vd ss sf tile trow mode cnt)
  else if op = 0x38 then some (.pace mode ss scnt sa off)
  else if op = 0x39 then some (.tail vd va vb vc cnt)
  else none

/-- The listed vector operation a field holds (R166). -/
def VecOp.decode (w : BitVec 96) : Option VecOp :=
  match VecOp.read w with
  | some o => if o.encode = w ∧ o.listed = true then some o else none
  | none => none

/-! ### Matrix slot (R189) -/

/-- The 128 bits of Table: Matrix operation. -/
def matrixField (op : BitVec 8) (dreg : Reg) (doff : BitVec 19) (tile : BitVec 6) (df start : BitVec 2) (arm : Bool)
    (lead : BitVec 4) : BitVec 128 :=
  op ++ (regBits dreg ++ (doff ++ (tile ++ (df ++ (start ++ (boolBit arm ++ (lead ++ 0#81)))))))

def MatOp.encode : MatOp → BitVec 128
  | .mmul a => matrixField 0x01 a.dreg a.doff a.tile a.df a.start a.arm 0
  | .mrelay a => matrixField 0x02 a.dreg a.doff a.tile a.df a.start a.arm 0
  | .mlend dreg doff tile lead => matrixField 0x03 dreg doff tile 0 0 false (BitVec.ofNat 4 lead.val)

def MatOp.read (w : BitVec 128) : Option MatOp :=
  let op := w.extractLsb' 120 8
  let a : MxArgs :=
    { dreg := bitsReg (w.extractLsb' 115 5), doff := w.extractLsb' 96 19, tile := w.extractLsb' 90 6,
      df := w.extractLsb' 88 2, start := w.extractLsb' 86 2, arm := w.getLsbD 85 }
  if op = 1 then some (.mmul a)
  else if op = 2 then some (.mrelay a)
  else if op = 3 then some (.mlend a.dreg a.doff a.tile ⟨(w.extractLsb' 81 4).toNat, (w.extractLsb' 81 4).isLt⟩)
  else none

/-- The matrix operation a field holds (R166). -/
def MatOp.decode (w : BitVec 128) : Option MatOp :=
  match MatOp.read w with
  | some o => if o.encode = w then some o else none
  | none => none

/-! ### Load and store slots (R191) -/

/-- The 80 bits of Table: Load and store operation. -/
def loadStoreField (op : BitVec 8) (dst areg : Reg) (ctr : BitVec 6) (size : BitVec 3) (off : BitVec 40) : BitVec 80 :=
  op ++ (regBits dst ++ (regBits areg ++ (ctr ++ (0#13 ++ (size ++ off)))))

def LoadFn.code : LoadFn → BitVec 8
  | .b => 1 | .h => 2 | .w => 3 | .d => 4 | .v => 8 | .vw => 9

def StoreFn.code : StoreFn → BitVec 8
  | .b => 1 | .h => 2 | .w => 3 | .d => 4 | .v => 8

def LoadFn.ofCode (c : BitVec 8) : Option LoadFn :=
  [(1#8, LoadFn.b), (2, .h), (3, .w), (4, .d), (8, .v), (9, .vw)].lookup c

def StoreFn.ofCode (c : BitVec 8) : Option StoreFn :=
  [(1#8, StoreFn.b), (2, .h), (3, .w), (4, .d), (8, .v)].lookup c

def LoadOp.encode (o : LoadOp) : BitVec 80 := loadStoreField o.f.code o.dst o.areg o.ctr o.size o.off

def StoreOp.encode (o : StoreOp) : BitVec 80 := loadStoreField o.f.code o.dst o.areg o.ctr o.size o.off

/-- The listed load a field holds. -/
def LoadOp.decode (w : BitVec 80) : Option LoadOp :=
  match LoadFn.ofCode (w.extractLsb' 72 8) with
  | some f =>
    let o : LoadOp :=
      { f := f, dst := bitsReg (w.extractLsb' 67 5), areg := bitsReg (w.extractLsb' 62 5), ctr := w.extractLsb' 56 6,
        size := w.extractLsb' 40 3, off := w.extractLsb' 0 40 }
    if o.encode = w ∧ o.listed = true then some o else none
  | none => none

/-- The listed store a field holds. -/
def StoreOp.decode (w : BitVec 80) : Option StoreOp :=
  match StoreFn.ofCode (w.extractLsb' 72 8) with
  | some f =>
    let o : StoreOp :=
      { f := f, dst := bitsReg (w.extractLsb' 67 5), areg := bitsReg (w.extractLsb' 62 5), ctr := w.extractLsb' 56 6,
        size := w.extractLsb' 40 3, off := w.extractLsb' 0 40 }
    if o.encode = w ∧ o.listed = true then some o else none
  | none => none

/-! ### Sync slot (R193) -/

/-- The 48 bits of Table: Sync operation. -/
def syncField (op ctr lcore : BitVec 6) (wslot : Fin 16) (cond : BitVec 3) (scope : BitVec 2) (sreg : Reg)
    (imm : BitVec 16) : BitVec 48 :=
  op ++ (ctr ++ (lcore ++ (BitVec.ofNat 4 wslot.val ++ (cond ++ (scope ++ (regBits sreg ++ imm))))))

def SyncOp.encode : SyncOp → BitVec 48
  | .cinc ctr imm => syncField 1 ctr 0 0 0 0 0 imm
  | .cset ctr imm => syncField 2 ctr 0 0 0 0 0 imm
  | .cadd ctr sreg => syncField 3 ctr 0 0 0 0 sreg 0
  | .crd ctr sreg => syncField 4 ctr 0 0 0 0 sreg 0
  | .cincr lcore ctr imm => syncField 5 ctr (BitVec.ofNat 6 lcore.val) 0 0 0 0 imm
  | .watch ws lcore ctr cond imm => syncField 8 ctr (BitVec.ofNat 6 lcore.val) ws cond 0 0 imm
  | .unwatch ws => syncField 9 0 0 ws 0 0 0 0
  | .bar ws scope imm => syncField 10 0 0 ws 0 scope 0 imm

def SyncOp.read (w : BitVec 48) : Option SyncOp :=
  let op := w.extractLsb' 42 6
  let ctr := w.extractLsb' 36 6
  let lc := w.extractLsb' 30 6
  let lcore : CoreId := ⟨lc.toNat, lc.isLt⟩
  let wb := w.extractLsb' 26 4
  let ws : Fin 16 := ⟨wb.toNat, wb.isLt⟩
  let cond := w.extractLsb' 23 3
  let scope := w.extractLsb' 21 2
  let sreg := bitsReg (w.extractLsb' 16 5)
  let imm := w.extractLsb' 0 16
  if op = 1 then some (.cinc ctr imm)
  else if op = 2 then some (.cset ctr imm)
  else if op = 3 then some (.cadd ctr sreg)
  else if op = 4 then some (.crd ctr sreg)
  else if op = 5 then some (.cincr lcore ctr imm)
  else if op = 8 then some (.watch ws lcore ctr cond imm)
  else if op = 9 then some (.unwatch ws)
  else if op = 10 then some (.bar ws scope imm)
  else none

/-- The listed sync operation a field holds in a grade with `cores` logical cores. -/
def SyncOp.decode (cores : Nat) (w : BitVec 48) : Option SyncOp :=
  match SyncOp.read w with
  | some o => if o.encode = w ∧ o.listed cores = true then some o else none
  | none => none

/-! ### Flow word and header (R131, R146, R147) -/

/-- The 64 bits of Table: Flow word. -/
def flowField (wslot : Fin 16) (csrc : Bool) (cimm : BitVec 16) (bitn : BitVec 6) (fmode : Bool) (cond : BitVec 3)
    (reg : Reg) (target : BIdx) : BitVec 64 :=
  0#14 ++ (BitVec.ofNat 4 wslot.val ++ (boolBit csrc ++ (cimm ++ (bitn ++ (boolBit fmode ++ (cond ++ (regBits reg ++
    (0#1 ++ target))))))))

/-- The code of a flow action in the header. -/
def FlowOp.code : FlowOp → BitVec 4
  | .next => 0 | .br _ => 1 | .brc _ _ _ _ _ => 2 | .loop _ _ _ _ => 3 | .call _ => 4 | .ret => 5 | .wait _ => 6
  | .fence => 7 | .halt => 8

/-- The flow word of a flow action; none for the codes that have none (Table: Flow codes). -/
def FlowOp.word : FlowOp → Option (BitVec 64)
  | .next => none
  | .br t => some (flowField 0 false 0 0 false 0 0 t)
  | .brc reg fmode cond bitn t => some (flowField 0 false 0 bitn fmode cond reg t)
  | .loop csrc cimm reg t => some (flowField 0 csrc cimm 0 false 0 reg t)
  | .call t => some (flowField 0 false 0 0 false 0 0 t)
  | .ret => none
  | .wait ws => some (flowField ws false 0 0 false 0 0 0)
  | .fence => none
  | .halt => none

/-- The flow action of a code and a flow word, whatever the unused fields hold. -/
def FlowOp.read (code : BitVec 4) (w : BitVec 64) : Option FlowOp :=
  let wb := w.extractLsb' 46 4
  let target := w.extractLsb' 0 13
  let reg := bitsReg (w.extractLsb' 14 5)
  if code = 0 then some .next
  else if code = 1 then some (.br target)
  else if code = 2 then some (.brc reg (w.getLsbD 22) (w.extractLsb' 19 3) (w.extractLsb' 23 6) target)
  else if code = 3 then some (.loop (w.getLsbD 45) (w.extractLsb' 29 16) reg target)
  else if code = 4 then some (.call target)
  else if code = 5 then some .ret
  else if code = 6 then some (.wait ⟨wb.toNat, wb.isLt⟩)
  else if code = 7 then some .fence
  else if code = 8 then some .halt
  else none

/-- The flow action of a header code and the scalar field's bits: with a flow word the bits must be that word exactly, and the
scalar slot must not be enabled (R146, R157). -/
def FlowOp.decode (code : BitVec 4) (ens : Bool) (w : BitVec 64) : Option FlowOp :=
  match FlowOp.read code w with
  | some f =>
    if f.listed then
      match f.word with
      | some fw => if !ens && fw == w then some f else none
      | none => some f
    else none
  | none => none

/-- One slot of a bundle: not issued where its enable bit is 0, bad where its field holds no listed operation (R132, R157). -/
def slotOf {α : Type} (en : Bool) (o : Option α) : Option (Option α) :=
  if en then o.map some else some none

/-- The 16 bits of Table: Bundle header. -/
def Bundle.header (b : Bundle) : BitVec 16 :=
  boolBit b.sc.isSome ++ (boolBit b.ve.isSome ++ (boolBit b.mx.isSome ++ (boolBit b.ld.isSome ++ (boolBit b.st.isSome ++
    (boolBit b.sy.isSome ++ (b.flow.code ++ b.gap))))))

/-- The scalar field of a bundle: its scalar operation or its flow word (R130). -/
def Bundle.scalarBits (b : Bundle) : BitVec 64 :=
  match b.flow.word with
  | some w => w
  | none => match b.sc with
    | some o => o.encode
    | none => 0

/-- A bundle's 512 bits (R130). [DEDUCED: log 7] -/
def Bundle.encode (b : Bundle) : BitVec 512 :=
  (match b.sy with | some o => o.encode | none => 0#48) ++
  ((match b.st with | some o => o.encode | none => 0#80) ++
  ((match b.ld with | some o => o.encode | none => 0#80) ++
  ((match b.mx with | some o => o.encode | none => 0#128) ++
  ((match b.ve with | some o => o.encode | none => 0#96) ++
  (b.scalarBits ++ b.header)))))

/-- What a well-formed bundle keeps: listed operations, no scalar operation beside a flow word, no gap beside a flow other than
NEXT (R149, R157). -/
def Bundle.wf (cores : Nat) (b : Bundle) : Bool :=
  b.sc.all ScalarOp.listed && b.ve.all VecOp.listed && b.ld.all LoadOp.listed && b.st.all StoreOp.listed &&
    b.sy.all (SyncOp.listed cores) && b.flow.listed && (b.flow.word.isNone || b.sc.isNone) &&
    (b.flow == .next || b.gap == 0)

/-- The bundle that 512 bits hold; none where the bundle is bad by its encoding (R157). [DEDUCED: log 7] -/
def Bundle.decode (cores : Nat) (w : BitVec 512) : Option Bundle :=
  match slotOf (w.getLsbD 15) (ScalarOp.decode (w.extractLsb' 16 64)),
      slotOf (w.getLsbD 14) (VecOp.decode (w.extractLsb' 80 96)),
      slotOf (w.getLsbD 13) (MatOp.decode (w.extractLsb' 176 128)),
      slotOf (w.getLsbD 12) (LoadOp.decode (w.extractLsb' 304 80)),
      slotOf (w.getLsbD 11) (StoreOp.decode (w.extractLsb' 384 80)),
      slotOf (w.getLsbD 10) (SyncOp.decode cores (w.extractLsb' 464 48)),
      FlowOp.decode (w.extractLsb' 6 4) (w.getLsbD 15) (w.extractLsb' 16 64) with
  | some sc, some ve, some mx, some ld, some st, some sy, some flow =>
    let gap := w.extractLsb' 0 6
    if flow = .next ∨ gap = 0 then some ⟨sc, ve, mx, ld, st, sy, flow, gap⟩ else none
  | _, _, _, _, _, _, _ => none

end Sys2Proof.Machine
end

