-- ==== Sys2Proof/Machine/Sequencer.lean ====
section
/-! DEFINITION. The sequencer (R130-R157): issue of a bundle, its flow, loops and calls, bad bundles. -/

namespace Sys2Proof.Machine

/-! ### Loops and calls (R150-R153) -/

/-- The entries that a transfer to `dest` leaves: those of the current call depth whose body does not hold it are popped
(R152). -/
def popLoops (d dest : Nat) : List LoopEntry → List LoopEntry
  | [] => []
  | e :: l => if e.depth = d ∧ ¬ (e.start.toNat ≤ dest ∧ dest ≤ e.last.toNat) then popLoops d dest l else e :: l

/-- A transfer: its target issues three cycles on, loop entries left are popped (R149, R152). -/
def Core.transfer (c : Core) (dest : Nat) : Core :=
  (c.setLoops (popLoops c.arch.seq.cstk.length dest c.arch.seq.lstk)).goTo dest (c.now + 3) Phase.bubble

/-- Table: Branch conditions. -/
def branchHolds (v : Word) (fmode : Bool) (cond : BitVec 3) (bitn : BitVec 6) : Bool :=
  if fmode then
    let x := a32Val (v.extractLsb' 0 32)
    let z := FVal.fin false 0 0
    if cond = 0 then x.isZero
    else if cond = 1 then !x.isZero
    else if cond = 2 then x.lt z
    else if cond = 3 then x.isZero || z.lt x
    else if cond = 4 then z.lt x
    else x.isZero || x.lt z
  else if cond = 0 then v == 0
  else if cond = 1 then v != 0
  else if cond = 2 then v.slt 0
  else if cond = 3 then !v.slt 0
  else if cond = 4 then (0#64).slt v
  else if cond = 5 then !(0#64).slt v
  else if cond = 6 then v.getLsbD bitn.toNat
  else !v.getLsbD bitn.toNat

/-- The innermost loop entry names bundle `PC` as its end at the current call depth (R151). [DEDUCED: log 19] -/
def Core.atLoopEnd (c : Core) : Bool :=
  match c.arch.seq.lstk with
  | [] => false
  | e :: _ => e.last == c.arch.seq.pc && e.depth == c.arch.seq.cstk.length

/-- The sticky bits of a bundle that is bad by its flow: none where the flow is good (R150-R154, R157). [DEDUCED: log 19] -/
def Core.flowBad (c : Core) (f : FlowOp) : Option (BitVec 9) :=
  let endBad := c.atLoopEnd
  match f with
  | .next => none
  | .br _ => if endBad then some 0 else none
  | .brc _ _ _ _ _ => none
  | .loop _ _ _ target =>
    if c.arch.seq.lstk.length = 4 then some STKERR
    else if endBad ∨ target.toNat ≤ c.arch.seq.pc.toNat then some 0 else none
  | .call _ =>
    if c.arch.seq.cstk.length = 8 then some STKERR else if endBad then some 0 else none
  | .ret => if c.arch.seq.cstk.isEmpty then some STKERR else if endBad then some 0 else none
  | .wait ws => if c.arch.watches[ws].wst = .empty then some 0 else none
  | .fence => none
  | .halt => if endBad then some 0 else none

/-- LOOP at bundle PC (R150). -/
def Core.flowLoop (c : Core) (csrc : Bool) (cimm : BitVec 16) (reg : Reg) (target : BIdx) : Core :=
  let n : BitVec 32 := if csrc then (c.sreg reg).extractLsb' 0 32 else cimm.zeroExtend 32
  let d := c.arch.seq.cstk.length
  if n = 0 then
    let r := loopEnd d target c.arch.seq.lstk
    (c.setLoops r.2).transfer (match r.1 with
      | some b => b.toNat
      | none => target.toNat + 1)
  else
    (c.setLoops (⟨d, c.arch.seq.pc + 1, target, n⟩ :: c.arch.seq.lstk)).goTo (c.arch.seq.pc.toNat + 1) (c.now + 1)
      Phase.issuing

/-- The return stack set. -/
def Core.setCalls (c : Core) (l : List Nat) : Core :=
  { c with arch := { c.arch with seq := { c.arch.seq with cstk := l } } }

/-- RET: the popped index, loop entries of deeper calls popped (R152, R153). -/
def Core.flowRet (c : Core) : Core :=
  match c.arch.seq.cstk with
  | [] => c
  | r :: l =>
    let c := c.setCalls l
    (c.setLoops (c.arch.seq.lstk.filter fun e => decide (e.depth ≤ l.length))).goTo r (c.now + 3) Phase.bubble

/-- WAIT: a notification that has arrived is consumed and issue goes on in the next cycle; otherwise issue waits (R154). -/
def Core.flowWait (c : Core) (ws : Fin 16) : Core :=
  ((c.flowNext (c.now + 1) Phase.issuing).setPhase (.wait ws)).wake

/-- The flow of an issued bundle (R146). With `last`, the issue was the N-th of a prefix: a WAIT, FENCE or HALT is not entered
(R161). After a HALT `PC` stays at its bundle: no next bundle issues. [DESIGN CHOICE: log 88] -/
def Core.flow (c : Core) (f : FlowOp) (gap : BitVec 6) (last : Bool) : Core :=
  let next1 := c.flowNext (c.now + 1) Phase.issuing
  match f with
  | .next =>
    -- the loop-end test follows the gap cycles
    if gap = 0 then next1 else c.setPhase (.gap (c.now + 1 + gap.toNat))
  | .br t => c.transfer t.toNat
  | .brc reg fmode cond bitn t =>
    if branchHolds (c.sreg reg) fmode cond bitn then c.transfer t.toNat else next1
  | .loop csrc cimm reg t => c.flowLoop csrc cimm reg t
  | .call t => (c.setCalls ((c.arch.seq.pc.toNat + 1) :: c.arch.seq.cstk)).goTo t.toNat (c.now + 3) Phase.bubble
  | .ret => c.flowRet
  | .wait ws => if last then next1 else c.flowWait ws
  | .fence => if last then next1 else c.flowNext (c.now + 1) Phase.fence
  | .halt => if last then next1 else c.setPhase (.halting (c.now + 1))

/-! ### Issue (R135, R157, R172, R503) -/

/-- `ISSUED` counts an issue. -/
def Core.countIssue (c : Core) : Core :=
  { c with issued := true, arch := { c.arch with seq := { c.arch.seq with issued := c.arch.seq.issued + 1 } } }

/-- The optional operation of a slot started. -/
def startOpt {α : Type} (o : Option α) (f : α → State → State) (s : State) : State :=
  match o with
  | some x => f x s
  | none => s

/-- Every enabled slot of a bundle starts in the current cycle (R135, R146). [DEDUCED: log 20] -/
def State.startSlots (s : State) (k : CoreId) (b : Bundle) : State :=
  let s := startOpt b.mx (fun o s => s.startMatrix k o) s
  let s := startOpt b.sc (fun o s => s.updCore k fun c => c.startScalar o) s
  let s := startOpt b.ve (fun o s => s.startVector k o) s
  let s := startOpt b.ld (fun o s => s.startLoad k o) s
  let s := startOpt b.st (fun o s => s.startStore k o) s
  startOpt b.sy (fun o s => s.startSync k o) s

/-- A bundle issued in the current cycle of core k. A bundle bad by its flow is not issued (R157); one without places for its far
accesses does not issue in this cycle, and is not judged in it (R172); after an unmapped access its flow does not act (R503). -/
def State.issueBundle (s : State) (k : CoreId) (b : Bundle) : State :=
  let c := s.core k
  if 32 < c.far.length + s.farCount k b.ld b.st then s
  else
    match c.flowBad b.flow with
    | some m => s.updCore k fun c => c.badBundle.flag m
    | none =>
      let s := (s.startSlots k b).updCore k Core.countIssue
      let c := s.core k
      if c.running then
        let last := match c.launch with
          | some l => l.stopN != 0 && l.stopN == c.arch.seq.issued
          | none => false
        s.updCore k fun c => c.flow b.flow b.gap last
      else s

/-- The 512 bits of bundle `n` of a core's table (R130). [DEDUCED: log 7] -/
def State.fetch (s : State) (k : CoreId) (n : BIdx) : BitVec 512 :=
  BitVec.ofNat 512 (s.rdNat (istoreBase k + 64 * n.toNat) 64)

/-- The bundle at `PC` met in the current cycle (R157). -/
def State.issueAtPc (s : State) (k : CoreId) : State :=
  match Bundle.decode s.coreCount (s.fetch k (s.core k).arch.seq.pc) with
  | none => s.updCore k Core.badBundle
  | some b => s.issueBundle k b

/-- The cycle in which the sequencer next has a bundle to issue, as far as its own work decides it. -/
def Core.issueCycle (c : Core) : Option Nat :=
  let busy := (c.inflight.map (·.land)) ++ c.mxq.map MxOp.land
  match c.arch.seq.phase with
  | .issuing a => some (max a c.now)
  | .gap a => some (max a c.now)
  | .bubble a => some (max a c.now)
  | .fence a => some (max a (busy.foldl (fun m l => max m (l + 1)) c.now))
  | _ => none

/-- Core k brought to its next issue, and `f` done there (R133, R149, R155). -/
def State.atIssue (s : State) (k : CoreId) (f : State → State) : State :=
  match (s.core k).issueCycle with
  | none => s
  | some t =>
    let s' := (s.runTo k t).settle k
    if (s'.core k).issueDue ∧ (s'.core k).held = false then f s' else s

/-- A flow action as a bundle with no slot enabled, issued at `PC` (R146). -/
def flowBundle (f : FlowOp) : Bundle := ⟨none, none, none, none, none, none, f, 0⟩

/-- The issue of a bundle that holds a flow action only; a flow word that is not listed makes it bad (R147, R157). -/
def State.issueFlow (s : State) (k : CoreId) (f : FlowOp) : State :=
  s.atIssue k fun s => if f.listed then s.issueBundle k (flowBundle f) else s.updCore k Core.badBundle

/-! ### Launch (R135) -/

/-- A launch of core k from a start bundle; watch slots of aborted barriers are emptied (R135, R161, R235). [DEDUCED: log 28]
-/
def Core.launchAt (c : Core) (q : Nat) (start : BIdx) (stopN : BitVec 48) (edge : Bool) : Core :=
  { c with
    arch := { c.arch with
      stopCause := 0
      watches := c.arch.watches.map fun w => if w.aborted then WatchRec.reset else w
      seq := { c.arch.seq with pc := start, cyc := 0, issued := 0, lstk := [], cstk := [], phase := .issuing c.now, past := false } }
    dump := []
    lastBO := lastEnd c.mxq
    launch := some ⟨q, stopN, edge, c.now, none, 0x0C⟩ }

/-! ### Rows -/

/-- GAP_EXPIRY (R133, R134). [DESIGN CHOICE: log 12] -/
def execGapExpiry (k : CoreId) (s : State) : Host.Outcome State Fault Refusal :=
  atCore k s fun s =>
    match (s.core k).arch.seq.phase with
    | .gap a => s.atCycle k (some (max a (s.core k).now)) fun s => s.settle k
    | _ => s

/-- PREFIX_STOP (R161). -/
def execPrefixStop (k : CoreId) (s : State) : Host.Outcome State Fault Refusal :=
  atCore k s fun s =>
    let s' := s.settle k
    if (s'.core k).prefixDue ∧ (s'.core k).held = false then s'.prefixStop k else s

/-- FLOW_NEXT (R151). -/
def execFlowNext (k : CoreId) (s : State) : Host.Outcome State Fault Refusal :=
  atCore k s fun s => s.issueFlow k .next

/-- BR (R149). -/
def execBr (k : CoreId) (target : BIdx) (s : State) : Host.Outcome State Fault Refusal :=
  atCore k s fun s => s.issueFlow k (.br target)

/-- BRC (R148, R149). -/
def execBrc (k : CoreId) (reg : Reg) (fmode : Bool) (cond : BitVec 3) (bitn : BitVec 6) (target : BIdx) (s : State) :
    Host.Outcome State Fault Refusal :=
  atCore k s fun s => s.issueFlow k (.brc reg fmode cond bitn target)

/-- LOOP (R150). -/
def execLoop (k : CoreId) (csrc : Bool) (cimm : BitVec 16) (reg : Reg) (target : BIdx) (s : State) :
    Host.Outcome State Fault Refusal :=
  atCore k s fun s => s.issueFlow k (.loop csrc cimm reg target)

/-- CALL (R153). -/
def execCall (k : CoreId) (target : BIdx) (s : State) : Host.Outcome State Fault Refusal :=
  atCore k s fun s => s.issueFlow k (.call target)

/-- RET (R153). -/
def execRet (k : CoreId) (s : State) : Host.Outcome State Fault Refusal :=
  atCore k s fun s => s.issueFlow k .ret

/-- WAIT (R154). -/
def execWait (k : CoreId) (wslot : Fin 16) (s : State) : Host.Outcome State Fault Refusal :=
  atCore k s fun s => s.issueFlow k (.wait wslot)

/-- FENCE (R155). -/
def execFence (k : CoreId) (s : State) : Host.Outcome State Fault Refusal :=
  atCore k s fun s => s.issueFlow k .fence

/-- HALT (R156). -/
def execHalt (k : CoreId) (s : State) : Host.Outcome State Fault Refusal :=
  atCore k s fun s => s.issueFlow k .halt

end Sys2Proof.Machine
end

