-- ==== Sys2Proof/Machine/Queues.lean ====
section
/-! DEFINITION. Hardware queues (R242-R258, R504): completion records, halts, and the host's actions on a queue. -/

namespace Sys2Proof.Machine

/-! ### Completion (R254-R257) -/

/-- A completion record (Table: Completion record). -/
def completionRecord (q : Nat) (seq tag : BitVec 32) (status : Byte) (result : BitVec 384) : BitVec 512 :=
  result ++ (BitVec.ofNat 16 q ++ (0#16 ++ (seq ++ (tag ++ (0#16 ++ (status ++ 0xFF#8))))))

/-- A record written into its slot. -/
def State.putRecord (s : State) (q : Nat) (seq tag : BitVec 32) (status : Byte) (result : BitVec 384) : State :=
  s.writeHbmBytes ((s.queue q).slotAddr seq) (natLe 64 (completionRecord q seq tag status result).toNat)

/-- The state of a queue that is to go on with its next command. -/
def Queue.nextState (q : Queue) : QState := if q.done = q.tail then .idle else .waiting

/-- A queue without its head command. -/
def Queue.dropHead (q : Queue) : Queue :=
  { q with
    head := none, ahead := q.ahead.drop 1, w1 := false, w2 := false, depHalt := false, begun := false, moved := 0, image := []
    fin := none }

/-- A queue halted with a status: what has been read ahead is discarded (R257). -/
def Queue.halt (q : Queue) (status : Byte) : Queue := { q.dropHead with qstate := .halted, hcause := status, ahead := [] }

/-- A raise of Baton or SIGEN counts in the step for its restore (R339). -/
def Queue.countsRaise (q : Queue) : Bool := q.ecls == 3 || q.ecls == 5

/-- The SIGEN raise of a command (R255). -/
def State.sigRaise (s : State) (q : Nat) (c : BitVec 512) : State :=
  if cmdSigen c then
    s.sendCtr ⟨⟨cmdSigCore c % 64, by omega⟩, 64 + q, BitVec.ofNat 6 (cmdSigCtr c), 1, (s.queue q).countsRaise⟩
  else s

/-- The head of a queue completes (R254-R257): record, DONE or halt, SIGEN raise, interrupt. A queue that is STOPPING halts
(R258). -/
def State.complete (s : State) (q : Nat) (status : Byte) (result : BitVec 384) : State :=
  let x := s.queue q
  let c := s.headCmd q
  let s := s.putRecord q x.done (cmdTag c) status result
  let s := s.updQueue q fun x =>
    if goesOn status then
      let y := { x.dropHead with done := x.done + 1 }
      if x.qstate = .stopping then y.halt ST_STOPPED else { y with qstate := y.nextState }
    else x.halt status
  let s : State := { s with ready := s.ready.filter (· != q), active := s.active.filter (· != q) }
  let s := (s.readAhead q).noteDeps
  let s := if status = ST_OK then s.sigRaise q c else s
  if cmdNotify c || !goesOn status then s.interrupt x.vector else s

/-- An engine's result for the head of an ACTIVE queue, kept until its record is written. -/
def State.finish (s : State) (q : Nat) (status : Byte) (result : BitVec 384) : State :=
  s.updQueue q fun x => if x.fin.isSome then x else { x with fin := some ⟨status, result⟩ }

/-- The head of a queue runs on its engine. -/
def Queue.isActive (q : Queue) : Bool := q.qstate == .active || q.qstate == .stopping

/-- The result fields of a launch, with the sticky bits that its last cycle has set (R157, R260). [DEDUCED: log 33] -/
def Core.launchResult (c : Core) (unmapped : Option (BitVec 48)) : BitVec 384 :=
  let stat := ({ c.arch with sticky := c.arch.sticky ||| c.stickyNew } : CoreArch).cstat
  BitVec.ofNat 384 (c.arch.seq.issued.toNat + c.arch.seq.cyc.toNat <<< 64 + stat.toNat <<< 128 +
    c.arch.seq.pc.toNat <<< 160 + c.arch.stopCause.toNat <<< 184 + (unmapped.getD 0).toNat <<< 192)

/-- The status of a stop cause (Table: Stop causes, R260, R338, R352). [DEDUCED: log 33] -/
def stopStatus (cause faultStatus : Byte) : Byte :=
  if cause = 0x01 then ST_OK
  else if cause = 0x02 then ST_PREFIX_STOP
  else if cause = 0x03 ∨ cause = 0x04 then ST_BAD_BUNDLE
  else if cause = 0x05 then faultStatus
  else if cause = 0x06 then ST_UNMAPPED
  else ST_STOPPED

/-- The result of a launch whose sequencer has stopped (R260). [DEDUCED: log 33] -/
def State.launchEnd (s : State) (q : Nat) : Option Finish :=
  let x := s.queue q
  let c := s.core x.lcore
  match c.launch with
  | some l =>
    if x.ecls = 1 ∧ x.begun = true ∧ l.queue = q ∧ c.running = false then
      some ⟨stopStatus c.arch.stopCause l.faultStatus, c.launchResult l.unmapped⟩
    else none
  | none => none

/-- The result of a launch once its core's stop is complete: what was in flight has landed before the command completes (R157, R162,
R260). [DEDUCED: log 33] -/
def State.launchFin (s : State) (q : Nat) : Option Finish :=
  if (s.core (s.queue q).lcore).isStopped then s.launchEnd q else none

/-- The finished head of an ACTIVE queue completes. [DEDUCED: log 33] -/
def State.completeFinished (s : State) (q : Nat) : State :=
  let x := s.queue q
  if x.isActive then
    match x.fin.or (s.launchFin q) with
    | some f => s.complete q f.status f.result
    | none => s
  else s

/-! ### Dependencies (R247, R252, R253) -/

/-- A waiting head judged (R252, R504): it completes with the status of a failed check, or its met words are kept; a head with both
words met is ready. -/
def State.judgeWaiting (s : State) (q : Nat) : State :=
  let x := s.queue q
  if x.qstate ≠ .waiting ∨ s.ready.contains q then s
  else
    match s.judgeHead q (s.headCmd q) with
    | some st => s.complete q st 0
    | none =>
      let s := s.noteHead q
      if (s.queue q).depHalt then s.complete q ST_DEP_HALTED 0 else s

/-! ### Host actions (R246, R257, R258) -/

/-- A doorbell write (R246, R434). -/
def State.doorbell (s : State) (q : Nat) (v : Word) (whole : Bool) : State :=
  let x := s.queue q
  if x.en = false then s
  else
    let t : BitVec 32 := v.extractLsb' 0 32
    if whole = false ∨ fld v 32 32 ≠ 0 ∨ 2 ^ x.log2n.toNat < (t - x.done).toNat ∨ 2 ^ 31 ≤ (t - x.tail).toNat then
      s.updQueue q fun x => { x with dberr := true }
    else
      ((s.updQueue q fun x =>
        { x with tail := t, qstate := if x.qstate = .idle ∧ x.done ≠ t then .waiting else x.qstate }).readAhead q).noteDeps

/-- RESUME (R257): acts on a HALTED queue alone. -/
def State.resumeQueue (s : State) (q : Nat) : State :=
  if (s.queue q).qstate ≠ .halted then s
  else ((s.updQueue q fun x => { x.dropHead with qstate := x.nextState, hcause := 0 }).readAhead q).noteDeps

/-- SKIP (R257): acts on a HALTED queue alone. -/
def State.skipQueue (s : State) (q : Nat) : State :=
  if (s.queue q).qstate ≠ .halted then s
  else
    ((s.updQueue q fun x =>
      let y := if x.done = x.tail then x.dropHead else { x.dropHead with done := x.done + 1 }
      { y with qstate := y.nextState, hcause := 0 }).readAhead q).noteDeps

/-- Records with FLUSHED for `n` slots from the head on (R257), with the interrupts their commands ask for (R255). -/
def State.flushSlots (s : State) (q : Nat) : Nat → State
  | 0 => s
  | n + 1 =>
    let x := s.queue q
    let c := s.slotCmd q x.done
    let s := (s.putRecord q x.done (cmdTag c) ST_FLUSHED 0).updQueue q fun x => { x with done := x.done + 1 }
    (if cmdNotify c then s.interrupt x.vector else s).flushSlots q n

/-- FLUSH (R257). -/
def State.flushQueue (s : State) (q : Nat) : State :=
  let x := s.queue q
  if x.qstate = .halted ∨ x.qstate = .idle ∨ x.qstate = .waiting then
    let s := s.flushSlots q (x.tail - x.done).toNat
    ({ (s.updQueue q fun x => { x.dropHead with qstate := .idle, hcause := 0, ahead := [] }) with ready := s.ready.filter (· != q) } : State).noteDeps
  else s

/-- The running stream of a queue is told to stop (R258). [DEDUCED: log 79] -/
def Runnel.stopFor (r : Runnel) (q : Nat) : Runnel :=
  { r with run := r.run.map fun x => if x.queue = q then { x with stopping := true } else x }

/-- A sequencer stopped by STOP with operations in flight landing; one that has stopped keeps its cause (R160, R258). -/
def Core.hostStop (c : Core) : Core := if c.running then c.stopSeq 0x07 else c

/-! ### Ends of Baton commands (R286, R291, R298, R315) -/

/-- Blocks of a command are in flight: sent, and neither acknowledged nor refused. [DEDUCED: log 79] -/
def BatonCmd.flying (c : BatonCmd) : Bool :=
  c.xfers.any fun x => x.send && !x.own &&
    x.sent.any fun j => !(x.ackM.contains j || x.ackB.contains j || x.refd.contains j)

/-- The result fields of a Baton command (R286, R291, R315). Rows are counted for PERMI and PERMR, blocks for SHIFT and
PERMT. [DEDUCED: log 51] -/
def BatonCmd.result (c : BatonCmd) : BitVec 384 :=
  let per := match c.permi with
    | some p => p.rowblk
    | none => 1
  let sum (f : Xfer → Nat) : Nat := c.xfers.foldl (fun n x => n + f x) 0
  let sent := sum (fun x => if x.send then x.sent.length else 0) / per
  let got := sum (fun x => if x.send then 0 else x.landed.length) / per
  let onlyB := sum fun x => if x.send then (x.ackB.filter fun j => !x.ackM.contains j).length else 0
  let dropped := match c.permi with
    | some p => p.dropped
    | none => 0
  BitVec.ofNat 384
    (if c.opc = 0x20 then
      sent + got <<< 32 + c.refusals <<< 64 + c.taken <<< 96 + onlyB <<< 128 + c.differed <<< 160
    else sent + got <<< 32 + dropped <<< 64 + c.refusals <<< 96 + c.taken <<< 128 + onlyB <<< 160 + c.differed <<< 192)

/-- The receive halves of a command that ends. -/
def BatonCmd.endedHalves (c : BatonCmd) (stopped : Bool) : List EndedHalf :=
  (c.xfers.mapIdx fun e x => (e, x)).filterMap fun e =>
    if e.2.send || e.2.own then none
    else some ⟨c.queue, e.1, ⟨c.group, c.tag, e.2.key⟩, e.2.peer, stopped, e.2.hsM, e.2.hsB, e.2.landed, c.differed⟩

/-- A Baton command ends with a status and what it has done so far. -/
def State.endBaton (s : State) (q : Nat) (st : Byte) : State :=
  match s.baton.cmds.find? fun c => c.queue == q with
  | none => s
  | some c =>
    let t := s.guard.twin
    ({ s with
      baton := { s.baton with
        cmds := s.baton.cmds.filter fun c => c.queue != q, ended := c.endedHalves (st != ST_OK) ++ s.baton.ended }
      guard := { s.guard with twin := { t with
        gated := t.gated.filter fun b => b.queue != q, early := t.early.filter fun b => b.queue != q
        opened := t.opened.filter fun o => o.1 != q, redo := t.redo.filter fun o => o.1 != q } } } : State).finish q st c.result

/-- STOP for a Baton command that has begun (R298): it ends once none of its blocks is in flight. [DEDUCED: log 79] -/
def State.stopBaton (s : State) (q : Nat) : State :=
  let s : State := { s with baton := { s.baton with
    cmds := s.baton.cmds.map fun c => if c.queue = q then { c with stopping := true } else c } }
  match s.baton.cmds.find? fun c => c.queue == q with
  | some c => if c.flying then s else s.endBaton q ST_STOPPED
  | none => s

/-- A stopped TALLOC allocates nothing: its index returns to the front of the free list with `GEN` unchanged (R258, R497).
[DEDUCED: log 80] -/
def Handles.untake (t : Handles) (idx : Nat) : Handles :=
  { t with live := Sparse.del t.live idx, returned := idx :: t.returned }

/-- The engine of an ACTIVE queue is told to stop (R258): a launch's sequencer stops; a stream starts no further tile; a
command
that its engine has not begun ends at once, HCOPY, DUMP and the checkpoint commands at their block boundary, and a TALLOC
whose record is not written
gives its
range and handle back. [DEDUCED: log 79, 80] [DESIGN CHOICE: log 107] -/
def State.windDown (s : State) (q : Nat) : State :=
  let x := s.queue q
  match x.fin with
  | some f =>
    if x.ecls = 5 ∧ cmdOpc (x.head.getD 0) = 0x50 ∧ f.status = ST_OK then
      ({ s with handles := s.handles.untake (f.result.toNat % 2 ^ 20) } : State).updQueue q fun x =>
        { x with fin := some ⟨ST_STOPPED, 0⟩ }
    else s
  | none =>
    if x.begun = false then s.finish q ST_STOPPED 0
    else if x.ecls = 1 then s.updCore x.lcore Core.hostStop
    else if x.ecls = 2 then { s with runnels := s.runnels.map fun r => r.stopFor q }
    else if x.ecls = 3 then s.stopBaton q
    else if x.ecls = 5 ∧ [0x52, 0x53, 0x55, 0x56].contains (cmdOpc (x.head.getD 0)) then
      s.finish q ST_STOPPED (BitVec.ofNat 384 (if cmdOpc (x.head.getD 0) = 0x52 then x.moved else 0))
    else s

/-- STOP (R257, R258). -/
def State.stopQueue (s : State) (q : Nat) : State :=
  let x := s.queue q
  match x.qstate with
  | .idle => (s.updQueue q fun x => x.halt ST_STOPPED).noteDeps
  | .waiting => s.complete q ST_STOPPED 0
  | .active => (s.windDown q).updQueue q fun x => { x with qstate := .stopping }
  | _ => s

/-- Every queue number allocated. -/
def State.queueNumbers (s : State) : List Nat := s.queues.map (·.1)

/-- STOP written to every queue that satisfies `p` (R338, R348). -/
def State.stopAll (s : State) (p : Queue → Bool) : State :=
  s.queueNumbers.foldl (fun s q => if p (s.queue q) then s.stopQueue q else s) s

/-! ### Queues of a die that stops (R26, R383, R467, R488) -/

/-- A queue bound to a core, a Runnel or the Starter of a die. -/
def Queue.onDie (x : Queue) (d : DieId) : Bool :=
  (x.ecls == 1 && x.inst.toNat / 16 == d.val) || (x.ecls == 2 && x.inst.toNat / 32 == d.val) ||
    (x.ecls == 4 && x.inst.toNat == d.val)

/-- A Runnel whose stream is given up. -/
def Runnel.drop (r : Runnel) (q : Nat) : Runnel :=
  match r.run with
  | some x => if x.queue = q then { r with run := none } else r
  | none => r

/-- STOP of a queue whose engine stops with it: an ACTIVE command completes with STOPPED at once. -/
def State.killQueue (s : State) (q : Nat) : State :=
  let s := s.stopQueue q
  let x := s.queue q
  if x.isActive then
    let f := (x.fin.or (s.launchEnd q)).getD ⟨ST_STOPPED, 0⟩
    ({ s with runnels := s.runnels.map fun r => r.drop q } : State).complete q f.status f.result
  else s

/-- Every queue that satisfies `p` killed. -/
def State.killAll (s : State) (p : Queue → Bool) : State :=
  s.queueNumbers.foldl (fun s q => if p (s.queue q) then s.killQueue q else s) s

end Sys2Proof.Machine
end

