-- ==== Sys2Proof/Machine/Window.lean ====
section
/-! DEFINITION. The core state window (R162, R163): its bytes as host software and DUMP read them, and its write-one-to-clear. -/

namespace Sys2Proof.Machine

/-- Byte `i` of a number. -/
def byteOf (v i : Nat) : Byte := BitVec.ofNat 8 (v >>> (8 * i))

/-- One loop entry (Table: Sequencer state). -/
def LoopEntry.word (e : LoopEntry) : Nat :=
  (e.depth % 16) <<< 58 + e.start.toNat <<< 45 + e.last.toNat <<< 32 + e.remaining.toNat

/-- `SEQST` of a core that has been launched. -/
def Phase.code : Phase → Nat
  | .issuing _ => 0
  | .gap _ => 1
  | .bubble _ => 2
  | .wait _ => 3
  | .fence _ => 4
  | .halting _ => 4
  | .stopped => 5

/-- Words of `bits` bits side by side, the first lowest. -/
def packBits (bits : Nat) : List Nat → Nat
  | [] => 0
  | v :: l => v % 2 ^ bits + packBits bits l <<< bits

/-- The sequencer state as its 512 bits (Table: Sequencer state). `SEQST` keeps its reset value 0 until the first launch:
only a core
that has not been launched is stopped with stop cause 0. [DESIGN CHOICE: log 101] -/
def SeqState.bits (q : SeqState) (cause : BitVec 8) : Nat :=
  packBits 64 (q.lstk.reverse.map LoopEntry.word) <<< 256 + q.cyc.toNat <<< 192 + q.issued.toNat <<< 144 + q.pc.toNat <<< 131 +
    q.lstk.length <<< 128 + q.cstk.length <<< 124 + (if cause = 0 ∧ q.phase = .stopped then 0 else q.phase.code) <<< 120 + packBits 13 q.cstk.reverse

/-- The 12 bytes of a tile's metadata as a number (R87). -/
def TileMeta.bits (t : TileMeta) : Nat := t.low.toNat + t.cx.toNat <<< 32 + t.cw.toNat <<< 64

/-- One byte of the state window (Table: Core state window); offsets not listed read 0. -/
def Core.windowByte (c : Core) (off : Nat) : Byte :=
  if off < 0x100 then byteOf (c.arch.sregs.toList.getD (off / 8) 0).toNat (off % 8)
  else if off < 0x140 then byteOf (c.arch.seq.bits c.arch.stopCause) (off - 0x100)
  else if off < 0x144 then byteOf c.arch.cstat.toNat (off - 0x140)
  else if off < 0x148 then byteOf c.arch.layout.toNat (off - 0x144)
  else if 0x200 ≤ off ∧ off < 0x260 then byteOf (c.arch.ctrs.toList.getD ((off - 0x200) / 2) 0).toNat (off % 2)
  else if 0x400 ≤ off ∧ off < 0x700 then
    byteOf ((c.arch.tiles.toList.getD ((off - 0x400) / 12) TileMeta.reset).bits) ((off - 0x400) % 12)
  else if 0x800 ≤ off ∧ off < 0xA00 then byteOf (c.dump.getD ((off - 0x800) / 8) 0).toNat (off % 8)
  else if 0x8000 ≤ off ∧ off < 0x10000 then
    byteOf ((((c.arch.vregs.toList.getD ((off - 0x8000) / 1024) VReg.zero)).toList.getD (off % 1024 / 4) 0).toNat) (off % 4)
  else 0

/-- Bytes of the state window. -/
def Core.window (c : Core) (off n : Nat) : List Byte := (List.range n).map fun i => c.windowByte (off + i)

end Sys2Proof.Machine
end

