-- ==== Sys2Proof/Machine/Guard.lean ====
section
/-! DEFINITION. Rotations (R18-R22), core faults, data faults and step replay (R335-R340, R502): what every engine does when it
meets a fault, and the saving and restoring of a step's entry state. -/

namespace Sys2Proof.Machine

/-! ### Physical cores -/

/-- One physical core changed. -/
def State.updPCore (s : State) (d : DieId) (p : PCoreNo) (f : PCore → PCore) : State :=
  s.updDie d fun x => { x with pcores := vupd x.pcores p f }

/-- A physical core of a die. -/
def State.pcore (s : State) (d : DieId) (p : PCoreNo) : PCore := s.dies[d].pcores[p]

/-- The number of physical core `p` of a die that satisfies a predicate, the least one. -/
def State.findPCore (s : State) (d : DieId) (f : PCoreNo → PCore → Bool) : Option PCoreNo :=
  (List.finRange 18).find? fun p => f p (s.pcore d p)

/-- The physical core that serves logical core k (R18). -/
def State.servedBy (s : State) (k : CoreId) : Option PCoreNo :=
  s.findPCore (dieOf k) fun _ x => x.pst == .active && x.lcore.toNat == k.val

/-- A rotation under way takes this physical core. -/
def State.taken (s : State) (d : DieId) (p : PCoreNo) : Bool := s.rotations.any fun r => dieOf r.core == d && r.into == p

/-- A SPARE core of a die that no rotation takes. [DESIGN CHOICE: log 39] -/
def State.freeSpare (s : State) (d : DieId) : Option PCoreNo :=
  s.findPCore d fun p x => x.pst == .spare && x.test.isNone && !s.taken d p

/-- A PARKED core of a die, or a SPARE, that no rotation takes; a fault abandons its test (R21). [DESIGN CHOICE: log 39] -/
def State.parkedSpare (s : State) (d : DieId) : Option PCoreNo :=
  s.findPCore d fun p x => (x.pst == .parked || x.pst == .spare) && !s.taken d p

/-- A die has a core in state SPARE or PARKED (R22, R502). -/
def State.hasSpare (s : State) (d : DieId) : Bool := (s.findPCore d fun _ x => x.pst == .parked || x.pst == .spare).isSome

/-! ### Result records (R365) -/

/-- A Cooldown result record (R365): core or region, result code, reason, signatures, failing memory words. -/
def cdRecord (phours : BitVec 24) (die core res reason : Nat) (sig2 sig3 : Word) (fails : Nat) : AgeRecord :=
  let body := natLe 3 phours.toNat ++ natLe 1 die ++ natLe 1 core ++ natLe 1 res ++ natLe 1 reason ++ [0] ++
    natLe 8 sig2.toNat ++ natLe 8 sig3.toNat ++ natLe 4 fails
  body ++ natLe 4 (crc32c body).toNat

/-- Records that the ageing history holds. [DESIGN CHOICE: log 94] -/
def historySize : Nat := 0x80000

/-- A record put into the ageing history, a ring that overwrites its oldest records first (R372). -/
def State.age (s : State) (r : AgeRecord) : State :=
  { s with cooldown := { s.cooldown with history := (r :: s.cooldown.history).take historySize } }

/-- A test is owed on the core, from the hour given on where none was before (R21, R338). -/
def PCore.owe (x : PCore) (phours : BitVec 24) : PCore := if x.owed then x else { x with owed := true, owedAt := phours }

/-- The test of a PARKED core, or of a SPARE under test, is abandoned for a fault: the core is SPARE, its previous result
stays in
force, and it stays owed (R21). [DEDUCED: log 40] -/
def State.abandonTest (s : State) (d : DieId) (p : PCoreNo) : State :=
  let x := s.pcore d p
  let s := match x.test with
    | some t => s.age (cdRecord s.cooldown.phours d.val p.val 7 t.reason.toNat t.sig2 t.sig3 t.fails)
    | none => s
  s.updPCore d p fun x =>
    { (if x.test.isSome then x.owe s.cooldown.phours else x) with
      pst := .spare, test := none, phase := 0, due := if x.test.isSome then none else x.due }

/-! ### Rotation (R19, R21, R22) -/

/-- A rotation of logical core k begun onto a spare; for a fault also onto a core PARKED under test (R21). [DESIGN CHOICE:
log 39] -/
def State.startRotation (s : State) (k : CoreId) (reason : RotReason) (step : Bool) : Option State :=
  let d := dieOf k
  match (if s.rotating k then none else s.servedBy k) with
  | none => none
  | some p =>
    match s.freeSpare d with
    | some t => some { s with rotations := s.rotations ++ [⟨k, p, t, reason, step⟩] }
    | none =>
      if reason = .overdue ∨ reason = .service then none
      else
        match s.parkedSpare d with
        | some t => some { (s.abandonTest d t) with rotations := s.rotations ++ [⟨k, p, t, reason, step⟩] }
        | none => none

/-- A core retired for good (R18, R23). -/
def PCore.retire (x : PCore) : PCore :=
  { x with pst := .retired, lcore := 0x7F, owed := false, owedAt := 0xFFFFFF, overdue := false, due := none }

/-- The outgoing core after a rotation (R19 step 4, R338, R357, R358, R360). -/
def PCore.leave (x : PCore) (phours : BitVec 24) (reason : RotReason) : PCore :=
  let x := { x with lcore := 0x7F, overdue := false, told := false, covered := false }
  match reason with
  | .overdue => { x with pst := .parked, due := some 1 }
  | .service => { x with pst := .parked, due := some 5 }
  | .coreFault =>
    if x.faulted then x.retire
    else { x.owe phours with pst := .parked, faulted := true, covered := true, due := some 2 }
  | .twin => { x.owe phours with pst := .parked, faulted := true, covered := true, due := some 2 }
  | .restoreFailed _ => x.retire

/-- A physical core mapped to a logical core (R18). -/
def PCore.serve (x : PCore) (k : CoreId) : PCore :=
  { x with pst := .active, lcore := BitVec.ofNat 7 k.val, served := true, covered := false }

/-- The incoming core after a rotation, which counts (R19, R23). -/
def PCore.enter (x : PCore) (k : CoreId) : PCore :=
  { x.serve k with rotations := BitVec.ofNat 8 (min (x.rotations.toNat + 1) 255) }

/-- The map entry of a logical core switched to the spare (R19 steps 3 and 4). -/
def State.switchMap (s : State) (r : Rotation) : State :=
  let d := dieOf r.core
  (s.updPCore d r.from_ fun x => x.leave s.cooldown.phours r.reason).updPCore d r.into fun x => x.enter r.core

/-- A core's rotation point (R19, R214): no bundle executes, no Runnel transfer and no far access is outstanding. A core in a
WAIT is at one. -/
def State.rotationPoint (s : State) (k : CoreId) : Bool :=
  let c := s.core k
  let idle (r : Runnel) : Bool := r.run.isNone
  let waiting := match c.arch.seq.phase with
    | .wait _ => true
    | _ => false
  (!c.running || waiting) && c.inflight.isEmpty && c.mxq.isEmpty && c.hold.isNone && c.relay == .none && c.far.isEmpty &&
    c.farWait.isEmpty && idle s.runnels[2 * k.val] && idle s.runnels[2 * k.val + 1]

/-! ### Unavailable cores (R22) -/

/-- A fault on a die with no spare: the core retires and its logical core becomes unavailable; its queues halt with NO_SPARE.
[DEDUCED: log 41] -/
def State.makeUnavailable (s : State) (k : CoreId) : State :=
  let d := dieOf k
  let s := match s.servedBy k with
    | some p => s.updPCore d p PCore.retire
    | none => s
  let s : State := { s with rotations := s.rotations.filter fun r => r.core != k }
  let s := s.updCore k fun c =>
    { c.hostStop with unavailable := true, launch := c.launch.map fun l => { l with faultStatus := ST_NO_SPARE } }
  let s : State := { s with runnels := Vector.ofFn fun r =>
      if r.val / 2 = k.val then { s.runnels[r] with run := none } else s.runnels[r] }
  let s := s.queueNumbers.foldl (fun s q =>
    let x := s.queue q
    if x.isActive ∧ x.ecls = 2 ∧ x.lcore = k then s.finish q ST_NO_SPARE 0
    else if x.isActive ∧ x.ecls = 1 ∧ x.lcore = k then s.finish q ST_NO_SPARE ((s.core k).launchResult none)
    else s) s
  s.mark 0

/-! ### Step save and restore (R335, R338-R340) -/

/-- Pairs of a map inside the windows of core k, addresses scaled by `unit`. -/
def inWindows {α : Type} (m : Sparse α) (unit : Nat) (k : CoreId) : Sparse α :=
  m.filter fun e =>
    let a := e.1 * unit
    decide ((basinBase k ≤ a ∧ a < basinBase k + 0x1800000) ∨ (cisternBase k ≤ a ∧ a < cisternBase k + 0x400000) ∨
      (istoreBase k ≤ a ∧ a < istoreBase k + 0x80000))

/-- Pairs of a map outside the windows of core k. -/
def outWindows {α : Type} (m : Sparse α) (unit : Nat) (k : CoreId) : Sparse α :=
  m.filter fun e => !(inWindows [e] unit k).any fun _ => true

/-- The architectural state of core k as it stands (R17). [DEDUCED: log 28] -/
def State.imageOf (s : State) (k : CoreId) : CoreImage := ⟨(s.core k).arch, inWindows s.mem 1 k, inWindows s.bibs 4096 k⟩

/-- Every pair of one map put into another. -/
def putAll {α : Type} (m : Sparse α) (l : Sparse α) : Sparse α := l.foldl (fun m e => Sparse.put m e.1 e.2) m

/-- The registrations that a core's armed watch records name (R221, R224). -/
def State.watchersOf (s : State) (k : CoreId) : List Watcher :=
  (List.finRange 64).flatMap fun o =>
    (List.finRange 16).filterMap fun sl =>
      let w := (s.core o).arch.watches[sl]
      if w.wst = .armed ∧ w.kind = 0 ∧ w.lcore = k then some ⟨o, sl, w.tag, w.ctr, w.cond, w.imm⟩ else none

/-- A core stopped, with nothing in flight, in a given architectural state. Its sequencer stays stopped and keeps its cause.
[DEDUCED: log 28] -/
def Core.restoreArch (c : Core) (a : CoreArch) : Core :=
  { c with
    arch := { a with stopCause := c.arch.stopCause, seq := { a.seq with phase := .stopped } }
    stickyNew := 0, stage := 0, landed := [], landedLoads := [], images := [], slotReads := [], issued := false, outside := [], inflight := [],
    far := [], farWait := [], mxq := [], lastBO := 0, relay := .none, hold := none, bankHold := 0,
    notes := [] }

/-- Core k filled from an image (R338, R360). [DEDUCED: log 28] -/
def State.restoreCore (s : State) (k : CoreId) (im : CoreImage) : State :=
  { (s.updCore k fun c => c.restoreArch im.arch) with
    mem := putAll (outWindows s.mem 1 k) im.mem
    bibs := putAll (outWindows s.bibs 4096 k) im.bibs }

/-! ### Core images in the reserved frames (R334, R356, R359, R400) -/

/-- Where a byte of core k's windows stands in an image: instruction store, Cistern, Basin. [DESIGN CHOICE: log 93] -/
def imageOff (k : CoreId) (a : Nat) : Option Nat :=
  if istoreBase k ≤ a ∧ a < istoreBase k + 0x80000 then some (0x80000 + (a - istoreBase k))
  else if cisternBase k ≤ a ∧ a < cisternBase k + 0x400000 then some (0x100000 + (a - cisternBase k))
  else if basinBase k ≤ a ∧ a < basinBase k + 0x1800000 then some (0x500000 + (a - basinBase k))
  else none

/-- A watch record as an image holds it. [DESIGN CHOICE: log 93] -/
def WatchRec.bits (w : WatchRec) : Nat :=
  (match w.wst with
    | .empty => 0
    | .armed => 1
    | .notified => 2) + w.kind.toNat <<< 2 + w.gen.toNat <<< 4 + w.lcore.val <<< 20 + w.ctr.toNat <<< 26 + w.cond.toNat <<< 32 +
    w.imm.toNat <<< 35 + (if w.aborted then 1 else 0) <<< 51 + w.tag <<< 52

/-- `n` bytes from an offset on, those that are not 0. -/
def areaBytes (off n : Nat) (f : Nat → Byte) : List (Nat × Byte) :=
  (List.range n).filterMap fun i => if f i = 0 then none else some (off + i, f i)

/-- The bytes of a core's image by their offset in its 29 MiB, those that are not 0 (R359): the state window at 0x1_0000, the watch records, the
bibs and valid marks of the Basin and Cistern blocks, and the memories. [DESIGN CHOICE: log 93] -/
def CoreImage.bytes (im : CoreImage) (k : CoreId) : List (Nat × Byte) :=
  areaBytes 0x10000 0x10000 ({ Core.reset with arch := im.arch } : Core).windowByte ++
    areaBytes 0x20000 256 (fun i => byteOf ((im.arch.watches.toList.map WatchRec.bits).getD (i / 16) 0) (i % 16)) ++
    (im.bibs.flatMap fun e => match imageOff k (4096 * e.1) with
      | some o =>
        let j := (o - 0x100000) / 4096
        (0x3E000 + j, 1) :: areaBytes (0x30000 + 8 * j) 8 (byteOf e.2.toNat)
      | none => []) ++
    im.mem.filterMap fun e => (imageOff k e.1).map fun o => (o, e.2)

/-- The CRC-32C of each 4 KiB block of a memory that holds data; those not listed hold zeros. -/
def blockCrcs (m : Memory) : Sparse (BitVec 32) :=
  ((m.map fun e => e.1 / 4096).eraseDups).map fun b => (b, crc32c (Memory.bytes m (4096 * b) 4096))

/-- The CRC-32C of each 4 KiB of an image, its registers, watches, bibs and memories (R359); of zeros where none is listed. -/
def CoreImage.crcs (im : CoreImage) (k : CoreId) : Sparse (BitVec 32) :=
  blockCrcs ((im.bytes k).foldl (fun m e => Memory.setByte m e.1 e.2) [])

/-- The bytes of a core save slot: its header with the mark and the core, the CRCs, and the image. [DESIGN CHOICE: log 93] -/
def SaveSlot.bytes (v : SaveSlot) : List (Nat × Byte) :=
  areaBytes 0 2 (fun i => if i = 0 then (if v.complete then 1 else 0) else BitVec.ofNat 8 v.core.val) ++
    areaBytes 0x1000 29632 (fun i => byteOf ((Sparse.find v.crcs (16 + i / 4)).getD zeroCrc).toNat (i % 4)) ++ v.image.bytes v.core

/-- Bytes written by the Clerk into an area of the reserved frame of a die, where it has one (R400). -/
def State.writeArea (s : State) (d : DieId) (off n : Nat) (l : List (Nat × Byte)) : State :=
  let b := s.dies[d].saveBase.toNat
  if b = 0 then s else s.writeRun ((b + off) / 4096) (n / 4096) l

/-- The image of a core in a bank of the step save area (R334, R400). [DESIGN CHOICE: log 93] -/
def State.writeBank (s : State) (bank : Nat) (k : CoreId) (im : CoreImage) : State :=
  s.writeArea (dieOf k) (0x6000000 + (2 * (k.val % 16) + bank) * 0x1D00000) 0x1D00000 (im.bytes k)

/-- A queue of a core, a Runnel or a Starter, whose commands a replay runs again (R338). -/
def Queue.ofStep (x : Queue) : Bool := x.ecls == 1 || x.ecls == 2 || x.ecls == 4

/-- Where the queues stand as a step begins: a command that is running belongs to the step before. [DEDUCED: log 45] -/
def State.stepWork (s : State) : List (Nat × BitVec 32 × Nat) :=
  (s.queues.filter fun e => e.2.ofStep).map fun e => (e.1, e.2.done + (if e.2.isActive then 1 else 0), 0)

/-- The commands of a queue that the run of the step has met, and where its rerun begins. [DEDUCED: log 45] -/
def Guard.rework (g : Guard) (q : Nat) (x : Queue) : Nat × BitVec 32 × Nat :=
  let w := ((g.work.find? fun w => w.1 == q).map (·.2)).getD (0, 0)
  let met := (x.done + (if x.qstate = .halted then 1 else 0) - w.1).toNat
  (q, x.tail, max w.2 (if met < 2 ^ 31 then met else 0))

/-- A queue has completed again what its rerun has to complete. -/
def Queue.caughtUp (x : Queue) (w : BitVec 32 × Nat) : Bool :=
  !x.en || decide ((x.done + (if x.isActive then 1 else 0) - w.1 - BitVec.ofNat 32 w.2).toNat < 2 ^ 31)

/-- The entry state of a step saved into the bank that is not current (R335). [DEDUCED: log 45] -/
def State.saveStep (s : State) : State :=
  let b : SaveBank := ⟨(List.finRange 64).map fun k => s.imageOf k, s.dies.toList.map fun d => d.bars⟩
  let bank := if s.guard.current then 0 else 1
  let s := (List.finRange 64).foldl (fun s k => if s.hasCore k then s.writeBank bank k (s.imageOf k) else s) s
  let g : Guard := { s.guard with work := s.stepWork }
  { s with guard := if g.current then { g with bank0 := some b, current := false } else { g with bank1 := some b, current := true } }

/-- The bank that holds the entry state of the open step. [DEDUCED: log 45] -/
def Guard.entryBank (g : Guard) : Option SaveBank := if g.current then g.bank1 else g.bank0

/-- The raises of Baton and SIGEN of the step added to restored counters (R339). -/
def State.addRaises (s : State) (k : CoreId) : State :=
  s.updArch k fun a => (List.finRange 48).foldl (fun a c =>
    { a with ctrs := vupd a.ctrs c fun v => v + (Sparse.find s.guard.raises (64 * c.val + k.val)).getD 0 }) a

/-- Messages of the abandoned run dropped: raises of Baton and SIGEN stay (R339). -/
def Msgs.afterRestore (m : Msgs) : Msgs := { Msgs.none with ctrs := m.ctrs.filter (·.outside) }

/-- Every core and each Starter restored from the current bank (R338 step 3), with R339 and R340; the restored counters are judged at the next cycle's end (R223). [DEDUCED: log 45] -/
def State.restoreStep (s : State) : State :=
  match s.guard.entryBank with
  | none => s
  | some b =>
    let s := (List.finRange 64).foldl (fun s k =>
      match b.cores[k.val]? with
      | some im => (s.restoreCore k im).addRaises k
      | none => s) s
    let s := (List.finRange 4).foldl (fun s d =>
      match b.bars[d.val]? with
      | some x => s.updDie d fun y => { y with bars := x }
      | none => s) s
    let s : State := { s with msgs := s.msgs.afterRestore, fabs := s.fabs.map fun f => { f with replay := f.log } }
    (List.finRange 64).foldl (fun s k => s.updCore k fun c => { c with watchers := s.watchersOf k }) s

/-- The core, Runnel and Starter queues of the module have stopped (R338 step 1). -/
def State.queuesStopped (s : State) : Bool :=
  s.queueNumbers.all fun q =>
    let x := s.queue q
    !(x.isActive && x.ofStep)

/-- Every core, Runnel and Starter queue of the module stopped, nothing of theirs still running, and the rotations made (R338). -/
def State.stoppedForRestore (s : State) : Bool :=
  s.queuesStopped && (s.guard.replaying.all fun r => r.waiting.isEmpty) &&
    (s.cores.toList.all fun c => c.isStopped) && (s.runnels.toList.all fun r => r.run.isNone) && s.rotations.isEmpty

/-! ### Faults (R337, R338, R502) -/

/-- The rotation of a core that a replay needs begins, or waits for a core of its die (R338 step 2). -/
def State.replayRotation (s : State) (k : CoreId) (reason : RotReason) : State :=
  match s.startRotation k reason false with
  | some s' => s'
  | none =>
    if (s.servedBy k).isNone ∨ s.rotating k = true then s
    else { s with guard := { s.guard with replaying := s.guard.replaying.map fun r => { r with waiting := r.waiting ++ [k] } } }

/-- A replay begins (R338 step 1): STOP to every core, Runnel and Starter queue; the rotations it needs start. -/
def State.beginReplay (s : State) (rotate : List CoreId) (reason : RotReason) : State :=
  let s : State := match s.guard.replaying with
    | some r => { s with guard := { s.guard with replaying := some { r with rotate := r.rotate ++ rotate } } }
    | none =>
      { s with guard := { s.guard with replays := s.guard.replays + 1, replaying := some ⟨rotate, [], reason == .twin⟩ } }
  let s := s.stopAll Queue.ofStep
  rotate.foldl (fun s k => s.replayRotation k reason) s

/-- The module can replay the step (R338, R502). [DEDUCED: log 45] -/
def State.canReplayStep (s : State) : Bool := s.guard.repen && (decide (s.guard.replays < 3) || s.guard.replaying.isSome)

/-- The core stops with cause 0x05 and its launch is to complete with a status (R338, R352). -/
def State.faultStop (s : State) (k : CoreId) (st : Byte) : State :=
  s.updCore k fun c =>
    { c.stopSeq 0x05 with launch := c.launch.map fun l => { l with faultStatus := st } }

/-- The queue whose launch runs on core k. -/
def State.launchQueue (s : State) (k : CoreId) : Option Nat := (s.core k).launch.map (·.queue)

/-- A core fault (R107, R332, R337, R338, R502): cause 1 a failed check replay, cause 2 a double-bit SRAM error. -/
def State.coreFault (s : State) (k : CoreId) (cause : Nat) : State :=
  let d := dieOf k
  let p := ((s.servedBy k).map fun p => p.val).getD 0xFF
  let spare := s.hasSpare d
  let absorbed := s.canReplayStep && spare
  let detail : Word := BitVec.ofNat 64 (cause + p * 256)
  let s := s.emitCore 0x05 (if absorbed then 1 else 2) k detail 0
  if absorbed then
    let s := (s.faultStop k ST_STOPPED).beginReplay [k] .coreFault
    { s with guard := { s.guard with absorbed := s.guard.absorbed ++ [⟨0x05, k, 0, detail, s.launchQueue k, false, false⟩] } }
  else if spare then
    let s := s.faultStop k ST_CORE_FAULT
    match s.servedBy k with
    | some p => s.updPCore d p fun x => { x with faulted := true }
    | none => s
  else (s.faultStop k ST_NO_SPARE).makeUnavailable k

/-- A data fault of a command of core k at a device address (R337, R338, R502): a block that fails twice again in the replay is bad
at its source, and the step is not replayed. The answer tells whether a replay absorbs it. -/
def State.dataFault (s : State) (k : CoreId) (addr : Nat) (expected found : BitVec 32) (queue : Option Nat) : Bool × State :=
  let blk := addr / 4096 * 4096
  let detail : Word := expected ++ found
  let again (f : AbsorbedFault) : Bool := f.evt == 0x06 && f.addr == blk && f.restored
  match s.guard.absorbed.find? again with
  | some f =>
    (false, ({ s with guard := { s.guard with
      absorbed := s.guard.absorbed.map fun f => if again f then { f with told := true } else f } } : State).emitCore 0x06 2 f.core detail blk)
  | none =>
  if s.canReplayStep then
    let s := s.emitCore 0x06 1 k detail blk
    let s : State := { s with guard := { s.guard with absorbed := s.guard.absorbed ++ [⟨0x06, k, blk, detail, queue, false, false⟩] } }
    (true, s)
  else (false, s.emitCore 0x06 2 k detail blk)

/-- A data fault of a far access stops its core with cause 0x05 (R337). -/
def State.farFault (s : State) (k : CoreId) (addr : Nat) (expected found : BitVec 32) : State :=
  let r := s.dataFault k addr expected found (s.launchQueue k)
  if r.1 then (r.2.faultStop k ST_STOPPED).beginReplay [] .coreFault else r.2.faultStop k ST_BIB_FAIL

/-- A replay is abandoned, in its restore or in its rerun (R338, R468, R502): the faults of the step that it was to absorb get a second
record with SEV 2. -/
def State.unabsorb (s : State) : State :=
  let s := (s.guard.absorbed.filter fun f => !f.told).foldl (fun s f =>
    let s := s.emitCore f.evt 2 f.core f.detail f.addr
    if h : f.evt = 0x05 ∧ fld f.detail 8 8 < 18 then s.updPCore (dieOf f.core) ⟨fld f.detail 8 8, h.2⟩ fun x => { x with covered := false }
    else s) s
  { s with guard := { s.guard with replaying := none, absorbed := [] } }

/-- The rotation of a core finds no spare (R22, R338, R502): the step is not replayed, and the logical core becomes unavailable. -/
def State.replayLost (s : State) (k : CoreId) : State := s.unabsorb.makeUnavailable k

/-- Rotations that a replay still waits for begin, or find that no core is left (R338 step 2). -/
def State.retryRotations (s : State) (reason : RotReason) : State :=
  match s.guard.replaying with
  | none => s
  | some r =>
    let s : State := { s with guard := { s.guard with replaying := some { r with waiting := [] } } }
    r.waiting.foldl (fun s k =>
      if s.guard.replaying.isSome ∧ s.hasSpare (dieOf k) = false then s.replayLost k else s.replayRotation k reason) s

/-- STEP_RESTORE_COMPLETE (R338 steps 2 to 4): once everything has stopped and the rotations are made, the restore ends and
STEP_REPLAY is reported. -/
def execStepRestoreComplete (s : State) : Host.Outcome State Fault Refusal :=
  always s fun s =>
    match s.guard.replaying with
    | none => s
    | some r =>
      if s.stoppedForRestore then
        let s : State := { s with guard := { s.guard with replaying := none } }
        let s := s.restoreStep
        let s : State := { s with guard := { s.guard with
          work := (s.queues.filter fun e => e.2.ofStep).map fun e => s.guard.rework e.1 e.2
          absorbed := s.guard.absorbed.map fun f => { f with restored := true }
          -- Baton is not stopped: the blocks it has written in the step stay in part 64
          twin := { s.guard.twin with own := List.replicate 64 0 ++ [s.guard.twin.own.getD 64 0] } } }
        s.emit 0x07 1 0xFF 0x7F (BitVec.ofNat 64 (s.guard.replays + if r.rotate.isEmpty then 0 else 256)) 0 false
      else s

/-! ### Reads of SRAM (R332, R348, R351) -/

/-- One more corrected word of a core: SRAM_CE at most once per second, with the count since its last record (R351).
[DEDUCED: log 72] -/
def State.sramCe (s : State) (k : CoreId) : State :=
  let x := (s.core k).corrected
  if x.open_ s.power.ticks then
    (s.updCore k fun c => { c with corrected := ⟨0, some s.power.ticks⟩ }).emitCore 0x03 0 k
      (BitVec.ofNat 64 ((x.held + 1) % 2 ^ 32)) 0
  else s.updCore k fun c => { c with corrected := { x with held := x.held + 1 } }

/-- A word read as the code finds it (R332): good or corrected, the work `f` goes on, the upset counted; with a double-bit error `g` stands
for the work, its destination unwritten, and the core has a fault. -/
def State.readThrough (s : State) (k : CoreId) (u : Upset) (f g : State → State) : State :=
  match u with
  | .none => f s
  | .single => (f s).sramCe k
  | .double => (g s).coreFault k 2

/-- A read of a core's Basin, Cistern or instruction store by a unit other than its slots and array: the code of R332 stands in that core,
and so does a fault that it finds; a read of HBM meets none. -/
def State.readSram (s : State) (a : Nat) (u : Upset) (f : State → State) : State :=
  match s.place a with
  | .basin k _ => s.readThrough k u f id
  | .cistern k _ => s.readThrough k u f id
  | .istore k _ => s.readThrough k u f id
  | _ => f s

end Sys2Proof.Machine
end

