-- ==== Sys2Proof/Machine/Cooldown.lean ====
section
/-! DEFINITION. Cooldown (R353-R366), Taper (R367-R372) and the SRAM scrubber (R332): their rows, and the plan that STEPCLOSE
makes. -/

namespace Sys2Proof.Machine

/-! ### Cores at rest (R357) -/

/-- No queue bound to a core or to its Runnels holds a command, and the core is stopped (R357). -/
def State.idleCore (s : State) (k : CoreId) : Bool :=
  (s.core k).isStopped &&
    s.queues.all fun e => !((e.2.ecls == 1 || e.2.ecls == 2) && e.2.lcore == k && e.2.done != e.2.tail)

/-- A core of a die, or for the hub any core, has a job loaded (R368). -/
def State.jobLoaded (s : State) (d : Fin 5) : Bool :=
  (List.finRange 64).any fun k => (d.val == 4 || k.val / 16 == d.val) && s.hasCore k && !s.idleCore k

/-- The logical core that a physical core serves. -/
def PCore.serves (x : PCore) : Option CoreId :=
  if h : x.lcore.toNat < 64 then (if x.pst = .active then some ⟨x.lcore.toNat, h⟩ else none) else none

/-- A physical core becomes due with a reason (R357): one in use becomes owed, one that is idle, SPARE or PARKED is to be tested. -/
def State.makeDue (s : State) (d : DieId) (p : PCoreNo) (reason : Byte) : State :=
  let x := s.pcore d p
  if x.pst = .retired ∨ x.test.isSome ∨ x.due.isSome ∨ x.owed = true then s
  else
    match x.serves with
    | some k =>
      if s.idleCore k then s.updPCore d p fun x => { x with due := some reason }
      else s.updPCore d p fun x => { x with owed := true, owedAt := s.cooldown.phours }
    | none => s.updPCore d p fun x => { x with due := some reason }

/-- Every physical core of the grade. -/
def State.allPCores (s : State) : List (DieId × PCoreNo) :=
  (List.finRange 4).flatMap fun d => if s.hasDie d then (List.finRange 18).map fun p => (d, p) else []

/-! ### Taper (R367-R372) -/

/-- One more sample of a monitor: its slack, and its kept minimum. -/
def Taper.sample (t : Taper) (l : List (BitVec 8)) : Taper :=
  let slack : Vector Byte 64 := Vector.ofFn fun i => l.getD i.val t.slack[i]
  let kept : Vector Byte 64 := Vector.ofFn fun i => if slack[i].ult t.kept[i] then slack[i] else t.kept[i]
  let low := (List.finRange 64).foldl (fun (w : Byte × BitVec 6) i =>
    if slack[i].ult w.1 then (slack[i], BitVec.ofNat 6 i.val) else w) (t.worst, t.worstMon)
  { t with slack := slack, kept := kept, worst := low.1, worstMon := low.2 }

/-- The monitor that holds the least kept minimum, the lowest one. -/
def Taper.leastKept (t : Taper) : Nat × Nat :=
  (List.finRange 64).foldl (fun (w : Nat × Nat) i => if t.kept[i].toNat < w.1 then (t.kept[i].toNat, i.val) else w)
    (t.kept[0].toNat, 0)

/-- The offset that a plan gives (R368). -/
def taperOffset (o m : Nat) : Nat :=
  if m < 40 then min 12 (o + min 2 ((40 - m + 3) / 4)) else if 60 ≤ m ∧ 0 < o then o - 1 else o

/-- A Taper record (R372). -/
def Taper.record (t : Taper) (phours : BitVec 24) (die : Nat) (step : BitVec 48) : AgeRecord :=
  let m := t.leastKept
  let body := natLe 3 phours.toNat ++ natLe 1 die ++ natLe 1 t.offset.toNat ++ natLe 1 (taperOffset t.offset.toNat m.1) ++
    natLe 1 m.2 ++ natLe 1 m.1 ++ t.kept.toList ++ natLe 6 step.toNat ++ natLe 14 0
  body ++ natLe 4 (crc32c body).toNat

/-- The number of a die in a record or an event: 0x10 for the hub. -/
def dieCode (d : Fin 5) : Nat := if d.val = 4 then 0x10 else d.val

/-- Every ACTIVE core of a die becomes due, or for the hub its shutdown test (R370). -/
def State.taperOwes (s : State) (d : Fin 5) : State :=
  if h : d.val < 4 then
    (List.finRange 18).foldl (fun s p => if (s.pcore ⟨d.val, h⟩ p).pst = .active then s.makeDue ⟨d.val, h⟩ p 4 else s) s
  else { s with cooldown := { s.cooldown with hubDue := true } }

/-- A die planned (R368, R370, R372): `WORST` starts again, and `WORSTMON` keeps the monitor that held the planned minimum. -/
def State.plan (s : State) (d : Fin 5) : State :=
  let t := s.tapers[d]
  let m := t.leastKept
  let o := taperOffset t.offset.toNat m.1
  let limit := decide (o = 12 ∧ m.1 < 40)
  let floor := decide (m.1 < 25)
  let detail := BitVec.ofNat 64 (m.1 + m.2 <<< 8)
  let die : Byte := BitVec.ofNat 8 (dieCode d)
  let s := s.age (t.record s.cooldown.phours (dieCode d) s.stepCtr)
  let s : State := { s with tapers := vupd s.tapers d fun t =>
    { t with
      worst := 0xFF, worstMon := BitVec.ofNat 6 m.2, planMin := BitVec.ofNat 8 m.1, offset := BitVec.ofNat 4 o, lastPlan := s.cooldown.phours
      floor := t.floor || floor, limit := limit, kept := Vector.replicate 64 0xFF, planned := true } }
  let s := if limit then s.emit 0x18 1 die 0x7F detail 0 false else s
  let s := if floor then (s.emit 0x19 2 die 0x7F detail 0 false).mark 3 else s
  if t.planned ∧ m.1 + 15 ≤ t.planMin.toNat then s.taperOwes d else s

/-- 24 powered hours have passed since a die's last plan. -/
def State.planDue (s : State) (d : Fin 5) : Bool :=
  decide (24 ≤ (s.cooldown.phours - s.tapers[d].lastPlan).toNat) && (d.val == 4 || decide (d.val < s.dieCount))

/-- Every die planned that is due and satisfies `p`. -/
def State.planAll (s : State) (p : Fin 5 → Bool) : State :=
  (List.finRange 5).foldl (fun s d => if s.planDue d && p d then s.plan d else s) s

/-- TAPER_SAMPLE (R367): the 64 monitors of a die, or of the hub. -/
def execTaperSample (d : Fin 5) (slack : List (BitVec 8)) (s : State) : Host.Outcome State Fault Refusal :=
  always s fun s =>
    if s.dieCount ≤ d.val ∧ d.val < 4 then s else { s with tapers := vupd s.tapers d fun t => t.sample slack }

/-! ### Hours and registers (R355, R357, R358, R363) -/

/-- A physical core at the turn of an hour (R357, R358). -/
def State.hourOf (s : State) (d : DieId) (p : PCoreNo) : State :=
  let x := s.pcore d p
  let s := if s.cooldown.interval.toNat ≤ (s.cooldown.phours - x.lastPass).toNat then s.makeDue d p 3 else s
  s.updPCore d p fun x =>
    let x := if x.pst = .active then { x with hours := x.hours + 1 } else x
    if x.owed ∧ s.cooldown.deadline.toNat ≤ (s.cooldown.phours - x.owedAt).toNat ∧ x.pst = .active then { x with overdue := true }
    else x

/-- PHOURS_TICK (R357, R358, R368). [DESIGN CHOICE: log 13] -/
def execPhoursTick (s : State) : Host.Outcome State Fault Refusal :=
  always s fun s =>
    let s : State := { s with cooldown := { s.cooldown with phours := s.cooldown.phours + 1 } }
    let s := s.allPCores.foldl (fun s x => s.hourOf x.1 x.2) s
    s.planAll fun d => !s.jobLoaded d

/-- CD_CFG_WRITE (R363). -/
def execCdCfgWrite (v : Word) (s : State) : Host.Outcome State Fault Refusal :=
  always s fun s => s.ifOpen 0 fun s =>
    let i := fld v 16 16
    let d := fld v 32 16
    { s with cooldown :=
        if i < 24 ∨ 720 < i ∨ d < 1 ∨ 720 < d then { s.cooldown with cfgErr := true }
        else { s.cooldown with
          deadline := BitVec.ofNat 16 d, interval := BitVec.ofNat 16 i, cfgErr := s.cooldown.cfgErr && !v.getLsbD 0 } }

/-- The pattern set of the module's stepping in the flash (R355). -/
def State.patternSet (s : State) : List Byte :=
  (((s.flash.patterns.getD Config.patternStore).find? fun e => e.1 == s.fuses.stepping).map (·.2)).getD []

/-- A pattern set written into the reserved area of every die (R355, R356, R400). -/
def State.stage (s : State) (set : List Byte) : State :=
  (List.finRange 4).foldl (fun s d =>
    if s.hasDie d then
      (s.writeArea d 0 0x2000000 (areaBytes 0 (min set.length 0x2000000) fun i => set.getD i 0)).updDie d fun x => { x with staged := true }
    else s) s

/-- PATTERN_STAGING_DONE (R355, R356): once after each start, the pattern set of the flash, or what was read for it, stands in the reserved area
of every die; its SHA-256 is found there and compared with the manifest's. -/
def execPatternStagingDone (read : Option (List Byte)) (s : State) : Host.Outcome State Fault Refusal :=
  always s fun s =>
    if s.cooldown.staged || s.cooldown.patternBad || s.clerk.bstage != 12 then s
    else
      let set := read.getD s.patternSet
      let s := s.stage set
      if digest256 (sha256 set) = s.patternDigest then { s with cooldown := { s.cooldown with staged := true } }
      else
        (({ s with cooldown := { s.cooldown with patternBad := true } } : State).emit 0x17 2 0xFF 0x7F 0 0 false).mark 2

/-! ### Tests of cores (R353, R357, R359-R361) -/

/-- Core tests running on a die. -/
def State.testsOn (s : State) (d : DieId) : Nat := ((List.finRange 18).filter fun p => (s.pcore d p).test.isSome).length

/-- No command is ACTIVE in any queue (R361). -/
def State.noneActive (s : State) : Bool := s.queues.all fun e => !e.2.isActive

/-- The order of a shutdown (R361): ACTIVE cores, then PARKED, then SPARE, in ascending number. -/
def PState.order : PState → Nat
  | .active => 0
  | .parked => 1
  | .spare => 2
  | .retired => 3

/-- A physical core is the next of its die in a shutdown. -/
def State.nextInShutdown (s : State) (d : DieId) (p : PCoreNo) : Bool :=
  let key (q : PCoreNo) : Nat := 32 * (s.pcore d q).pst.order + q.val
  (List.finRange 18).all fun q => !((s.pcore d q).due.isSome && decide (key q < key p))

/-- The core save slot of a die that a new test may use: no running test uses it, and no logical core is still to be filled
from it
(R360). [DEDUCED: log 40] -/
def State.freeSlot (s : State) (d : DieId) : Option (Fin 2) :=
  (List.finRange 2).find? fun i =>
    !((List.finRange 18).any fun p => (s.pcore d p).test.any fun t => t.slot == some i) &&
      !(s.rotations.any fun r => dieOf r.core == d && r.reason == .restoreFailed i) &&
      !(s.cooldown.fill.any fun x => dieOf x.1 == d && x.2.2 == i)

/-- A physical core is to be tested now, with the reason of its record: at a shutdown in its turn; otherwise a due SPARE or
PARKED
core, or in place a due or owed core that is idle. [DEDUCED: log 40] -/
def State.testReason (s : State) (d : DieId) (p : PCoreNo) : Option Byte :=
  let x := s.pcore d p
  if x.test.isSome ∨ (x.serves.isSome ∧ (s.freeSlot d).isNone) ∨ (s.cooldown.staged = false ∧ s.cooldown.patternBad = false) ∨ 2 ≤ s.testsOn d ∨ s.taken d p = true then none
  else if s.cooldown.shutdown then
    if s.noneActive ∧ x.due.isSome ∧ s.nextInShutdown d p = true then some 0 else none
  else
    match x.serves with
    | some k => if (x.due.isSome ∨ x.owed = true) ∧ s.idleCore k = true ∧ s.rotating k = false then some (x.due.getD 3) else none
    | none => if x.pst = .spare ∨ x.pst = .parked then x.due else none

/-- One core save slot changed. -/
def State.updSave (s : State) (d : DieId) (i : Fin 2) (f : Option SaveSlot → Option SaveSlot) : State :=
  s.updDie d fun x => { x with saves := vupd x.saves i f }

/-- A core save slot. -/
def State.save (s : State) (d : DieId) (i : Fin 2) : Option SaveSlot := s.dies[d].saves[i]

/-- A save image put into a slot and its bytes into the reserved frame (R356, R359, R400). -/
def State.putSave (s : State) (d : DieId) (i : Fin 2) (v : SaveSlot) : State :=
  (s.writeArea d (0x2000000 + i.val * 0x1D00000) 0x1D00000 v.bytes).updSave d i fun _ => some v

/-- The state of a logical core saved into a slot; the image is complete at the end of phase 1 (R359, R362). [DEDUCED: log
40] -/
def State.saveCore (s : State) (d : DieId) (i : Fin 2) (k : CoreId) : State :=
  let im := s.imageOf k
  s.putSave d i ⟨k, im, im.crcs k, false⟩

/-- COOLDOWN_CORE_TEST (R353, R357, R359): phase 1 of a test, with the save of a state still in use. -/
def execCooldownCoreTest (d : DieId) (p : PCoreNo) (s : State) : Host.Outcome State Fault Refusal :=
  atDie d s fun s =>
    match s.testReason d p with
    | none => s
    | some r =>
      let sl := (s.freeSlot d).getD 0
      let k := (s.pcore d p).serves
      let s := match k with
        | some k => s.saveCore d sl k
        | none => s
      s.updPCore d p fun x =>
        { x with test := some ⟨r, if k.isSome then some sl else none, 0, 0, 0, 0, 0⟩, phase := 1, due := none }

/-- A test after a phase has ended (R353, R355): the phase that runs next, and the test. A scan phase passes with its expected signature;
phase 4 with no failing memory word. [DEDUCED: log 40] -/
def CdTest.phaseEnd (t : CdTest) (phase : BitVec 3) (noStored : Bool) (step : Byte) (sig : Word)
    (fails : BitVec 32) : BitVec 3 × CdTest :=
  let fail (pass : Bool) (c : BitVec 4) (t : CdTest) : CdTest := if pass ∨ t.failed ≠ 0 then t else { t with failed := c }
  if phase = 1 then (2, t)
  else if phase = 2 then (if noStored then 4 else 3, fail (sig == Config.scanSignature 0 2 step) 2 { t with sig2 := sig })
  else if phase = 3 then (4, fail (sig == Config.scanSignature 0 3 step) 3 { t with sig3 := sig })
  else if phase = 4 then (5, fail (fails == 0) 4 { t with fails := fails.toNat })
  else (phase, t)

/-- A region's test after a phase: phases 2 and 3 only (R354). Phase 5 stands for its end. -/
def RegionTest.phaseEnd (t : RegionTest) (region : Nat) (noStored : Bool) (step : Byte) (sig : Word) : RegionTest :=
  let fail (c : BitVec 4) (t : RegionTest) : RegionTest :=
    if sig = Config.scanSignature region c.toNat step ∨ t.failed ≠ 0 then t else { t with failed := c }
  if t.phase = 2 then fail 2 { t with sig2 := sig, phase := if noStored then 5 else 3 }
  else if t.phase = 3 then fail 3 { t with sig3 := sig, phase := 5 }
  else t

/-- The image of a test marked complete as its phase 1 ends (R359). -/
def State.completeSave (s : State) (d : DieId) (p : PCoreNo) : State :=
  let x := s.pcore d p
  match x.test.bind (·.slot) with
  | some i =>
    match s.save d i with
    | some v => if x.phase = 1 then s.putSave d i { v with complete := true } else s
    | none => s
  | none => s

/-- COOLDOWN_PHASE_END (R353, R354). -/
def execCooldownPhaseEnd (t : CdTarget) (sig : Word) (fails : BitVec 32) (s : State) : Host.Outcome State Fault Refusal :=
  match t with
  | .core d p => atDie d s fun s => (s.completeSave d p).updPCore d p fun x =>
      match x.test with
      | some t =>
        let r := t.phaseEnd x.phase s.cooldown.patternBad s.fuses.stepping sig fails
        { x with phase := r.1, test := some r.2 }
      | none => x
  | .dieLogic d => atDie d s fun s => s.updDie d fun x =>
      { x with logic := x.logic.map fun t => t.phaseEnd 1 s.cooldown.patternBad s.fuses.stepping sig }
  | .hub => always s fun s =>
      { s with cooldown := { s.cooldown with
          hub := s.cooldown.hub.map fun t => t.phaseEnd 2 s.cooldown.patternBad s.fuses.stepping sig } }

/-- CD_FAIL of a core (R366): hours served since its last passed test. [DEDUCED: log 41] -/
def State.cdFail (s : State) (d : DieId) (p : PCoreNo) (res : BitVec 4) : State :=
  let x := s.pcore d p
  let sev : Byte := if x.served ∧ ¬ (x.pst = .parked ∧ x.covered = true) then 2 else 1
  s.emit 0x14 sev (BitVec.ofNat 8 d.val) (if x.pst = .active then x.lcore else 0x7F)
    (BitVec.ofNat 64 (res.toNat + p.val <<< 8 + x.hours <<< 40)) 0 false

/-- The hour of a test's record: the tests of one shutdown share one (R358, R365). [DEDUCED: log 41] -/
def Cooldown.hour (c : Cooldown) : BitVec 24 := if c.shutdown then c.shutHour else c.phours

/-- A test that ends with a result: its record, and the core's registers (R364, R365). -/
def State.testEnds (s : State) (d : DieId) (p : PCoreNo) (t : CdTest) (res : BitVec 4) : State :=
  let s := s.age (cdRecord s.cooldown.hour d.val p.val res.toNat t.reason.toNat t.sig2 t.sig3 t.fails)
  s.updPCore d p fun x => { x with test := none, phase := 0, lastRes := res }

/-- A core that has passed (R357, R358, R18): a PARKED core becomes SPARE. -/
def State.testPassed (s : State) (d : DieId) (p : PCoreNo) (t : CdTest) : State :=
  (s.testEnds d p t 1).updPCore d p fun x =>
    { x with
      pst := if x.pst = .parked then .spare else x.pst
      lastPass := s.cooldown.hour
      owed := false, owedAt := 0xFFFFFF, overdue := false, told := false, faulted := false, covered := false
      served := x.pst == .active, hours := 0 }

/-- A SPARE of a die for a logical core that has lost its own, or a core whose test is abandoned for it (R21, R360). -/
def State.takeInto (s : State) (d : DieId) : Option (PCoreNo × State) :=
  match s.freeSpare d with
  | some t => some (t, s)
  | none => (s.parkedSpare d).map fun t => (t, s.abandonTest d t)

/-- A logical core whose core failed in place is rotated to another one of its die, filled from the image; while a rotation holds the die's
last SPARE it waits, and without one it is unavailable (R22, R360). [DEDUCED: log 41] -/
def State.refill (s : State) (k : CoreId) (p : PCoreNo) (i : Fin 2) : State :=
  match s.takeInto (dieOf k) with
  | some (t, s) => { s with rotations := s.rotations ++ [⟨k, p, t, .restoreFailed i, false⟩] }
  | none =>
    if s.hasSpare (dieOf k) then { s with cooldown := { s.cooldown with fill := s.cooldown.fill ++ [(k, p, i)] } }
    else s.makeUnavailable k

/-- The logical cores that wait for a core of their die, once one may be there. -/
def State.refillWaiting (s : State) : State :=
  let l := s.cooldown.fill
  l.foldl (fun s x => s.refill x.1 x.2.1 x.2.2) { s with cooldown := { s.cooldown with fill := [] } }

/-- A core that has failed is RETIRED (R353, R360); the logical core that it served in place goes to another one, at a shutdown at the next
start (R361). [DEDUCED: log 41] -/
def State.testFailed (s : State) (d : DieId) (p : PCoreNo) (t : CdTest) (res : BitVec 4) : State :=
  let s := (s.cdFail d p res).testEnds d p t res
  let k := (s.pcore d p).serves
  let s := s.updPCore d p PCore.retire
  match k with
  | none => s
  | some k => if s.cooldown.shutdown then s else s.refill k p (t.slot.getD 0)

/-- The end of a core's test (R360): the CRCs of the whole restored state against the image's, the restore repeated once, or failed. `verified` is what
the read back of the restored state finds. [DEDUCED: log 40] -/
def State.coreTestEnd (s : State) (d : DieId) (p : PCoreNo) (t : CdTest) (verified : Bool) : State :=
  match t.slot.bind fun i => s.save d i, (s.pcore d p).serves with
  | some v, some k =>
    let s := s.restoreCore k v.image
    if verified && (s.imageOf k).crcs k == v.crcs then
      if t.failed = 0 then s.testPassed d p t else s.testFailed d p t t.failed
    else if t.misses = 0 then s.updPCore d p fun x => { x with test := some { t with misses := 1 } }
    else s.testFailed d p t 6
  | _, _ => if t.failed = 0 then s.testPassed d p t else s.testFailed d p t t.failed

/-- The end of a region's test (R354). -/
def State.regionEnd (s : State) (die : Nat) (t : RegionTest) : State :=
  let res : Nat := if t.failed = 0 then 1 else t.failed.toNat
  let s := s.age (cdRecord s.cooldown.hour die 0xFF res 0 t.sig2 t.sig3 0)
  if t.failed = 0 then s
  else (s.emit 0x14 2 (BitVec.ofNat 8 die) 0x7F (BitVec.ofNat 64 (res + 0xFF <<< 8)) 0 false).mark 1

/-- The summary record of a shutdown, whose contents the manual does not give (R361). -/
def State.writeSummary (s : State) : State :=
  let f := s.takeFresh
  f.2.age (Config.shutdownSummary f.1)

/-- No core of a die is still to be tested in the shutdown, and none is under test. -/
def State.coresDone (s : State) (d : DieId) : Bool :=
  (List.finRange 18).all fun p => (s.pcore d p).due.isNone && (s.pcore d p).test.isNone

/-- A barrier context as the die save slot holds it, in 512 bytes (R354, R356). [DESIGN CHOICE: log 93] -/
def BarCtx.bytes (b : BarCtx) : List Byte :=
  let slot (x : CoreId × Fin 16 × Nat) : List Byte := natLe 8 (x.1.val + x.2.1.val <<< 6 + x.2.2 <<< 10)
  natLe 16 (b.gen.toNat + b.arrived.toNat <<< 16 + b.early.toNat <<< 32 + b.cmask.toNat <<< 48 + b.dmask.toNat <<< 64 +
      b.darr.toNat <<< 68 + b.dearly.toNat <<< 72 + (if b.valid then 1 else 0) <<< 76 + (if b.dieMask then 1 else 0) <<< 77) ++
    ((b.slots.flatMap slot) ++ List.replicate 240 0).take 240 ++ ((b.eslots.flatMap slot) ++ List.replicate 256 0).take 256

/-- The Starter of a die saved for the test of the die's logic (R354, R356). -/
def State.saveStarter (s : State) (d : DieId) : State :=
  let l := s.dies[d].bars.toList.flatMap BarCtx.bytes
  (s.writeArea d 0x5A00000 0x600000 (areaBytes 0 0x2000 fun i => l.getD i 0)).updDie d fun x => { x with barSave := some x.bars }

/-- The stages of a shutdown that can begin (R361): the logic of each die whose cores are done, and the hub when every die
is. [DEDUCED: log 69] -/
def State.shutdownNext (s : State) : State :=
  if s.cooldown.shutdown = false ∨ s.cooldown.shutdownDone = true then s
  else
    let s := (List.finRange 4).foldl (fun s d =>
      let x := s.dies[d]
      if s.hasDie d && x.logic.isNone && s.coresDone d then
        (s.saveStarter d).updDie d fun x => { x with logic := some ⟨2, 0, 0, 0⟩ }
      else s) s
    let done := (List.finRange 4).all fun d => !s.hasDie d || (match s.dies[d].logic with
      | some t => t.phase == 0
      | none => false)
    if done ∧ s.cooldown.hub.isNone then { s with cooldown := { s.cooldown with hub := some ⟨2, 0, 0, 0⟩ } } else s

/-- COOLDOWN_TEST_END (R353, R354, R360, R361, R365): the logic of a die that has ended stays in phase 0 until the next start. -/
def execCooldownTestEnd (t : CdTarget) (verified : Bool) (s : State) : Host.Outcome State Fault Refusal :=
  match t with
  | .core d p => atDie d s fun s =>
      match (s.pcore d p).test with
      | some t => if (s.pcore d p).phase = 5 then (s.coreTestEnd d p t verified).shutdownNext else s
      | none => s
  | .dieLogic d => atDie d s fun s =>
      match s.dies[d].logic with
      | some t =>
        if t.phase = 5 then
          ((s.updDie d fun x => { x with bars := x.barSave.getD x.bars, logic := some { t with phase := 0 } }).regionEnd d.val t).shutdownNext
        else s
      | none => s
  | .hub => always s fun s =>
      match s.cooldown.hub with
      | some t =>
        if t.phase = 5 then
          (({ s with
            cooldown := { s.cooldown with hub := some { t with phase := 0 }, hubDue := false, shutdownDone := true }
            ports := s.ports.map fun x => { x with pstate := if x.pstate = .disabled then .disabled else .down } } : State).regionEnd
            0x10 t).writeSummary
        else s
      | none => s

/-! ### SRAM (R332) -/

/-- An SRAM word lies in core k. -/
def State.holdsWord (s : State) (w : SramWord) (k : CoreId) : Bool :=
  match w with
  | .memory a => match s.place a.toNat with
    | .basin o _ => o == k
    | .cistern o _ => o == k
    | .istore o _ => o == k
    | _ => false
  | _ => true

/-- SRAM_SCRUB (R332): a single upset is corrected and counted; a double-bit error is a core fault. -/
def execSramScrub (k : CoreId) (w : SramWord) (u : Upset) (s : State) : Host.Outcome State Fault Refusal :=
  atCore k s fun s =>
    if s.holdsWord w k = false ∨ (s.core k).unavailable = true then s
    else
      match u with
      | .none => s
      | .single => s.sramCe k
      | .double => s.coreFault k 2

end Sys2Proof.Machine
end

