-- ==== Sys2Proof/Machine/Alloc.lean ====
section
/-! DEFINITION. The Clerk's allocations (R31, R263-R265, R328, R397-R400, R404, R410, R497): frames, ranges, tags and handles. -/

namespace Sys2Proof.Machine

/-- Blocks of a frame. -/
def frameBlocks : Nat := 2 ^ 18

/-- The interleave of an allocation: the stacks of one die, or all stacks of the grade. -/
inductive Interleave where
  | die (d : DieId)
  | all
  deriving DecidableEq, Repr

/-- A frame has an interleave. -/
def Frame.has (f : Frame) : Interleave → Bool
  | .die d => !f.fmode && f.fdie.toNat == d.val
  | .all => f.fmode

/-- Slices that a frame takes on each of its stacks (R397, R398). -/
def State.sliceCount (s : State) : Interleave → Nat
  | .die _ => 4
  | .all => if s.fuses.gy4 then 1 else 2

/-- A frame's interleave. -/
def Frame.mode (f : Frame) : Interleave := if f.fmode then .all else .die ⟨f.fdie.toNat, f.fdie.isLt⟩

/-- Two interleaves share a stack. -/
def Interleave.meets : Interleave → Interleave → Bool
  | .die a, .die b => a == b
  | _, _ => true

/-- Slices from `i` on are free for an interleave. -/
def State.slicesFree (s : State) (frames : Sparse Frame) (m : Interleave) (i : Nat) : Bool :=
  frames.all fun e =>
    !(e.2.mode.meets m) || decide (e.2.fslice.toNat + s.sliceCount e.2.mode ≤ i ∨ i + s.sliceCount m ≤ e.2.fslice.toNat)

/-- The first free slice for a new frame, below the reserved ones (R400, R401). [DESIGN CHOICE: log 36] -/
def State.firstSlice (s : State) (frames : Sparse Frame) (m : Interleave) : Option Nat :=
  let n := s.sliceCount m
  ((List.range (2036 / n)).find? fun j => s.slicesFree frames m (n * j)).map fun j => n * j

/-- Every range that the Clerk has allocated: first block and blocks. -/
def State.ranges (s : State) : List (Nat × Nat) :=
  (s.handles.live.map fun h => (h.2.first, h.2.blocks)) ++ s.rings.map fun r => (r.2.first, r.2.blocks)

/-- Two ranges of blocks meet. -/
def blocksMeet (a n b m : Nat) : Bool := decide (a < b + m ∧ b < a + n)

/-- A range lies in a frame, in part. -/
def State.frameUsed (s : State) (f : Nat) : Bool := s.ranges.any fun r => blocksMeet (f * frameBlocks) frameBlocks r.1 r.2

/-- A stack of an interleave is out of service (R410). -/
def State.interleaveDead (s : State) (m : Interleave) : Bool :=
  (List.finRange 32).any fun st =>
    s.hbms[st].hstate == .outOfService &&
      (match m with
       | .die d => st.val / 8 == d.val
       | .all => decide (st.val < s.stackCount))

/-- A frame backed for an interleave: as it is, or anew where nothing uses it (R397). [DESIGN CHOICE: log 36] -/
def State.backFrame (s : State) (m : Interleave) (frames : Sparse Frame) (f : Nat) : Option (Sparse Frame) :=
  let fresh (fr : Sparse Frame) : Option (Sparse Frame) :=
    if s.interleaveDead m then none
    else (s.firstSlice fr m).map fun i =>
      Sparse.put fr f ⟨m == .all, match m with
        | .die d => BitVec.ofNat 2 d.val
        | .all => 0, BitVec.ofNat 11 i⟩
  if s.frameCount - s.dieCount ≤ f then none
  else
    match Sparse.find frames f with
    | some g => if g.has m then some frames else if s.frameUsed f then none else fresh (Sparse.del frames f)
    | none => fresh frames

/-- Frames from `f` on backed, `n` of them. -/
def State.backFrames (s : State) (m : Interleave) : Nat → Nat → Sparse Frame → Option (Sparse Frame)
  | 0, _, frames => some frames
  | n + 1, f, frames => (s.backFrame m frames f).bind fun fr => s.backFrames m n (f + 1) fr

/-- The frames with a range of `n` blocks from block `c` on backed, where the range is free. -/
def State.tryRange (s : State) (m : Interleave) (n c : Nat) : Option (Sparse Frame) :=
  if s.ranges.any fun r => blocksMeet c n r.1 r.2 then none
  else s.backFrames m ((c + n - 1) / frameBlocks - c / frameBlocks + 1) (c / frameBlocks) s.frames

/-- A number put into a rising list. -/
def insertNat (a : Nat) : List Nat → List Nat
  | [] => [a]
  | b :: l => if a ≤ b then a :: b :: l else b :: insertNat a l

/-- Where a range may begin in frame `f`: at its start, or at the end of a range in it, in rising order. -/
def State.starts (s : State) (f : Nat) : List Nat :=
  (f * frameBlocks) ::
    (((s.ranges.map fun r => r.1 + r.2).filter fun e => decide (f * frameBlocks < e ∧ e < (f + 1) * frameBlocks)).foldl
      (fun l e => insertNat e l) [])

/-- The lowest range of `n` blocks in frames of an interleave: its first block and the frames with it backed. [DESIGN CHOICE:
log 36] -/
def State.findRange (s : State) (m : Interleave) (n : Nat) : Option (Nat × Sparse Frame) :=
  (List.range (s.frameCount - s.dieCount)).findSome? fun f =>
    (s.starts f).findSome? fun c => (s.tryRange m n c).map fun fr => (c, fr)

/-- The pairs of a map whose numbers lie in a range, their numbers as `key` gives them. -/
def rekeyed {α : Type} (m : Sparse α) (key : Nat → Option Nat) : Sparse α := m.filterMap fun e => (key e.1).map fun k => (k, e.2)

/-- The device blocks of a frame emptied: they show what has never been written. -/
def State.clearFrame (s : State) (f : Nat) : State :=
  let lo := f * frameBlocks
  { s with
    mem := outside s.mem (4096 * lo) (4096 * (lo + frameBlocks))
    bibs := outside s.bibs lo (lo + frameBlocks)
    poison := outside s.poison lo (lo + frameBlocks)
    fills := ⟨lo, frameBlocks, 0, true⟩ :: Fill.without s.fills lo frameBlocks }

/-- A frame given up: its slices keep their data, bibs and poison marks (R397, R404). [DESIGN CHOICE: log 36] -/
def State.shelve (s : State) (f : Nat) : State :=
  let key (a : Nat) : Option Nat := if a / 2 ^ 30 = f then (s.stackAt a).map fun x => x.1.val * 2 ^ 36 + x.2 else none
  let blk (b : Nat) : Option Nat := (key (4096 * b)).map fun k => k / 4096
  let held := (List.range frameBlocks).filterMap fun i =>
    let b := f * frameBlocks + i
    if (Sparse.find s.bibs b).isSome || (s.fills.find? fun x => x.covers b).any fun x => !x.void then (blk b).map fun k => (k, s.hbmBib b)
    else none
  ({ s with shelf :=
    { mem := (rekeyed s.mem key).foldl (fun m e => Memory.setByte m e.1 e.2) s.shelf.mem
      bibs := held.foldl (fun m e => Sparse.put m e.1 e.2) s.shelf.bibs
      poison := (rekeyed s.poison blk).foldl (fun m e => Sparse.put m e.1 e.2) s.shelf.poison } } : State).clearFrame f

/-- A frame backed anew shows what its slices hold (R398, R404). [DESIGN CHOICE: log 36] -/
def State.unshelve (s : State) (e : Nat × Frame) : State :=
  let addr (k : Nat) : Option Nat := s.addrIn ⟨k / 2 ^ 36 % 32, by omega⟩ (k % 2 ^ 36) e
  let blk (k : Nat) : Option Nat := (addr (4096 * k)).map fun a => a / 4096
  { s with
    mem := (rekeyed s.shelf.mem addr).foldl (fun m e => Memory.setByte m e.1 e.2) s.mem
    bibs := (rekeyed s.shelf.bibs blk).foldl (fun m e => Sparse.put m e.1 e.2) s.bibs
    poison := (rekeyed s.shelf.poison blk).foldl (fun m e => Sparse.put m e.1 e.2) s.poison
    shelf :=
      { mem := s.shelf.mem.filter fun e => (addr e.1).isNone, bibs := s.shelf.bibs.filter fun e => (blk e.1).isNone
        poison := s.shelf.poison.filter fun e => (blk e.1).isNone } }

/-- The frames changed (R397, R404): the slices of a frame given up keep what they hold, and one backed anew shows what its
slices hold. [DESIGN CHOICE: log 36] -/
def State.setFrames (s : State) (frames : Sparse Frame) : State :=
  let gone := s.frames.filter fun e => Sparse.find frames e.1 != some e.2
  let anew := frames.filter fun e => Sparse.find s.frames e.1 != some e.2
  let s := gone.foldl (fun s e => s.shelve e.1) s
  anew.foldl (fun s e => (s.clearFrame e.1).unshelve e) { s with frames := frames }

/-- A range of `n` blocks allocated, backed and filled with zeros under a tag (R404): the range's first block. [DESIGN
CHOICE: log 36] -/
def State.allocate (s : State) (m : Interleave) (n : Nat) (tagOf : Nat → BitVec 12) : Option (Nat × State) :=
  (s.findRange m n).map fun r => (r.1, (s.setFrames r.2).zeroFill r.1 n (tagOf r.1))

/-! ### Tags (R328) -/

/-- Two ranges are near: the gap between them is less than 2^32 bytes. -/
def near (a n b m : Nat) : Bool :=
  if a + n ≤ b then decide ((b - (a + n)) * 4096 < 2 ^ 32)
  else if b + m ≤ a then decide ((a - (b + m)) * 4096 < 2 ^ 32)
  else true

/-- Live near handles of a range that hold a tag. [DESIGN CHOICE: log 37] -/
def State.nearHolders (s : State) (first n tag : Nat) : Nat :=
  (s.handles.live.filter fun h => h.2.tag.toNat == tag && near first n h.2.first h.2.blocks).length

/-- A handle freed since the last STEPCLOSE, whose range overlapped, held a tag. [DESIGN CHOICE: log 37] -/
def State.recentHolder (s : State) (first n tag : Nat) : Bool :=
  s.handles.recent.any fun r => r.2.2.toNat == tag && blocksMeet first n r.1 r.2.1

/-- The tags that a handle can have. -/
def tagList : List Nat := (List.range 4095).map fun i => i + 1

/-- The tag with the fewest live near holders among those given, the lowest on a tie. [DESIGN CHOICE: log 37] -/
def State.leastHeld (s : State) (first n : Nat) : List Nat → Nat
  | [] => 1
  | [t] => t
  | t :: l =>
    let u := s.leastHeld first n l
    if s.nearHolders first n t ≤ s.nearHolders first n u then t else u

/-- The tag of a new range, and whether it is a reuse (R328). [DESIGN CHOICE: log 37] -/
def State.chooseTag (s : State) (first n : Nat) : Nat × Bool :=
  match tagList.find? fun t => s.nearHolders first n t == 0 && !s.recentHolder first n t with
  | some t => (t, false)
  | none => (s.leastHeld first n tagList, true)

/-! ### Handles (R263, R497) -/

/-- A handle's 32 bits. -/
def mkHandle (gen : BitVec 12) (idx : Nat) : BitVec 32 := gen ++ BitVec.ofNat 20 idx

/-- The record of a handle that is allocated and of its entry's generation (R263). -/
def State.handle (s : State) (h : BitVec 32) : Option HandleRec :=
  match Sparse.find s.handles.live (fld h 0 20) with
  | some r => if r.gen = h.extractLsb' 20 12 then some r else none
  | none => none

/-- A tensor descriptor judged (R34, R46, R47, R263, R266): the handles that it names are allocated, and its format and scale
are good. [DEDUCED: log 34] [DESIGN CHOICE: log 109] -/
def State.descJudge (s : State) (d : BitVec 512) : Option Byte :=
  if (s.handle (d.extractLsb' 0 32)).isNone ∨ (fld d 448 32 ≠ 0 ∧ (s.handle (d.extractLsb' 448 32)).isNone) then some ST_BAD_HANDLE
  else if (FmtScale.ofWord (d.extractLsb' 64 64)).good then none
  else some ST_BAD_FORMAT

/-- Handle entries. -/
def handleMax : Nat := 0xFFFFF

/-- The index at the front of the free list (R497). -/
def Handles.front (t : Handles) : Option Nat :=
  t.returned.head?.or (if t.fresh ≤ handleMax then some t.fresh else t.freed.head?)

/-- The index at the front taken for a record. -/
def Handles.take (t : Handles) (idx : Nat) (r : HandleRec) : Handles :=
  { t with
    live := Sparse.put t.live idx r
    returned := t.returned.drop 1
    fresh := if t.returned.isEmpty ∧ idx = t.fresh then t.fresh + 1 else t.fresh
    freed := if t.returned.isEmpty ∧ idx ≠ t.fresh then t.freed.drop 1 else t.freed }

/-- An index freed: to the back of the list with `GEN` raised (R263, R497). -/
def Handles.free (t : Handles) (idx : Nat) (r : HandleRec) : Handles :=
  { t with
    live := Sparse.del t.live idx
    freed := t.freed ++ [idx]
    gens := Sparse.put t.gens idx (r.gen + 1)
    recent := t.recent ++ [(r.first, r.blocks, r.tag)] }

/-- A bib without a tensor's tag. -/
def untagged (b : Word) : Word := mkBib 0 (bibIdx b).toNat (bibCrc b)

/-- The bibs of a freed range lose their tag, so that a later access finds bibs of another tag (R265). [DESIGN CHOICE: log 91] -/
def State.untag (s : State) (first n : Nat) : State :=
  { s with
    bibs := s.bibs.map fun e => if first ≤ e.1 ∧ e.1 < first + n then (e.1, untagged e.2) else e
    fills := ⟨first, n, 0, false⟩ :: s.fills }

/-- The interleave that a hint asks for: one consuming die, or all stacks (R264). -/
def hintMode (hint : BitVec 32) : Interleave :=
  match (List.finRange 4).filter fun d => hint.getLsbD (12 + d.val) with
  | [d] => .die d
  | _ => .all

/-- A size or hint that TALLOC refuses (R265). -/
def State.badAlloc (s : State) (size : Nat) (hint : BitVec 32) : Bool :=
  decide (size = 0 ∨ 2 ^ 29 < size) || decide (2 ^ s.dieCount ≤ fld hint 12 4) ||
    (hint.getLsbD 22 && decide (s.coreCount ≤ fld hint 16 6)) || fld hint 6 2 == 3

/-- A tensor allocated (R265): a status, and the result words. -/
def State.talloc (s : State) (size : Nat) (hint : BitVec 32) : Byte × BitVec 384 × State :=
  if s.badAlloc size hint then (ST_BAD_CMD, 0, s)
  else
    match s.handles.front with
    | none => (ST_NO_HANDLE, 0, s)
    | some idx =>
      match s.allocate (hintMode hint) size fun first => BitVec.ofNat 12 (s.chooseTag first size).1 with
      | none => (ST_NO_MEMORY, 0, s)
      | some (first, t) =>
        let c := s.chooseTag first size
        let gen := (Sparse.find s.handles.gens idx).getD 0
        let tag : BitVec 12 := BitVec.ofNat 12 c.1
        let t : State := { t with handles := t.handles.take idx ⟨gen, first, size, tag, hint⟩ }
        let t := if c.2 then t.emit 0x12 0 0xFF 0x7F (BitVec.ofNat 64 c.1) 0 false else t
        (ST_OK, BitVec.ofNat 384 ((mkHandle gen idx).toNat + tag.toNat <<< 32 + (4096 * first) <<< 64), t)

/-- The reserved frames of the grade's dies set (R400), but for a die with a stack out of service (R410). [DESIGN CHOICE: log 36] -/
def State.reserveFrames (s : State) : State :=
  (List.finRange 4).foldl (fun s d =>
    let f := s.frameCount - s.dieCount + d.val
    if s.dieCount ≤ d.val then s
    else if s.interleaveDead (.die d) then
      ({ s with frames := Sparse.del s.frames f } : State).updDie d fun x => { x with saveBase := 0, saves := Vector.replicate 2 none }
    else
      ({ s with frames := Sparse.put s.frames f ⟨false, BitVec.ofNat 2 d.val, 2036⟩ } : State).updDie d fun x =>
        { x with saveBase := BitVec.ofNat 48 (f * 2 ^ 30) }) s

end Sys2Proof.Machine
end

