-- ==== Sys2Proof/Machine/Engines.lean ====
section
/-! DEFINITION. The rows of the queues (R242-R258, R504) and the commands of the core, Starter and Clerk classes (R259-R272), but for
STEPCLOSE. -/

namespace Sys2Proof.Machine

/-! ### Host rows (R246, R257, R258, R432, R434) -/

/-- A due core that serves a logical core with a job loaded becomes owed (R357). -/
def PCore.becomesOwed (x : PCore) (phours : BitVec 24) : PCore :=
  if x.due.isSome ∧ x.test.isNone ∧ x.owed = false then { x with owed := true, owedAt := phours, due := none } else x

/-- A core or Runnel queue that holds a command loads a job on its core (R357). -/
def State.jobArrives (s : State) (q : Nat) : State :=
  let x := s.queue q
  if (x.ecls = 1 ∨ x.ecls = 2) ∧ x.done ≠ x.tail then
    match s.servedBy x.lcore with
    | some p => s.updPCore (dieOf x.lcore) p fun c => c.becomesOwed s.cooldown.phours
    | none => s
  else s

/-- DOORBELL (R246, R357, R434): a write to the doorbell window. -/
def execDoorbell (q : QId) (v : Word) (whole : Bool) (s : State) : Host.Outcome State Fault Refusal :=
  always s fun s => s.ifOpen 1 fun s => if s.host.ready then (s.doorbell q.val v whole).jobArrives q.val else s

/-- STOP (R257, R258). -/
def execStop (q : QId) (s : State) : Host.Outcome State Fault Refusal :=
  always s fun s => s.ifOpen 0 fun s => s.stopQueue q.val

/-- RESUME (R257). -/
def execResume (q : QId) (s : State) : Host.Outcome State Fault Refusal :=
  always s fun s => s.ifOpen 0 fun s => s.resumeQueue q.val

/-- SKIP (R257). -/
def execSkip (q : QId) (s : State) : Host.Outcome State Fault Refusal :=
  always s fun s => s.ifOpen 0 fun s => s.skipQueue q.val

/-- FLUSH (R257). -/
def execFlush (q : QId) (s : State) : Host.Outcome State Fault Refusal :=
  always s fun s => s.ifOpen 0 fun s => s.flushQueue q.val

/-! ### Dispatch (R242, R252, R253, R308) -/

/-- Two queues are bound to one engine instance. -/
def Queue.sameEngine (a b : Queue) : Bool := a.ecls == b.ecls && a.inst == b.inst

/-- Commands that an engine instance runs at once (Table: Engine classes, R275). -/
def engineLimit (ecls : BitVec 4) : Nat := if ecls = 3 then 256 else if ecls = 5 then 8 else 1

/-- Group and tag of a Baton command (Table: SHIFT operands, Table: Permutation operands). -/
def batonGroupTag (c : BitVec 512) : Nat × BitVec 16 :=
  if cmdOpc c = 0x20 then (opf c 280 12, BitVec.ofNat 16 (opf c 264 16)) else (opf c 68 12, BitVec.ofNat 16 (opf c 80 16))

/-- The group and tag of the Baton command at the head of an ACTIVE queue. -/
def State.runningTag (s : State) (q : Nat) : Option (Nat × BitVec 16) :=
  let x := s.queue q
  match x.head with
  | some c => if x.ecls = 3 ∧ cmdOpc c ≠ 0x0F then some (batonGroupTag c) else none
  | none => none

/-- Baton takes a command of a group only inside the tag window of the group's earliest-started command that runs (R308). -/
def State.tagWindow (s : State) (c : BitVec 512) : Bool :=
  let gt := batonGroupTag c
  match (s.active.filterMap s.runningTag).find? fun x => x.1 == gt.1 with
  | some x => decide ((gt.2 - x.2).toNat < 2 ^ 15)
  | none => true

/-- A core stopped at its stop count: its Runnels begin no new stream until it is launched again (R164, R214). [DESIGN
CHOICE: log 102] -/
def Core.prefixStopped (c : Core) : Bool := c.arch.stopCause == 0x02 && !c.running

/-- A logical core has its physical core, or never again one (R22, R360). -/
def State.hasServer (s : State) (k : CoreId) : Bool := (s.servedBy k).isSome || (s.core k).unavailable

/-- The engine of a queue stands on a die that has stopped (R26). -/
def State.engineOut (s : State) (q : Nat) : Bool := (List.finRange 4).any fun d => (s.queue q).onDie d && s.dieOut d

/-- The engine of a queue can take the queue's met head: one on a die that has stopped takes none (R26); none starts from a shutdown with Cooldown on until it is complete (R361), and a
core under test, in a rotation or without a physical core takes none, nor do its Runnels (R19, R357, R360). [DEDUCED: log 34] -/
def State.engineTakes (s : State) (q : Nat) : Bool :=
  let x := s.queue q
  let c := x.head.getD 0
  decide ((s.active.filter fun r => (s.queue r).sameEngine x).length < engineLimit x.ecls) &&
    !(s.cooldown.shutdown && !s.cooldown.shutdownDone) && !s.engineOut q &&
    (if x.ecls = 1 ∨ x.ecls = 2 then
      !s.underTest x.lcore && !s.rotating x.lcore && s.hasServer x.lcore && !(x.ecls == 2 && (s.core x.lcore).prefixStopped)
     else if x.ecls = 3 then cmdOpc c == 0x0F || s.tagWindow c
     else true)

/-- The head of queue `q` is the next that its engine takes: no other head of the engine that it can take became met before it. -/
def State.nextTaken (s : State) (q : Nat) : Bool :=
  (s.ready.find? fun r => (s.queue r).sameEngine (s.queue q) && s.engineTakes r) == some q

/-- COMMAND_DISPATCH (R253): the engine takes the head of a queue. -/
def execCommandDispatch (q : QId) (s : State) : Host.Outcome State Fault Refusal :=
  always s fun s =>
    let x := s.queue q.val
    if x.qstate = .waiting ∧ s.nextTaken q.val = true then
      if (x.ecls = 1 ∨ x.ecls = 2) ∧ (s.core x.lcore).unavailable = true then s.complete q.val ST_NO_SPARE 0
      else
        { (s.updQueue q.val fun x => { x with qstate := .active, begun := false, moved := 0, fin := none }) with
          ready := s.ready.filter (· != q.val), active := s.active ++ [q.val] }
    else s

/-- COMMAND_COMPLETION (R254-R257): the record of a finished head. -/
def execCommandCompletion (q : QId) (s : State) : Host.Outcome State Fault Refusal := always s fun s => s.completeFinished q.val

/-! ### Taking a head -/

/-- The head of queue `q`, where it is ACTIVE on its engine with this opcode and has no result yet. -/
def State.headFor (s : State) (q opc : Nat) : Option (BitVec 512) :=
  let x := s.queue q
  match x.head with
  | some c => if x.qstate = .active ∧ cmdOpc c = opc ∧ x.fin = none then some c else none
  | none => none

/-- An engine acts on the head of a queue. -/
def State.onHead (s : State) (q opc : Nat) (f : BitVec 512 → State → State) : State :=
  match s.headFor q opc with
  | some c => f c s
  | none => s

/-- The engine has begun the head. -/
def State.begin (s : State) (q : Nat) : State := s.updQueue q fun x => { x with begun := true }

/-- A head ends with a status and no result. -/
def State.fail (s : State) (q : Nat) (st : Byte) : State := s.finish q st 0

/-! ### LAUNCH, MARK, CTRSET (R259, R260, R262) -/

/-- LAUNCH (R135, R260, R378): the program of a stopped core starts; the command crosses the die link. -/
def execLaunch (q : QId) (s : State) : Host.Outcome State Fault Refusal :=
  always s fun s => s.onHead q.val 0x01 fun c s =>
    let k := (s.queue q.val).lcore
    if (s.queue q.val).begun ∨ (s.core k).isStopped = false ∨ s.dieHeld (dieOf k) = true ∨ s.rotating k = true ∨
        s.linkUp (dieOf k) = false then s
    else
      (s.begin q.val).updCore k fun x =>
        x.launchAt q.val (BitVec.ofNat 13 (opf c 0 13)) (BitVec.ofNat 48 (opf c 64 48)) (opf c 49 1 == 1)

/-- MARK (R259). -/
def execMark (q : QId) (s : State) : Host.Outcome State Fault Refusal :=
  always s fun s => s.onHead q.val 0x0F fun _ s => s.finish q.val ST_OK 0

/-- A counter set or added to for CTRSET (R262): both as a change from outside the core. It waits for the die's link (R26,
R378); what is
addressed to a core that rotates or is isolated is held (R236, R353). [DEDUCED: log 34] [DESIGN CHOICE: log 106] -/
def State.ctrset (s : State) (q : Nat) (k : CoreId) (ctr : BitVec 6) (v : BitVec 16) (add : Bool) : State :=
  if s.hubDie (dieOf k) = false then s
  else if s.cutOff k then
    if add then (s.sendCtr ⟨k, 64 + q, ctr, v, false⟩).finish q ST_OK 0 else s
  else
    let s := s.settle k
    if add then (s.deliver k [(ctr, v)]).finish q ST_OK 0
    else if (s.core k).isStopped then (s.deliver k [(ctr, v - (s.core k).arch.ctr ctr)]).finish q ST_OK 0
    else s.fail q ST_CORE_BUSY

/-- CTRSET (R243, R262). -/
def execCtrset (q : QId) (s : State) : Host.Outcome State Fault Refusal :=
  always s fun s => s.onHead q.val 0x40 fun c s =>
    let lc := opf c 22 6
    if s.coreCount ≤ lc then s.fail q.val ST_ABSENT_ENGINE
    else if lc / 16 ≠ (s.queue q.val).inst.toNat ∨ 47 < opf c 16 6 then s.fail q.val ST_BAD_CMD
    else s.ctrset q.val ⟨lc % 64, by omega⟩ (BitVec.ofNat 6 (opf c 16 6)) (BitVec.ofNat 16 (opf c 0 16)) (opf c 28 1 == 1)

/-! ### TALLOC and TFREE (R263-R265) -/

/-- TALLOC (R265). [DEDUCED: log 80] -/
def execTalloc (q : QId) (s : State) : Host.Outcome State Fault Refusal :=
  always s fun s => s.onHead q.val 0x50 fun c s =>
    let r := s.talloc (opf c 0 32) (BitVec.ofNat 32 (opf c 32 32))
    r.2.2.finish q.val r.1 r.2.1

/-- TFREE (R263, R265). -/
def execTfree (q : QId) (s : State) : Host.Outcome State Fault Refusal :=
  always s fun s => s.onHead q.val 0x51 fun c s =>
    let h : BitVec 32 := BitVec.ofNat 32 (opf c 0 32)
    match s.handle h with
    | none => s.fail q.val ST_BAD_HANDLE
    | some r => (({ s with handles := s.handles.free (fld h 0 20) r } : State).untag r.first r.blocks).finish q.val ST_OK 0

/-! ### HCOPY and DUMP (R267, R268, R435) -/

/-- A block of a tensor with the bib it must have (R327): its data where all three fields agree. -/
def State.readTensor (s : State) (r : HandleRec) (i : Nat) : Option (List Byte × Word) :=
  let b := s.readHbm (r.first + i)
  if bibTag b.2 = r.tag ∧ (bibIdx b.2).toNat = i % 2 ^ 20 ∧ crcOk b.1 b.2 = true then some b else none

/-- A failed transfer of the host port counted (R435). -/
def State.hostFailed (s : State) : State := { s with host := { s.host with hfails := sat16 s.host.hfails 1 } }

/-- One block of an HCOPY moved; none where its bib fails. [DESIGN CHOICE: log 9] -/
def State.hcopyBlock (s : State) (r : HandleRec) (i : Nat) (out : Bool) (ha : Nat) : Option State :=
  if out then
    match s.readTensor r i with
    | some b => some { s with hostMem := Memory.setBytes s.hostMem ha b.1 }
    | none => none
  else
    let data := Memory.bytes s.hostMem ha 4096
    some (s.writeHbm (r.first + i) data (mkBib r.tag i (crc32c data)) .other)

/-- At most `n` blocks of an HCOPY moved, from the first that has not been moved on; a block waits for its die's link (R378). -/
def State.hcopyBlocks (s : State) (q : Nat) (r : HandleRec) (haddr first count : Nat) (out : Bool) : Nat → State
  | 0 => s
  | n + 1 =>
    let m := (s.queue q).moved
    if count ≤ m ∨ s.hubReaches (4096 * (first + m)) = false then s
    else
      match s.hcopyBlock r (first + m) out (haddr + 4096 * m) with
      | none => s.finish q ST_BIB_FAIL (BitVec.ofNat 384 m)
      | some t => (t.updQueue q fun x => { x with moved := m + 1 }).hcopyBlocks q r haddr first count out n

/-- A Clerk command that moves blocks ends once all are moved, or with a host-port error. -/
def State.endMove (s : State) (q count : Nat) (hostFail : Bool) (result : Nat) : State :=
  if (s.queue q).fin.isSome then s
  else if count ≤ (s.queue q).moved then s.finish q ST_OK (BitVec.ofNat 384 result)
  else if hostFail ∨ s.host.linkUp = false then s.hostFailed.finish q ST_HOST_FAIL (BitVec.ofNat 384 result)
  else s

/-- HCOPY (R267): the next `blocks` blocks, then a host-port error where one comes. [DESIGN CHOICE: log 11] [DEDUCED: log 34]
-/
def execHcopy (q : QId) (blocks : Nat) (hostFail : Bool) (s : State) : Host.Outcome State Fault Refusal :=
  always s fun s => s.onHead q.val 0x52 fun c s =>
    let haddr := opf c 0 64
    let first := opf c 96 32
    let count := opf c 128 32
    match s.handle (BitVec.ofNat 32 (opf c 64 32)) with
    | none => s.fail q.val ST_BAD_HANDLE
    | some r =>
      if haddr % 64 ≠ 0 ∨ r.blocks < first + count then s.fail q.val ST_BAD_CMD
      else
        let n := if s.host.linkUp then blocks else 0
        let t := (s.begin q.val).hcopyBlocks q.val r haddr first count (opf c 160 1 == 1) n
        t.endMove q.val count hostFail (t.queue q.val).moved

/-- At most `n` blocks of a DUMP copied. [DESIGN CHOICE: log 9] -/
def State.dumpBlocks (s : State) (q : Nat) (k : CoreId) (haddr : Nat) : Nat → State
  | 0 => s
  | n + 1 =>
    let m := (s.queue q).moved
    if 16 ≤ m then s
    else
      (({ s with hostMem := Memory.setBytes s.hostMem (haddr + 4096 * m) ((s.core k).window (4096 * m) 4096) } : State).updQueue q
        fun x => { x with moved := m + 1 }).dumpBlocks q k haddr n

/-- DUMP (R268): the next `blocks` blocks of the state window. [DESIGN CHOICE: log 11, 106] -/
def execDump (q : QId) (blocks : Nat) (hostFail : Bool) (s : State) : Host.Outcome State Fault Refusal :=
  always s fun s => s.onHead q.val 0x53 fun c s =>
    let haddr := opf c 0 64
    let lc := opf c 64 6
    let k : CoreId := ⟨lc % 64, by omega⟩
    if haddr % 64 ≠ 0 then s.fail q.val ST_BAD_CMD
    else if s.coreCount ≤ lc then s.fail q.val ST_ABSENT_ENGINE
    else if (s.queue q.val).begun = false ∧ (s.core k).isStopped = false then s.fail q.val ST_CORE_BUSY
    else
      let n := if s.host.linkUp && s.hubDie (dieOf k) then blocks else 0
      ((s.begin q.val).dumpBlocks q.val k haddr n).endMove q.val 16 hostFail 0

/-! ### Checkpoints (R270-R272) -/

/-- The tensor descriptors of a checkpoint list: 64 bytes each. -/
def State.ckptList (s : State) (list count : Nat) : List (BitVec 512) :=
  (List.range count).map fun i => BitVec.ofNat 512 (s.rdDevNat (list + 64 * i) 64)

/-- The tensor of a descriptor. -/
def State.descTensor (s : State) (d : BitVec 512) : HandleRec := (s.handle (d.extractLsb' 0 32)).getD ⟨0, 0, 0, 0, 0⟩

/-- Blocks of all listed tensors. -/
def State.ckptBlocks (s : State) (ds : List (BitVec 512)) : Nat := ds.foldl (fun n d => n + (s.descTensor d).blocks) 0

/-- The size of an image (R270). [DEDUCED: log 35] -/
def State.ckptSize (s : State) (ds : List (BitVec 512)) : Nat := 128 + 64 * ds.length + 4104 * s.ckptBlocks ds + 32

/-- The 128 bytes at the head of an image (Table: Checkpoint image). [DEDUCED: log 35] -/
def State.ckptHeader (s : State) (count : Nat) : List Byte :=
  natLe 4 0x47444B43 ++ natLe 4 1 ++ natLe 1 s.dieCount ++ natLe 7 0 ++ natLe 4 (s.running.num 4 2) ++ natLe 4 0 ++
    natLe 8 s.stepCtr.toNat ++ natLe 4 s.skips.toNat ++ natLe 4 count ++ natLe 88 0

/-- A checkpoint command judged: its list, or the status and result that end it. Misalignment, a count of 0 and a small buffer are bad
commands; an unmapped list and a bad descriptor have their own statuses. [DEDUCED: log 34, 35] -/
def State.ckptJudge (s : State) (c : BitVec 512) : Byte × BitVec 384 ⊕ List (BitVec 512) :=
  let list := opf c 64 48
  let count := opf c 112 16
  if opf c 0 64 % 64 ≠ 0 ∨ list % 64 ≠ 0 ∨ count = 0 then .inl (ST_BAD_CMD, 0)
  else
    match (List.range count).find? fun i => !(s.place (list + 64 * i)).isMem with
    | some i => .inl (ST_UNMAPPED, unmappedResult (list + 64 * i))
    | none =>
      let ds := s.ckptList list count
      match ds.findSome? s.descJudge with
      | some st => .inl (st, 0)
      | none => if opf c 128 64 < s.ckptSize ds then .inl (ST_BAD_CMD, 0) else .inr ds

/-- The descriptors of a checkpoint command that has begun, from what it holds of the image. -/
def imageDescs (image : List Byte) : List (BitVec 512) :=
  (List.range (leNat ((image.drop 36).take 4))).map fun i => BitVec.ofNat 512 (leNat ((image.drop (128 + 64 * i)).take 64))

/-- The tensor and block number of every block of an image, in order. -/
def State.imageBlocks (s : State) (ds : List (BitVec 512)) : List (HandleRec × Nat) :=
  ds.flatMap fun d => (List.range (s.descTensor d).blocks).map fun i => (s.descTensor d, i)

/-- What a checkpoint command holds of its image. -/
def State.setImage (s : State) (q : Nat) (image : List Byte) (moved : Nat) : State :=
  s.updQueue q fun x => { x with image := image, moved := moved }

/-- Bytes of an image written to host memory behind what it has so far. [DESIGN CHOICE: log 9] -/
def State.addImage (s : State) (q haddr : Nat) (bs : List Byte) (moved : Nat) : State :=
  let im := (s.queue q).image
  ({ s with hostMem := Memory.setBytes s.hostMem (haddr + im.length) bs } : State).setImage q (im ++ bs) moved

/-- At most `n` blocks of an export moved, each as it stands when it is read (R271); one whose bib fails ends the command.
[DEDUCED: log 35] -/
def State.exportBlocks (s : State) (q haddr : Nat) (blks : List (HandleRec × Nat)) : Nat → State
  | 0 => s
  | n + 1 =>
    let m := (s.queue q).moved
    match blks[m]? with
    | none => s
    | some (r, i) =>
      if s.hubReaches (4096 * (r.first + i)) = false then s
      else
      match s.readTensor r i with
      | none => s.finish q ST_BIB_FAIL 0
      | some b => (s.addImage q haddr (b.1 ++ natLe 8 b.2.toNat) (m + 1)).exportBlocks q haddr blks n

/-- An export goes on by at most `n` blocks; behind the last one stands the digest of every byte before it (R270). [DESIGN
CHOICE: log 11] -/
def State.ckptExport (s : State) (q haddr n : Nat) (hostFail : Bool) : State :=
  let ds := imageDescs (s.queue q).image
  let blks := s.imageBlocks ds
  let s := s.exportBlocks q haddr blks (if s.host.linkUp then n else 0)
  if (s.queue q).fin.isNone ∧ hostFail = false ∧ s.host.linkUp = true ∧ blks.length ≤ (s.queue q).moved then
    (s.addImage q haddr (sha256 (s.queue q).image) (s.queue q).moved).finish q ST_OK 0
  else s.endMove q (blks.length + 1) hostFail 0

/-- CKPT_EXPORT (R258, R270, R271): the header and the descriptors as the command begins, then the next blocks. -/
def execCkptExport (q : QId) (m : CkptMove) (s : State) : Host.Outcome State Fault Refusal :=
  always s fun s => s.onHead q.val 0x55 fun c s =>
    let haddr := opf c 0 64
    if (s.queue q.val).begun then s.ckptExport q.val haddr m.blocks m.hostFail
    else
      match s.ckptJudge c with
      | .inl e => s.finish q.val e.1 e.2
      | .inr ds =>
        if s.host.linkUp = false then s.hostFailed.fail q.val ST_HOST_FAIL
        else
          ((s.begin q.val).addImage q.val haddr (s.ckptHeader ds.length ++ ds.flatMap fun d => natLe 64 d.toNat) 0).ckptExport q.val
            haddr m.blocks m.hostFail

/-- `FMT` and the `DIM` fields of two descriptors agree (R272). -/
def sameShape (a b : BitVec 512) : Bool :=
  fld a 64 4 == fld b 64 4 && fld a 352 96 == fld b 352 96

/-- An image fits the module and the list (R272). Where a tensor of the image ends shows in the `BIDX` of its blocks.
[DEDUCED: log 35] -/
def State.imageFits (s : State) (im : List Byte) (ds : List (BitVec 512)) : Bool :=
  let n := s.ckptSize ds
  let num (off len : Nat) : Nat := leNat ((im.drop off).take len)
  let blocks := s.imageBlocks ds
  num 4 4 == 1 && num 8 1 == s.dieCount && num 16 4 == s.running.num 4 2 && num 36 4 == ds.length &&
    im.drop (n - 32) == sha256 (im.take (n - 32)) &&
    (ds.mapIdx fun i d => sameShape d (BitVec.ofNat 512 (num (128 + 64 * i) 64))).all (fun b => b) &&
    ((List.range blocks.length).all fun j =>
      let off := 128 + 64 * ds.length + 4104 * j
      let bib : Word := BitVec.ofNat 64 (num (off + 4096) 8)
      crcOk ((im.drop off).take 4096) bib && (bibIdx bib).toNat == (blocks.getD j (⟨0, 0, 0, 0, 0⟩, 0)).2 % 2 ^ 20)

/-- Bytes that the Clerk writes at a device address: merged in HBM, from outside in a core's memory, where the core's own write of the
cycle stands (R145). -/
def State.clerkWrite (s : State) (a : Nat) (bs : List Byte) : State :=
  match s.place a with
  | .hbm => s.mergeHbm a bs .other
  | .basin k _ => ((s.settle k).wrOutside k a bs).clearMarks a bs.length
  | .cistern k _ => ((s.settle k).wrOutside k a bs).clearMarks a bs.length
  | .istore _ _ => s.wr a bs
  | _ => s

/-- The image's blocks still to write, at most `n` of them (R272). [DEDUCED: log 35] -/
def State.importBlocks (s : State) (q : Nat) (image : List Byte) (ds : List (BitVec 512)) (blks : List (HandleRec × Nat)) :
    Nat → State
  | 0 => s
  | n + 1 =>
    let m := (s.queue q).moved
    match blks[m]? with
    | none => s
    | some (r, i) =>
      if s.hubReaches (4096 * (r.first + i)) = false then s
      else
      let data := (image.drop (128 + 64 * ds.length + 4104 * m)).take 4096
      ((s.writeHbm (r.first + i) data (mkBib r.tag i (crc32c data)) .other).setImage q image (m + 1)).importBlocks q image ds blks n

/-- The image's `FMTSCALE` written into each listed descriptor, up to one that lies in the instruction store of a running core (R29,
R272). -/
def State.importScales (s : State) (list : Nat) (image : List Byte) (count : Nat) : State :=
  ((List.range count).takeWhile fun i => !s.istoreBusy (list + 64 * i)).foldl (fun s i =>
    s.clerkWrite (list + 64 * i + 8) ((image.drop (128 + 64 * i + 8)).take 8)) s

/-- An import goes on by at most `n` blocks; behind the last one come the `FMTSCALE` records and the two counts (R272).
[DEDUCED: log 35] -/
def State.ckptImport (s : State) (q list n : Nat) (ds : List (BitVec 512)) : State :=
  let im := (s.queue q).image
  let blks := s.imageBlocks ds
  let s := s.importBlocks q im ds blks n
  if (s.queue q).moved < blks.length ∨ ((List.range ds.length).any fun i => !s.hubReaches (list + 64 * i)) = true then s
  else
    let t := s.importScales list im ds.length
    if (List.range ds.length).any fun i => s.istoreBusy (list + 64 * i) then t.finish q ST_ISTORE_BUSY 0
    else
      ({ t with
        stepCtr := BitVec.ofNat 48 (leNat ((im.drop 24).take 6))
        skips := BitVec.ofNat 32 (leNat ((im.drop 32).take 4)) } : State).finish q ST_OK 0

/-- CKPT_IMPORT (R258, R270, R272): the whole image is read and checked as the command begins, then the next blocks are
written. -/
def execCkptImport (q : QId) (m : CkptMove) (s : State) : Host.Outcome State Fault Refusal :=
  always s fun s => s.onHead q.val 0x56 fun c s =>
    let list := opf c 64 48
    if (s.queue q.val).begun then s.ckptImport q.val list m.blocks (s.ckptList list (opf c 112 16))
    else
      match s.ckptJudge c with
      | .inl e => s.finish q.val e.1 e.2
      | .inr ds =>
        if m.hostFail ∨ s.host.linkUp = false then s.hostFailed.fail q.val ST_HOST_FAIL
        else
          let im := Memory.bytes s.hostMem (opf c 0 64) (s.ckptSize ds)
          if s.imageFits im ds then ((s.begin q.val).setImage q.val im 0).ckptImport q.val list m.blocks ds
          else s.fail q.val ST_CKPT_MISMATCH

end Sys2Proof.Machine
end

