-- ==== Sys2Proof/Machine/Dxt.lean ====
section
/-! DEFINITION. The fabric transport (R414-R430, R501): the peer table, sending and retransmission of frames, what a received frame
does, and the registers of the ports. -/

namespace Sys2Proof

/-! ### The DXT header (Table: DXT header) -/

/-- `DVER` of a frame. -/
def DxtFrame.dver (f : DxtFrame) : Nat := (f.header.extractLsb' 0 8).toNat
/-- `DTYPE` of a frame. -/
def DxtFrame.dtype (f : DxtFrame) : Nat := (f.header.extractLsb' 8 4).toNat
/-- `VC` of a frame. -/
def DxtFrame.vc (f : DxtFrame) : Fin 8 := ⟨(f.header.extractLsb' 12 3).toNat % 8, by omega⟩
/-- `SRCEP` of a frame. -/
def DxtFrame.src (f : DxtFrame) : BitVec 24 := f.header.extractLsb' 16 24
/-- `DSTEP` of a frame. -/
def DxtFrame.dst (f : DxtFrame) : BitVec 24 := f.header.extractLsb' 40 24
/-- `PSN` of a frame. -/
def DxtFrame.psn (f : DxtFrame) : BitVec 32 := f.header.extractLsb' 64 32
/-- `ACKN` of a frame. -/
def DxtFrame.ackn (f : DxtFrame) : BitVec 32 := f.header.extractLsb' 96 32
/-- `CTX` of a frame. -/
def DxtFrame.ctx (f : DxtFrame) : BitVec 32 := f.header.extractLsb' 128 32
/-- `BPOS` of a frame. -/
def DxtFrame.bpos (f : DxtFrame) : BitVec 32 := f.header.extractLsb' 160 32
/-- `SPORT` of a frame. -/
def DxtFrame.sport (f : DxtFrame) : Nat := (f.header.extractLsb' 195 5).toNat
/-- `PMASK` of a frame. -/
def DxtFrame.pmask (f : DxtFrame) : BitVec 24 := f.header.extractLsb' 200 24
/-- `DCRC` of a frame. -/
def DxtFrame.dcrc (f : DxtFrame) : BitVec 32 := f.header.extractLsb' 224 32

end Sys2Proof

namespace Sys2Proof.Machine

/-- The endpoint that names none (R416). -/
def noEp : BitVec 24 := 0xFFFFFF

/-- One port changed. -/
def State.updPort (s : State) (p : PortId) (f : Port → Port) : State := { s with ports := vupd s.ports p f }

/-- The transport changed. -/
def State.updDxt (s : State) (f : Dxt → Dxt) : State := { s with dxt := f s.dxt }

/-- The entry of a peer. -/
def State.peer (s : State) (ep : BitVec 24) : Option Peer := Sparse.find s.dxt.peers ep.toNat

/-- The entry of a peer changed, where it has one. -/
def State.updPeer (s : State) (ep : BitVec 24) (f : Peer → Peer) : State :=
  match s.peer ep with
  | some x => s.updDxt fun d => { d with peers := Sparse.put d.peers ep.toNat (f x) }
  | none => s

/-- An event of the ports (R440). [DEDUCED: log 72] -/
def State.emitHub (s : State) (evt sev : Byte) (detail : Nat) : State :=
  s.emit evt sev 0x10 0x7F (BitVec.ofNat 64 detail) 0 false

/-! ### Reachability (R423, R424, R428, R429) -/

/-- An endpoint is the twin of this module. -/
def State.isTwin (s : State) (ep : BitVec 24) : Bool := s.dxt.twmode && ep == s.guard.twep

/-- Port `p` is a twin port (R428). -/
def State.twinPort (s : State) (p : PortId) : Bool := s.dxt.twmode && decide (20 ≤ p.val)

/-- Port `p` is attached (R415). -/
def State.attached (s : State) (p : PortId) : Bool := decide (p.val < s.portCount) && s.ports[p].pstate == .up

/-- Port `p` reaches a peer with the entry given (R424, R429). -/
def State.reaches (s : State) (ep : BitVec 24) (x : Peer) (p : PortId) : Bool :=
  s.attached p && !x.marks.getLsbD p.val &&
    (if s.isTwin ep then s.twinPort p && s.ports[p].lpep == ep
     else !s.twinPort p && (match x.pmask with
       | some m => m.getLsbD p.val
       | none => true))

/-- The ports that reach a peer, in ascending order. -/
def State.reaching (s : State) (ep : BitVec 24) : List PortId :=
  (List.finRange 24).filter fun p => s.reaches ep ((s.peer ep).getD (Peer.fresh 0)) p

/-- The port of a frame with position `pos` (R424). [DEDUCED: log 60] -/
def portAt (l : List PortId) (pos : Nat) : Option PortId := l[pos % l.length]?

/-- The next reaching port after `p`, in ascending order with wraparound (R422). -/
def portAfter (l : List PortId) (p : PortId) : Option PortId := (l.find? fun q => decide (p.val < q.val)).or l.head?

/-- `PMASK` of this module: its attached ports, twin ports excluded. -/
def State.pmask (s : State) : BitVec 24 :=
  (List.finRange 24).foldl (fun m p => if s.attached p && !s.twinPort p then m ||| (1#24 <<< p.val) else m) 0

/-! ### Frames (R417, R419, R426) -/

/-- The PCP of a virtual channel (R419). -/
def Dxt.pcp (d : Dxt) (vc : Fin 8) : Nat := fld d.pcpmap (3 * vc.val) 3

/-- A partner has paused the PCP of a virtual channel on a port (R419). -/
def State.paused (s : State) (p : PortId) (vc : Fin 8) : Bool :=
  s.dxt.pfcen && s.ports[p].paused.getLsbD (s.dxt.pcp vc)

/-- The port of a frame. -/
def Wire.port : Wire → PortId
  | .data p _ _ _ _ => p
  | .ack p _ _ _ _ => p
  | .cap p _ _ => p

/-- The virtual channel of a frame; a capability frame travels on channel 0 (R426). -/
def Wire.vc : Wire → Fin 8
  | .data _ _ vc _ _ => vc
  | .ack _ _ vc _ _ => vc
  | .cap _ _ _ => 0

/-- `DTYPE` of a frame. -/
def Wire.dtype : Wire → Nat
  | .data _ _ _ _ (.block _ _ _ _) => 0
  | .data _ _ _ _ (.msg _) => 1
  | .ack _ _ _ _ _ => 2
  | .cap _ _ _ => 3

/-- `DSTEP` of a frame. -/
def Wire.dstep : Wire → BitVec 24
  | .data _ ep _ _ _ => ep
  | .ack _ ep _ _ _ => ep
  | .cap _ (some ep) _ => ep
  | .cap _ none _ => noEp

/-- The payload of a frame by the number of the frame. -/
def Wire.payload (num : Nat) : Wire → List Byte
  | .data _ _ _ _ (.block _ _ bytes bib) => bytes ++ natLe 8 bib.toNat
  | .data _ _ _ _ (.msg _) => (List.range 64).map (Config.messageByte num)
  | .ack _ _ _ _ bitmap => natLe 32 bitmap.toNat
  | .cap _ _ bytes => bytes

/-- `BPOS`, `ACKN` and `PSN` of a frame. -/
def Wire.numbers : Wire → BitVec 32 × BitVec 32 × BitVec 32
  | .data _ _ _ psn (.block _ p _ _) => (BitVec.ofNat 32 p, 0, psn)
  | .data _ _ _ psn (.msg _) => (0, 0, psn)
  | .ack _ _ _ ackn _ => (0, ackn, 0)
  | .cap _ _ _ => (0, 0, 0)

/-- The DXT header of a frame (Table: DXT header). -/
def State.headerOf (s : State) (num : Nat) (w : Wire) : BitVec 256 :=
  let n := w.numbers
  let ctx := Config.transferCtx (match w with
    | .data _ _ _ _ _ => some num
    | _ => none)
  let low : BitVec 224 := s.pmask ++ BitVec.ofNat 5 w.port.val ++ (0 : BitVec 3) ++ n.1 ++ ctx ++ n.2.1 ++ n.2.2 ++ w.dstep ++
    s.dxt.myep ++ (0 : BitVec 1) ++ BitVec.ofNat 3 w.vc.val ++ BitVec.ofNat 4 w.dtype ++ (1 : BitVec 8)
  crc32c (natLe 28 low.toNat ++ (if w.dtype = 0 then [] else w.payload num)) ++ low

/-- The MAC address of an endpoint (R417). -/
def Dxt.mac (d : Dxt) (ep : BitVec 24) : BitVec 48 := d.macpfx ++ ep

/-- The frame that carries `w` (Table: DXT frame). -/
def State.frameOf (s : State) (num : Nat) (w : Wire) : SentFrame :=
  { dmac := match w with
      | .cap _ none _ => 0x0180C200000E
      | _ => s.dxt.mac w.dstep
    smac := s.dxt.mac s.dxt.myep
    tag := (0x8100 : BitVec 16) ++ BitVec.ofNat 3 (s.dxt.pcp w.vc) ++ (0 : BitVec 1) ++ s.dxt.vid
    etype := s.dxt.etype
    header := s.headerOf num w
    body := w }

/-- A frame put on the wire. [DESIGN CHOICE: log 10] -/
def State.putWire (s : State) (num : Nat) (w : Wire) : State := s.updDxt fun d => { d with wire := d.wire ++ [s.frameOf num w] }

/-- An acknowledgement or a capability frame put on the wire, or kept back while its PCP is paused on its port (R419). -/
def State.putOut (s : State) (w : Wire) : State :=
  if s.paused w.port w.vc then s.updPort w.port fun x => { x with kept := x.kept ++ [w] } else s.putWire 0 w

/-- The 64-byte capability payload (Table: Capability payload). -/
def State.capability (s : State) (p : PortId) : List Byte :=
  let fw (i : Nat) : Byte := s.running.byte i
  natLe 3 s.dxt.myep.toNat ++ [BitVec.ofNat 8 s.dieCount] ++ [fw 4, fw 5, 0, 0] ++ natLe 3 s.pmask.toNat ++
    [if s.dxt.twmode then 1 else 0] ++ natLe 2 p.val ++ List.replicate 50 0

/-- A capability frame to a peer on the first port that reaches it (R425). [DEDUCED: log 60] -/
def State.sendCap (s : State) (ep : BitVec 24) : State :=
  match (s.reaching ep).head? with
  | some p => s.putOut (.cap p (some ep) (s.capability p))
  | none => s

/-- The sequence state of a channel of a peer changed. -/
def Peer.updVc (x : Peer) (vc : Fin 8) (f : VcState → VcState) : Peer := { x with vcs := vupd x.vcs vc f }

/-- A block's position, 0 for a message. -/
def TxBody.pos : TxBody → Nat
  | .block _ p _ _ => p
  | .msg _ => 0

/-- Frame `psn` of a peer and channel put on a port: on the wire unless its PCP is paused there. [DESIGN CHOICE: log 62] -/
def State.putFrame (s : State) (ep : BitVec 24) (vc : Fin 8) (f : TxFrame) (p : PortId) (tries : Nat) : State :=
  let go := !s.paused p vc
  let s := s.updPeer ep fun x => x.updVc vc fun v =>
    { v with unacked := v.unacked.map fun g => if g.psn = f.psn then { g with port := some p, tries := tries, sent := go, once := g.once || go } else g }
  if go then s.putWire f.num (.data p ep vc f.psn f.body) else s

/-- A frame of a peer sent on the port that its position chooses among those that reach it; without one it waits (R422, R424). -/
def State.launchFrame (s : State) (ep : BitVec 24) (vc : Fin 8) (f : TxFrame) : State :=
  match portAt (s.reaching ep) f.body.pos with
  | some p => s.putFrame ep vc f p 0
  | none => s

/-- Every frame of a peer that has no port sent, where a port reaches it. [DEDUCED: log 60] -/
def State.launchWaiting (s : State) (ep : BitVec 24) : State :=
  match s.peer ep with
  | none => s
  | some x =>
    if x.capOwed then s
    else (List.finRange 8).foldl (fun s vc =>
      (x.vcs[vc].unacked.filter fun f => f.port.isNone).foldl (fun s f => s.launchFrame ep vc f) s) s

/-! ### The peer table (R425) -/

/-- The largest number of entries. -/
def peerMax : Nat := 65536

/-- A use of an entry. -/
def State.touch (s : State) (ep : BitVec 24) : State :=
  let s := s.updPeer ep fun x => { x with used := s.dxt.uses }
  s.updDxt fun d => { d with uses := d.uses + 1 }

/-- An entry created by the first frame to or from a peer; its capability frame is sent. A full table creates none. [DEDUCED:
log 60] -/
def State.ensurePeer (s : State) (ep : BitVec 24) : State :=
  if (s.peer ep).isSome ∨ peerMax ≤ s.dxt.peers.length then s
  else (s.updDxt fun d => { d with peers := Sparse.put d.peers ep.toNat (Peer.fresh d.uses) }).sendCap ep

/-- No frame of the entry is unacknowledged in either direction (R425). -/
def Peer.quiet (x : Peer) : Bool := x.vcs.toList.all fun v => v.unacked.isEmpty && v.owed == 0

/-- A block or message given to the transport for a peer (R420, R425): numbered, kept until acknowledged, and sent once the
exchange of capability frames is done. -/
def State.transmit (s : State) (ep : BitVec 24) (vc : Fin 8) (body : TxBody) : State :=
  let s := s.ensurePeer ep
  match s.peer ep with
  | none => s.updDxt fun d => { d with blocked := d.blocked ++ [(ep, vc, body)] }
  | some x =>
    let v := x.vcs[vc]
    let f : TxFrame := ⟨v.txNext, none, 0, false, body, false, s.dxt.uses⟩
    let s := (s.updPeer ep fun x => x.updVc vc fun v =>
      { v with txNext := v.txNext + 1, unacked := v.unacked ++ [f] }).touch ep
    if x.capOwed then s else s.launchFrame ep vc f

/-- A message of Baton on virtual channel 0 (R293). -/
def State.sendMsg (s : State) (ep : BitVec 24) (m : BatMsg) : State := s.transmit ep 0 (.msg m)

/-! ### Marks (R423) -/

/-- Port `p` marked as not reaching a peer, or the mark cleared, with its report. -/
def State.setMark (s : State) (ep : BitVec 24) (p : PortId) (on : Bool) : State :=
  match s.peer ep with
  | none => s
  | some x =>
    if x.marks.getLsbD p.val = on then s
    else
      (s.updPeer ep fun x =>
        { x with
          marks := if on then x.marks ||| (1#24 <<< p.val) else x.marks &&& ~~~(1#24 <<< p.val)
          probed := if on then x.probed else x.probed &&& ~~~(1#24 <<< p.val)
          streak := x.streak.set p.val [] }).emitHub 0x23 0 (p.val + ep.toNat <<< 8 + (if on then 2 ^ 32 else 0))

/-- The `PMASK` of a received frame taken (R423, R424): a clear bit marks its port, a bit that was clear and is set clears the
mark. Twin ports are no part of `PMASK`. [DEDUCED: log 61] -/
def State.takePmask (s : State) (ep : BitVec 24) (m : BitVec 24) : State :=
  match s.peer ep with
  | none => s
  | some x =>
    let s := s.updPeer ep fun x => { x with pmask := some m }
    (List.finRange 24).foldl (fun s p =>
      if s.portCount ≤ p.val ∨ s.twinPort p = true then s
      else if m.getLsbD p.val = false then s.setMark ep p true
      else if (x.pmask.getD m).getLsbD p.val then s
      else s.setMark ep p false) s

/-! ### Received frames (R416-R421) -/

/-- The `DCRC` that the frame should carry. -/
def frameCrc (f : DxtFrame) : BitVec 32 :=
  crc32c (natLe 28 (fld f.header 0 224) ++ (if f.dtype = 0 then [] else f.payload))

/-- Payload bytes of a frame type (Table: DXT frame). -/
def frameBytes (dtype : Nat) : Nat := if dtype = 0 then 4104 else if dtype = 2 then 32 else 64

/-- A discarded frame counted (R418). [DEDUCED: log 61] -/
def State.drop (s : State) : State := s.updDxt fun d => { d with drops := sat16 d.drops 1 }

/-- A frame is discarded and counted (R418). -/
def State.frameBad (s : State) (f : DxtFrame) : Bool :=
  !f.fcsOk || f.dcrc != frameCrc f || f.dver != 1 || decide (4 ≤ f.dtype) || (!f.linkLocal && f.dst != s.dxt.myep) ||
    fld f.header 15 1 != 0 || fld f.header 192 3 != 0

/-- The first attached port, whose beacon counts seconds (R426). [DEDUCED: log 61] -/
def State.firstAttached (s : State) : Option PortId := (List.finRange 24).find? fun p => s.attached p

/-- A frame that carries this module's own endpoint: discarded, and reported at most once per second (R418). [DEDUCED: log
61] -/
def State.epdup (s : State) (p : PortId) : State :=
  if s.dxt.epdup = 0 then
    (s.updDxt fun d => { d with epdup := 2 }).emitHub 0x25 2 (p.val + s.dxt.myep.toNat <<< 8)
  else s

/-- A frame that arrives on another port than its sender's shows a miscabled plane (R424). [DEDUCED: log 61] -/
def State.planeCheck (s : State) (p : PortId) (f : DxtFrame) : State :=
  if f.sport = p.val then s
  else
    let s := (s.updPort p fun x => { x with planeErr := true }).emitHub 0x24 0
      (p.val + f.sport <<< 5 + f.src.toNat <<< 16)
    s.setMark f.src p true

/-- What every accepted frame of a peer does before its contents count: the peer's entry, its `PMASK`, a miscabled plane (R423,
R424, R425). -/
def State.meetFrame (s : State) (p : PortId) (f : DxtFrame) : State :=
  (((s.ensurePeer f.src).touch f.src).takePmask f.src f.pmask).planeCheck p f

/-- The FEC codewords of a frame counted in `FP_ERR` (R430). -/
def State.countFec (s : State) (p : PortId) (f : DxtFrame) : State :=
  s.updPort p fun x =>
    { x with fecce := BitVec.ofNat 32 (min (x.fecce.toNat + f.fecCe) 0xFFFFFFFF), fecue := sat16 x.fecue f.fecUe }

/-- A frame of one type received on a port, and what it leads to where it is accepted (R415, R416, R418); a twin port takes
only the
twin's (R428). [DEDUCED: log 61] [DESIGN CHOICE: log 62] -/
def State.receive (s : State) (p : PortId) (f : DxtFrame) (dtype : Nat) (k : State → State) : State :=
  if s.attached p = false ∨ f.payload.length ≠ frameBytes dtype ∨ (f.dtype ≠ dtype ∧ f.dtype < 4) then s
  else
  let s := s.countFec p f
  if f.fcsOk = false then (s.updPort p fun x => { x with fcserr := sat16 x.fcserr 1 }).drop
  else if s.frameBad f then s.drop
  else if s.dxt.myep ≠ noEp ∧ f.src = s.dxt.myep then s.epdup p
  else if f.linkLocal then (if dtype = 3 then k (s.planeCheck p f) else s)
  else if s.dxt.myep = noEp ∨ (s.twinPort p = true ∧ f.src ≠ s.guard.twep) then s
  else
    let s := s.meetFrame p f
    if (s.peer f.src).isSome then k s else s

/-- Bits at the bottom of a bitmap that are set: frames in order. -/
def inOrder : Nat → BitVec 256 → Nat
  | 0, _ => 0
  | n + 1, m => if m.getLsbD 0 then inOrder n (m >>> 1) + 1 else 0

/-- An acknowledgement frame sent on a channel, on the first port that reaches the peer (R420). -/
def State.sendAck (s : State) (ep : BitVec 24) (vc : Fin 8) : State :=
  match s.peer ep, (s.reaching ep).head? with
  | some x, some p =>
    (s.updPeer ep fun x => x.updVc vc fun v => { v with owed := 0 }).putOut
      (.ack p ep vc (x.vcs[vc].rxNext - 1) x.vcs[vc].bitmap)
  | _, _ => s

/-- A received frame that the acknowledgement is to cover counted; the sixteenth sends it (R420). -/
def State.oweAck (s : State) (ep : BitVec 24) (vc : Fin 8) : State :=
  let s := s.updPeer ep fun x => x.updVc vc fun v => { v with owed := v.owed + 1 }
  match s.peer ep with
  | some x => if 16 ≤ x.vcs[vc].owed then s.sendAck ep vc else s
  | none => s

/-- How far a `PSN` lies beyond the next one expected. -/
def VcState.ahead (v : VcState) (psn : BitVec 32) : Nat := (psn - v.rxNext).toNat

/-- A frame has been received before. -/
def VcState.known (v : VcState) (psn : BitVec 32) : Bool :=
  decide (2 ^ 31 ≤ v.ahead psn) || v.bitmap.getLsbD (v.ahead psn)

/-- A new frame entered into the sequence state; the frames that are now in order leave the bitmap. -/
def VcState.enter (v : VcState) (psn : BitVec 32) : VcState :=
  let m := v.bitmap ||| (1#256 <<< v.ahead psn)
  let n := inOrder 256 m
  { v with rxNext := v.rxNext + BitVec.ofNat 32 n, bitmap := m >>> n }

/-- A block or message frame of a peer taken into its sequence (R420): a frame too far ahead is discarded, a known one only
acknowledged again, a new one handed on. -/
def State.sequence (s : State) (f : DxtFrame) (k : State → State) : State :=
  match s.peer f.src with
  | none => s
  | some x =>
    let v := x.vcs[f.vc]
    let d := v.ahead f.psn
    if 256 ≤ d ∧ d < 2 ^ 31 then s
    else if v.known f.psn then s.oweAck f.src f.vc
    else (k (s.updPeer f.src fun x => x.updVc f.vc fun v => v.enter f.psn)).oweAck f.src f.vc

/-- Something handed to Baton. -/
def State.handOver (s : State) (h : Handed) : State := s.updDxt fun d => { d with handed := d.handed ++ [h] }

/-- Message frames that are now in `PSN` order handed to Baton (R421): those held whose number lies below the next expected. -/
def State.handMessages (s : State) (ep : BitVec 24) (vc : Fin 8) : State :=
  match s.peer ep with
  | none => s
  | some x =>
    let v := x.vcs[vc]
    let ready := v.held.filter fun h => decide (2 ^ 31 ≤ v.ahead (BitVec.ofNat 32 h.1))
    let rank (h : Nat × List Byte) : Nat := 2 ^ 32 - v.ahead (BitVec.ofNat 32 h.1)
    let order := (List.range 257).flatMap fun i => ready.filter fun h => rank h == 257 - i
    let s := order.foldl (fun s h => s.handOver (.msg ep vc h.2)) s
    s.updPeer ep fun x => x.updVc vc fun v => { v with held := v.held.filter fun h => !(ready.any fun g => g.1 == h.1) }

/-! ### Rows: frames -/

/-- DXT_BLOCK_FRAME (R420, R421): delivered to Baton on arrival, in any order. -/
def execDxtBlockFrame (p : PortId) (f : DxtFrame) (s : State) : Host.Outcome State Fault Refusal :=
  atPort p s fun s => s.receive p f 0 fun s => s.sequence f fun s => s.handOver (.block f.src f.ctx f.bpos f.payload)

/-- DXT_MESSAGE_FRAME (R420, R421): delivered in `PSN` order. -/
def execDxtMessageFrame (p : PortId) (f : DxtFrame) (s : State) : Host.Outcome State Fault Refusal :=
  atPort p s fun s => s.receive p f 1 fun s => s.sequence f fun s =>
    (s.updPeer f.src fun x => x.updVc f.vc fun v => { v with held := Sparse.put v.held f.psn.toNat f.payload }).handMessages
      f.src f.vc

/-- A frame is covered by an acknowledgement (R420). -/
def covered (ackn : BitVec 32) (bitmap : BitVec 256) (psn : BitVec 32) : Bool :=
  decide ((ackn - psn).toNat < 2 ^ 31) || (decide ((psn - ackn - 1).toNat < 256) && bitmap.getLsbD (psn - ackn - 1).toNat)

/-- Frames acknowledged: they are no longer kept, and their ports have not lost them (R422, R423). -/
def State.acknowledge (s : State) (ep : BitVec 24) (vc : Fin 8) (ackn : BitVec 32) (bitmap : BitVec 256) : State :=
  s.updPeer ep fun x =>
    let v := x.vcs[vc]
    let hit := v.unacked.filter fun f => f.once && covered ackn bitmap f.psn
    { (x.updVc vc fun v => { v with unacked := v.unacked.filter fun f => !(f.once && covered ackn bitmap f.psn) }) with
      streak := hit.foldl (fun w f => match f.port with
        | some p => w.set p.val []
        | none => w) x.streak }

/-- DXT_ACK_FRAME (R420, R423): `probe` is the marked port whose capability frame the peer acknowledges with this frame, on
the channel
of capability frames; its mark clears. [DEDUCED: log 61] -/
def execDxtAckFrame (p : PortId) (a : DxtAck) (s : State) : Host.Outcome State Fault Refusal :=
  atPort p s fun s => s.receive p a.frame 2 fun s =>
    let s := s.acknowledge a.frame.src a.frame.vc a.frame.ackn (BitVec.ofNat 256 (leNat a.frame.payload))
    match s.peer a.frame.src, a.probe with
    | some x, some q => if x.probed.getLsbD q.val ∧ a.frame.vc = 0 then s.setMark a.frame.src q false else s
    | _, _ => s

/-- A capability frame of a peer accepted (R425): the pair's `PSN` values restart at 0 in both directions, and the exchange
is done;
the peer's frame is answered where this module's own has not been sent for it. [DEDUCED: log 60] -/
def State.acceptCap (s : State) (ep : BitVec 24) (payload : List Byte) : State :=
  match s.peer ep with
  | none => s
  | some x =>
    let restart (v : VcState) : VcState :=
      { VcState.reset with
        txNext := BitVec.ofNat 32 v.unacked.length
        unacked := v.unacked.mapIdx fun i f => { f with psn := BitVec.ofNat 32 i } }
    let s := s.updPeer ep fun x => { x with cap := some payload, capOwed := false, vcs := x.vcs.map restart }
    let s := if x.capOwed then s else s.sendCap ep
    (s.launchWaiting ep).oweAck ep 0

/-- DXT_CAPABILITY_FRAME (R425, R426, R429): a link-local one gives `LPEP`; a peer's restarts the pair unless a frame to it is
unacknowledged. -/
def execDxtCapabilityFrame (p : PortId) (f : DxtFrame) (s : State) : Host.Outcome State Fault Refusal :=
  atPort p s fun s => s.receive p f 3 fun s =>
    let ep : BitVec 24 := BitVec.ofNat 24 (leNat (f.payload.take 3))
    if f.linkLocal then
      let s := s.updPort p fun x => { x with lpep := ep }
      if s.twinPort p ∧ ep ≠ s.guard.twep then s.emitHub 0x26 0 (p.val + ep.toNat <<< 8) else s
    else
      match s.peer f.src with
      | none => s
      | some x => if x.capOwed ∨ (x.vcs.toList.all fun v => v.unacked.isEmpty) then s.acceptCap f.src f.payload else s

/-- DXT_ACK_TIMER (R420): 2 µs after the first frame that no acknowledgement covers. [DESIGN CHOICE: log 13] -/
def execDxtAckTimer (peer : BitVec 24) (vc : Fin 8) (s : State) : Host.Outcome State Fault Refusal :=
  always s fun s =>
    match s.peer peer with
    | some x => if x.vcs[vc].owed = 0 then s else s.sendAck peer vc
    | none => s

/-- A frame's retransmissions on its port are exhausted (R423): 8 successive frames mark the port. -/
def State.exhausted (s : State) (ep : BitVec 24) (p : PortId) (num : Nat) : State :=
  let s := s.updPeer ep fun x =>
    { x with streak := if x.streak[p].contains num then x.streak else x.streak.set p.val (x.streak[p] ++ [num]) }
  match s.peer ep with
  | some x => if 8 ≤ x.streak[p].length then s.setMark ep p true else s
  | none => s

/-- A frame moved to the next port that reaches the peer, where its count starts again; without one it waits (R415, R422). -/
def State.moveFrame (s : State) (ep : BitVec 24) (vc : Fin 8) (f : TxFrame) (p : PortId) : State :=
  match portAfter (s.reaching ep) p with
  | some q => s.putFrame ep vc f q 0
  | none => s.updPeer ep fun x => x.updVc vc fun v =>
      { v with unacked := v.unacked.map fun g => if g.psn = f.psn then { g with port := none, tries := 0, sent := false } else g }

/-- A frame sent again (R422): on its port up to 7 times, then on the next port that reaches the peer. -/
def State.resend (s : State) (ep : BitVec 24) (vc : Fin 8) (f : TxFrame) : State :=
  match f.port with
  | none => s.launchFrame ep vc f
  | some p =>
    if f.sent = false then s
    else
      let s := s.updDxt fun d => { d with retx := sat16 d.retx 1 }
      if f.tries < 7 ∧ (s.reaching ep).contains p then s.putFrame ep vc f p (f.tries + 1)
      else
        let s := if 7 ≤ f.tries then s.exhausted ep p f.num else s
        s.moveFrame ep vc f p

/-- DXT_RETRANSMIT (R422, R423): 20 µs after a frame's last sending. -/
def execDxtRetransmit (peer : BitVec 24) (vc : Fin 8) (psn : BitVec 32) (s : State) : Host.Outcome State Fault Refusal :=
  always s fun s =>
    match s.peer peer with
    | none => s
    | some x =>
      if x.capOwed then s
      else
        match x.vcs[vc].unacked.find? fun f => f.psn == psn with
        | some f => s.resend peer vc f
        | none => s

/-- A link-local capability frame sent on a port (R426). -/
def State.beacon (s : State) (p : PortId) : State := s.putOut (.cap p none (s.capability p))

/-- CAPABILITY_BEACON (R426): once per second on every attached port. -/
def execCapabilityBeacon (p : PortId) (s : State) : Host.Outcome State Fault Refusal :=
  atPort p s fun s =>
    if s.attached p then
      let s := s.beacon p
      if s.firstAttached = some p then s.updDxt fun d => { d with epdup := d.epdup - 1 } else s
    else s

/-- PATH_PROBE (R423): one capability frame per millisecond on a marked port. -/
def execPathProbe (p : PortId) (peer : BitVec 24) (s : State) : Host.Outcome State Fault Refusal :=
  atPort p s fun s =>
    match s.peer peer with
    | some x =>
      if x.marks.getLsbD p.val ∧ s.attached p = true then
        (s.updPeer peer fun x => { x with probed := x.probed ||| (1#24 <<< p.val) }).putOut
          (.cap p (some peer) (s.capability p))
      else s
    | none => s

/-- An acknowledgement or capability frame that was kept back goes out: on its port, an acknowledgement on the first port
that reaches
the peer where its own has stopped reaching it. [DESIGN CHOICE: log 62] -/
def State.letOut (s : State) (w : Wire) : State :=
  match w with
  | .ack p ep vc ackn m => if (s.reaching ep).contains p then s.putOut w
      else match (s.reaching ep).head? with
        | some q => s.putOut (.ack q ep vc ackn m)
        | none => s
  | .cap p (some ep) _ => if s.attached p then s.putOut w else s.sendCap ep
  | _ => if s.attached w.port then s.putOut w else s

/-- The frames kept back on a port that has stopped pausing their PCP put on the wire (R419); a frame to a peer that the port no longer
reaches moves on. -/
def State.releaseHeld (s : State) (p : PortId) : State :=
  let kept := s.ports[p].kept
  let s := kept.foldl (fun s w => s.letOut w) (s.updPort p fun x => { x with kept := [] })
  s.dxt.peers.foldl (fun s e =>
    let ep : BitVec 24 := BitVec.ofNat 24 e.1
    (List.finRange 8).foldl (fun s vc =>
      (e.2.vcs[vc].unacked.filter fun f => f.port == some p && !f.sent).foldl (fun s f =>
        if (s.reaching ep).contains p then s.putFrame ep vc f p f.tries else s.moveFrame ep vc f p) s) s) s

/-- PFC_FRAME (R419). -/
def execPfcFrame (p : PortId) (pcp : Fin 8) (pause : Bool) (s : State) : Host.Outcome State Fault Refusal :=
  atPort p s fun s =>
    if s.dxt.pfcen = false ∨ s.attached p = false then s
    else
      let s := s.updPort p fun x =>
        { x with paused := if pause then x.paused ||| (1#8 <<< pcp.val) else x.paused &&& ~~~(1#8 <<< pcp.val) }
      if pause then s else s.releaseHeld p

/-! ### Rows: ports and registers (R415, R416, R417, R426, R427, R430) -/

/-- The frames outstanding on a port sent again on other ports (R415). -/
def State.evacuate (s : State) (p : PortId) : State :=
  s.dxt.peers.foldl (fun s e =>
    let ep : BitVec 24 := BitVec.ofNat 24 e.1
    (List.finRange 8).foldl (fun s vc =>
      (e.2.vcs[vc].unacked.filter fun f => f.port == some p).foldl (fun s f => s.moveFrame ep vc f p) s) s) s

/-- A port leaves UP for another state (R415). -/
def State.leaveUp (s : State) (p : PortId) (new : PortState) : State :=
  let up := s.ports[p].pstate == .up
  let kept := s.ports[p].kept
  let s := s.updPort p fun x => { x with pstate := new, left := x.left || up, paused := 0, lpep := 0xFFFFFF, kept := [] }
  let s := kept.foldl (fun s w => s.letOut w) s
  if up then (s.evacuate p).emitHub 0x22 0 (p.val + 2 ^ 8) else s

/-- Frames that wait for a port sent to every peer that a port now reaches. -/
def State.launchAll (s : State) : State := s.dxt.peers.foldl (fun s e => s.launchWaiting (BitVec.ofNat 24 e.1)) s

/-- FPORT_LINK_CHANGE (R415, R426, R427). Ports train from boot step 10 on (R451). -/
def execFportLinkChange (p : PortId) (up : Bool) (cablem iloss : BitVec 8) (lpan : Bool) (s : State) :
    Host.Outcome State Fault Refusal :=
  atPort p s fun s =>
    let x := s.ports[p]
    if up then
      if (x.pstate ≠ .training ∧ x.pstate ≠ .down) ∨ s.clerk.bstage < 10 ∨ s.cooldown.shutdownDone = true then s
      else
        let s := s.updPort p fun x =>
          { x with
            pstate := .up, cablem := if x.pmd = 1 then 0xFF else cablem, iloss := iloss, lpan := lpan, left := false }
        let s := if x.left then s.emitHub 0x22 0 p.val else s
        (s.beacon p).launchAll
    else if x.pstate = .up then s.leaveUp p .down
    else s

/-- A group entry is valid, or a Baton command runs (R416). -/
def State.batonBound (s : State) : Bool := (s.baton.groups.any fun g => g.2.valid) || !s.baton.cmds.isEmpty

/-- DXT_CFG_WRITE (R416, R419, R430): without `PFCEN` no pause holds a frame any longer. [DEDUCED: log 61] -/
def execDxtCfgWrite (v : Word) (s : State) : Host.Outcome State Fault Refusal :=
  always s fun s => s.ifOpen 0 fun s =>
    let refused := s.batonBound
    let was := s.dxt.pfcen
    let s := s.updDxt fun d =>
      { d with
        myep := if refused then d.myep else v.extractLsb' 40 24
        etype := v.extractLsb' 24 16
        vid := v.extractLsb' 12 12
        pfcen := v.getLsbD 2
        dcfgErr := (d.dcfgErr && !v.getLsbD 0) || refused }
    if was = true ∧ v.getLsbD 2 = false then
      (List.finRange 24).foldl (fun s p => (s.updPort p fun x => { x with paused := 0 }).releaseHeld p) s
    else s

/-- DXT_MAC_WRITE (R417): a group address, or one that is not locally administered, is not written. -/
def execDxtMacWrite (v : Word) (s : State) : Host.Outcome State Fault Refusal :=
  always s fun s => s.ifOpen 0 fun s =>
    s.updDxt fun d =>
      if v.getLsbD 16 ∨ v.getLsbD 17 = false then { d with dcfgErr := true } else { d with macpfx := v.extractLsb' 0 24 }

/-- FP_CFG_WRITE (R414, R430): a change of `PMD` retrains the port; a disabled port is silent. -/
def execFpCfgWrite (p : PortId) (v : Word) (s : State) : Host.Outcome State Fault Refusal :=
  atPort p s fun s => s.ifOpen 0 fun s =>
    let x := s.ports[p]
    let bad := v.getLsbD 1
    let pmd : BitVec 2 := if bad then x.pmd else v.extractLsb' 0 2
    let pen := v.getLsbD 2
    let s := if bad then s.updDxt fun d => { d with dcfgErr := true } else s
    let s := if pen = false then s.leaveUp p .disabled
      else if x.pen = false ∨ pmd ≠ x.pmd then s.leaveUp p .training
      else s
    s.updPort p fun x => { x with pen := pen, pmd := pmd }

/-- CAPABILITY_FRAME_REPEAT (R425): every 10 µs until the exchange is done. -/
def execCapabilityFrameRepeat (peer : BitVec 24) (s : State) : Host.Outcome State Fault Refusal :=
  always s fun s =>
    match s.peer peer with
    | some x => if x.capOwed then s.sendCap peer else s
    | none => s

/-- The entry is the least recently used one among those with no unacknowledged frame (R425). -/
def State.leastUsed (s : State) (x : Peer) : Bool := s.dxt.peers.all fun e => !e.2.quiet || decide (x.used ≤ e.2.used)

/-- Frames to new peers that the table can now take. -/
def State.unblock (s : State) : State :=
  let l := s.dxt.blocked
  l.foldl (fun s b => s.transmit b.1 b.2.1 b.2.2) (s.updDxt fun d => { d with blocked := [] })

/-- PEER_ENTRY_EVICTION (R425): with a full table, the least recently used entry that has had no unacknowledged frame for 1 ms. -/
def execPeerEntryEviction (peer : BitVec 24) (s : State) : Host.Outcome State Fault Refusal :=
  always s fun s =>
    match s.peer peer with
    | some x =>
      if peerMax ≤ s.dxt.peers.length ∧ x.quiet = true ∧ s.leastUsed x = true then
        (s.updDxt fun d => { d with peers := Sparse.del d.peers peer.toNat }).unblock
      else s
    | none => s

end Sys2Proof.Machine
end

