-- ==== Sys2Proof/Machine/Starter.lean ====
section
/-! DEFINITION. The Starter: counter deliveries, watches between cores, barriers of a die, of a die mask and of the fabric
(R217-R241, R296, R297, R314, R340). -/

namespace Sys2Proof.Machine

/-! ### Counters and watches (R218-R225, R236) -/

/-- Message `i` of a list can be delivered with the messages picked: every earlier one of its source is picked too (R16,
R219). [DESIGN CHOICE: log 31] -/
def orderKept (l : List CtrMsg) (picks : List Nat) (i : Nat) : Bool :=
  match l[i]? with
  | none => false
  | some m => (List.range i).all fun j =>
      picks.contains j || (match l[j]? with
        | some n => !(n.src == m.src)
        | none => true)

/-- A raise of Baton or SIGEN counted for the restore of the step (R339). -/
def Guard.countRaise (g : Guard) (m : CtrMsg) : Guard :=
  if m.outside then
    let i := 64 * m.ctr.toNat + m.target.val
    { g with raises := Sparse.put g.raises i ((Sparse.find g.raises i).getD 0 + m.amount) }
  else g

/-- The compute die that a counter message comes from; SIGEN and Baton send from the hub. -/
def CtrMsg.die (m : CtrMsg) : Option DieId :=
  if h : m.src < 64 then some (dieOf ⟨m.src, h⟩)
  else if m.src < 70000 then none
  else if h : m.src - 70000 < 128 then some (dieOf (coreOf ⟨m.src - 70000, h⟩))
  else none

/-- A counter message between two dies crosses both die links (R14), one of the hub its target's (R378). [DESIGN CHOICE: log
31] -/
def CtrMsg.hasPath (m : CtrMsg) (s : State) : Bool :=
  match m.die with
  | some d => s.path d (dieOf m.target)
  | none => s.hubDie (dieOf m.target)

/-- A notification between two dies crosses both die links (R14), one of the hub its target's (R378). [DESIGN CHOICE: log 31]
-/
def NoteMsg.hasPath (m : NoteMsg) (s : State) : Bool :=
  if h : m.src < 4 then s.path ⟨m.src, h⟩ (dieOf m.target) else s.hubDie (dieOf m.target)

/-- Counter messages delivered to core k in one cycle (R196, R218, R219): those picked, by their place among the core's.
[DESIGN CHOICE: log 11] -/
def State.deliverPicked (s : State) (k : CoreId) (picks : List Nat) : State :=
  let mine := s.msgs.ctrs.filter fun m => m.target == k
  let take := (List.range mine.length).filter fun i => picks.contains i && orderKept mine picks i &&
    (mine[i]?.map fun m => m.hasPath s).getD false
  if take.isEmpty ∨ s.cutOff k = true then s
  else
    let chosen := take.filterMap fun i => mine[i]?
    let left := (List.range mine.length).filterMap fun i => if take.contains i then none else mine[i]?
    let s : State := { s with
      msgs := { s.msgs with ctrs := (s.msgs.ctrs.filter fun m => m.target != k) ++ left }
      guard := chosen.foldl Guard.countRaise s.guard }
    (s.settle k).deliver k (chosen.map fun m => (m.ctr, m.amount))

/-- COUNTER_DELIVERY (R194, R196, R218, R219). -/
def execCounterDelivery (k : CoreId) (picks : List Nat) (s : State) : Host.Outcome State Fault Refusal :=
  atCore k s fun s => s.deliverPicked k picks

/-- WATCH_REGISTRATION_ARRIVAL (R224): the oldest registration of a watch slot of core k that is on its way; those from one die to
another come in order (R16). -/
def execWatchRegistrationArrival (k : CoreId) (wslot : Fin 16) (s : State) : Host.Outcome State Fault Refusal :=
  atCore k s fun s =>
    match takeOrdered (fun (m : RegMsg) => m.w.core == k && m.w.slot == wslot && s.path (dieOf k) (dieOf m.target))
        (fun x m => dieOf x.w.core == dieOf m.w.core && dieOf x.target == dieOf m.target) s.msgs.regs with
    | none => s
    | some (m, rest) =>
      let s : State := { s with msgs := { s.msgs with regs := rest } }
      s.updCore m.target fun c => c.addWatcher m.w

/-- WATCH_NOTIFICATION (R222, R225): the oldest notification on its way to a watch slot of core k; those of one Starter to one core come
in order (R16). [DEDUCED: log 29] -/
def execWatchNotification (k : CoreId) (wslot : Fin 16) (s : State) : Host.Outcome State Fault Refusal :=
  atCore k s fun s =>
    if s.cutOff k then s
    else
      match takeOrdered (fun (m : NoteMsg) => m.target == k && m.slot == wslot && m.hasPath s)
          (fun x m => x.target == m.target && x.src == m.src) s.msgs.notes with
      | none => s
      | some (m, rest) =>
        let s : State := { s with msgs := { s.msgs with notes := rest } }
        (s.settle k).updCore k fun c => ({ c with arch := c.arch.notify m.slot m.tag } : Core).wake

/-! ### Errors (R230, R231, R239) -/

/-- Bits of `STR_STAT` by their index here; the register has each one place higher. -/
def BARCFG : Fin 5 := 4
def BARKIND : Fin 5 := 3
def BARDUP : Fin 5 := 2
def BARNM : Fin 5 := 1
def CFGREJ : Fin 5 := 0

/-- An error recorded in a die's `STR_STAT`; a bit that was 0 gives one BAR_ERROR (R231). [DEDUCED: log 63] -/
def State.barError (s : State) (d : DieId) (b : Fin 5) (ectx : Nat) (core : BitVec 7) : State :=
  let was := (s.dies[d]).str.bits.getLsbD b.val
  let s := s.updDie d fun x => { x with str := ⟨BitVec.ofNat 8 ectx, core, x.str.bits ||| (1#5 <<< b.val)⟩ }
  if was then s
  else
    s.emit 0x34 (if b = CFGREJ then 0 else 2) (BitVec.ofNat 8 d.val) core
      (BitVec.ofNat 64 (2 <<< b.val + ectx <<< 8 + core.toNat <<< 16)) 0 false

/-! ### Barriers of a die and of a die mask (R227-R235) -/

/-- One barrier context changed. -/
def State.updBar (s : State) (d : DieId) (j : Fin 16) (f : BarCtx → BarCtx) : State :=
  s.updDie d fun x => { x with bars := vupd x.bars j f }

/-- A barrier context. -/
def State.bar (s : State) (d : DieId) (j : Fin 16) : BarCtx := (s.dies[d]).bars[j]

/-- Notifications of the Starter of a die, or of Baton with 4, handed to the network (R225, R229). [DEDUCED: log 29] -/
def State.sendNotes (s : State) (src : Nat) (l : List (CoreId × Fin 16 × Nat)) : State :=
  { s with msgs := { s.msgs with notes := s.msgs.notes ++ l.map fun x => ⟨x.1, src, x.2.1, x.2.2⟩ } }

/-- Every participant has arrived in the current generation. -/
def BarCtx.full (b : BarCtx) : Bool := b.valid && b.arrived == b.cmask

/-- The context releases: of a core mask when its participants have arrived, of a die mask when every die of the mask has (R228,
R232). -/
def BarCtx.due (b : BarCtx) : Bool := b.full && (!b.dieMask || b.darr == b.dmask)

/-- A context after its release (R229, R232). -/
def BarCtx.release (b : BarCtx) : BarCtx :=
  { b with
    gen := b.gen + 1, arrived := b.early, early := 0, darr := b.dearly, dearly := 0, slots := b.eslots, eslots := [] }

/-- A die's own part completed: its bit, and a message to every other die of the mask (R232). -/
def State.localPart (s : State) (d : DieId) (j : Fin 16) : State :=
  let b := s.bar d j
  if b.full && b.dieMask && !b.darr.getLsbD d.val then
    let s := s.updBar d j fun b => { b with darr := b.darr ||| (1#4 <<< d.val) }
    let others := (List.finRange 4).filter fun t => t != d && b.dmask.getLsbD t.val
    { s with msgs := { s.msgs with dies := s.msgs.dies ++ others.map fun t => ⟨t, d, j, b.gen, b.dmask⟩ } }
  else s

/-- One release of a context, where it is due. -/
def State.releaseBar (s : State) (d : DieId) (j : Fin 16) : State :=
  let s := s.localPart d j
  let b := s.bar d j
  if b.due then (s.updBar d j BarCtx.release).sendNotes d.val b.slots else s

/-- A context after a change: its release, and one that the moved arrivals alone cause (R229). -/
def State.advanceBar (s : State) (d : DieId) (j : Fin 16) : State :=
  ((s.releaseBar d j).releaseBar d j).localPart d j

/-- `WGEN` of a slot whose registration an arrival carries: the generation it joins (R228). -/
def State.setWgen (s : State) (a : ArrMsg) (g : BitVec 16) : State :=
  s.updArch a.core fun x =>
    let w := x.watches[a.slot]
    if w.wst = .armed ∧ w.tag = a.tag then { x with watches := x.watches.set a.slot.val { w with gen := g } } else x

/-- An arrival at a context of its die (R228-R230). -/
def State.arriveBar (s : State) (a : ArrMsg) : State :=
  let d := dieOf a.core
  let j : Fin 16 := ⟨a.ctx.toNat % 16, by omega⟩
  let n := (localOf a.core).val
  let b := s.bar d j
  let bit : BitVec 16 := 1#16 <<< n
  let core7 : BitVec 7 := BitVec.ofNat 7 a.core.val
  if b.valid = false ∨ b.dieMask ≠ (a.scope == 1) then s.barError d BARKIND j.val core7
  else if b.cmask.getLsbD n = false then s.barError d BARNM j.val core7
  else if b.arrived.getLsbD n = false then
    ((s.updBar d j fun b => { b with arrived := b.arrived ||| bit, slots := b.slots ++ [(a.core, a.slot, a.tag)] }).setWgen a
      b.gen).advanceBar d j
  else if b.early.getLsbD n = false then
    (s.updBar d j fun b => { b with early := b.early ||| bit, eslots := b.eslots ++ [(a.core, a.slot, a.tag)] }).setWgen a
      (b.gen + 1)
  else s.barError d BARDUP j.val core7

/-- A die-mask message at its target (R232). -/
def State.dieMessage (s : State) (m : DieMsg) : State :=
  let b := s.bar m.target m.ctx
  let bit : BitVec 4 := 1#4 <<< m.sender.val
  if m.dmask ≠ b.dmask then s.barError m.target BARCFG m.ctx.val 0x7F
  else if m.gen = b.gen then (s.updBar m.target m.ctx fun b => { b with darr := b.darr ||| bit }).advanceBar m.target m.ctx
  else if m.gen = b.gen + 1 then s.updBar m.target m.ctx fun b => { b with dearly := b.dearly ||| bit }
  else s

/-- DIE_BARRIER_MESSAGE (R232): message `i` of those on their way to die `d`, where no earlier one of its sender is (R16). -/
def execDieBarrierMessage (d : DieId) (i : Nat) (s : State) : Host.Outcome State Fault Refusal :=
  atDie d s fun s =>
    let mine := s.msgs.dies.filter fun m => m.target == d
    match mine[i]? with
    | none => s
    | some m =>
      if (mine.take i).any (fun n => n.sender == m.sender) || !s.path m.sender d then s
      else
        let s : State := { s with
          msgs := { s.msgs with dies := (s.msgs.dies.filter fun n => n.target != d) ++ dropAt mine i } }
        s.dieMessage m

/-- A context holds an arrival, an early arrival or a die message (R234). [DEDUCED: log 64] -/
def BarCtx.busy (b : BarCtx) : Bool := b.arrived != 0 || b.early != 0 || b.darr != 0 || b.dearly != 0

/-- A configuration of a context is refused (R234). [DEDUCED: log 64] -/
def State.barRefused (s : State) (d : DieId) (j : Fin 16) (v : Word) : Bool :=
  let dmask := fld v 48 4
  (s.bar d j).busy ||
    (if v.getLsbD 62 then !(v.extractLsb' 48 4).getLsbD d.val || decide (2 ^ s.dieCount ≤ dmask) else dmask != 0) ||
    (v.getLsbD 63 && fld v 0 16 == 0)

/-- BAR_CFG_WRITE (R234, R237). [DEDUCED: log 64] -/
def execBarCfgWrite (d : DieId) (ctx : Fin 16) (v : Word) (s : State) : Host.Outcome State Fault Refusal :=
  atDie d s fun s => s.ifOpen 0 fun s =>
    if s.barRefused d ctx v then s.barError d CFGREJ ctx.val 0x7F
    else s.updBar d ctx fun b =>
      { b with valid := v.getLsbD 63, dieMask := v.getLsbD 62, dmask := v.extractLsb' 48 4, cmask := v.extractLsb' 0 16 }

/-- A context cleared by an abort (R235). [DEDUCED: log 64] -/
def BarCtx.abort (b : BarCtx) : BarCtx :=
  { b with gen := b.gen + 1, arrived := 0, early := 0, darr := 0, dearly := 0, slots := [], eslots := [] }

/-- Watch slots that waited on an aborted context: they stay ARMED until their core unwatches them or is launched again (R235). -/
def State.markAborted (s : State) (l : List (CoreId × Fin 16 × Nat)) : State :=
  l.foldl (fun s x => s.updArch x.1 fun a =>
    let w := a.watches[x.2.1]
    if w.wst = .armed ∧ w.tag = x.2.2 then { a with watches := a.watches.set x.2.1.val { w with aborted := true } } else a) s

/-- BABORT (R235). -/
def execBabort (d : DieId) (ctx : Fin 16) (s : State) : Host.Outcome State Fault Refusal :=
  atDie d s fun s => s.ifOpen 0 fun s =>
    (s.markAborted ((s.bar d ctx).slots ++ (s.bar d ctx).eslots)).updBar d ctx BarCtx.abort

/-! ### Fabric barriers (R233, R296, R297, R310, R314, R340) -/

/-- A group entry. -/
def State.group (s : State) (g : BitVec 12) : Group := (Sparse.find s.baton.groups g.toNat).getD Group.reset

/-- The member slot of a rank of a group (R277). -/
def State.memberOf (s : State) (g : Group) (rank : Nat) : Member :=
  (Sparse.find s.baton.members (g.slotbase.toNat + rank)).getD Member.none

/-- The endpoints of a rank: the member, and its backup where the group uses backups (R310). -/
def State.endpoints (s : State) (g : Group) (rank : Nat) : List (BitVec 24) :=
  let m := s.memberOf g rank
  if g.grace = 0 ∨ m.backup = noEp then [m.ep] else [m.ep, m.backup]

/-- This module is in backup role for a group (R309). -/
def State.inBackup (s : State) (g : Group) : Bool := g.grace != 0 && (s.memberOf g g.myrank.toNat).ep != s.dxt.myep

/-- The children of a rank in a group (R297). -/
def childrenOf (g : Group) (rank : Nat) : List Nat :=
  (List.range 16).filterMap fun i => if 16 * rank + i + 1 ≤ g.nrankm1.toNat then some (16 * rank + i + 1) else none

/-- A message of a fabric context sent to a rank. -/
def State.sendFabric (s : State) (j : Fin 8) (g : Group) (rank : Nat) (release : Bool) (gen : BitVec 16) : State :=
  (s.endpoints g rank).foldl (fun s ep =>
    s.sendMsg ep (.fabric j ⟨release, g.myrank, s.inBackup g, gen, g.gfp⟩)) s

/-- A fabric context. -/
def State.fab (s : State) (j : Fin 8) : FabCtx := s.fabs[j]

/-- The local part and the arrivals of all children are complete (R233, R297). -/
def State.fabComplete (s : State) (j : Fin 8) : Bool :=
  let f := s.fab j
  let g := s.group f.group
  f.valid && f.fcmask != 0 && f.arrived == f.fcmask && (childrenOf g g.myrank.toNat).all fun r => f.kids.contains r

/-- A fabric context after its release (R229, R297). -/
def FabCtx.release (f : FabCtx) : FabCtx :=
  { f with
    gen := f.gen + 1, arrived := f.early, early := 0, slots := f.eslots, eslots := [], kids := f.ekids, ekids := [],
    sent := false, relGen := some f.gen }

/-- The release of the current generation passed down the tree, and its effect here (R297). [DEDUCED: log 63] -/
def State.releaseFab (s : State) (j : Fin 8) : State :=
  let f := s.fab j
  let g := s.group f.group
  let s := (childrenOf g g.myrank.toNat).foldl (fun s r => s.sendFabric j g r true f.gen) s
  (s.updFab j FabCtx.release).sendNotes 4 f.slots

/-- A fabric context after a change: a complete root releases, a complete member sends its arrival to its parent once (R297). -/
def State.stepFab (s : State) (j : Fin 8) : State :=
  let f := s.fab j
  let g := s.group f.group
  if s.fabComplete j = false then s
  else if g.myrank = 0 then s.releaseFab j
  else if f.sent then s
  else (s.sendFabric j g ((g.myrank.toNat - 1) / 16) false f.gen).updFab j fun f => { f with sent := true }

/-- A fabric context after a change, with the release that moved arrivals alone cause (R229). -/
def State.advanceFab (s : State) (j : Fin 8) : State := (s.stepFab j).stepFab j

/-- A generation has been released: it lies before the current one, and no abort ended it (R235, R297). -/
def FabCtx.released (f : FabCtx) (gen : BitVec 16) : Bool :=
  f.gen != gen && decide ((f.gen - gen).toNat < 2 ^ 15) && !f.aborted.contains gen

/-- The slot of a core's arrival replaced in a list. -/
def reslot (l : List (CoreId × Fin 16 × Nat)) (a : ArrMsg) : List (CoreId × Fin 16 × Nat) :=
  l.map fun x => if x.1 = a.core then (a.core, a.slot, a.tag) else x

/-- A replay arrival (R340): it is not counted; its slot is notified with the generation that the first run's arrival joined. -/
def State.replayArrival (s : State) (j : Fin 8) (a : ArrMsg) (gen : BitVec 16) (rest : List (CoreId × BitVec 16)) : State :=
  let f := s.fab j
  let s := (s.updFab j fun f => { f with replay := rest }).setWgen a gen
  if f.released gen then s.sendNotes 4 [(a.core, a.slot, a.tag)]
  else if gen = f.gen then s.updFab j fun f => { f with slots := reslot f.slots a }
  else s.updFab j fun f => { f with eslots := reslot f.eslots a }

/-- An arrival at a fabric context (R228-R230, R233, R296). [DEDUCED: log 63] [DESIGN CHOICE: log 110] -/
def State.arriveFab (s : State) (a : ArrMsg) : State :=
  let j : Fin 8 := ⟨a.ctx.toNat % 8, by omega⟩
  let d := dieOf a.core
  let f := s.fab j
  let n := a.core.val
  let core7 : BitVec 7 := BitVec.ofNat 7 n
  match takeFirst (fun (x : CoreId × BitVec 16) => x.1 == a.core) f.replay with
  | some (x, rest) => s.replayArrival j a x.2 rest
  | none =>
    if f.valid = false then s.barError d BARKIND (0x10 + j.val) core7
    else if f.fcmask.getLsbD n = false then s.barError d BARNM (0x10 + j.val) core7
    else if f.arrived.getLsbD n = false then
      ((s.updFab j fun f => { f with
        arrived := f.arrived ||| (1#64 <<< n), slots := f.slots ++ [(a.core, a.slot, a.tag)],
        log := f.log ++ [(a.core, f.gen)] }).setWgen a f.gen).advanceFab j
    else if f.early.getLsbD n = false then
      (s.updFab j fun f => { f with
        early := f.early ||| (1#64 <<< n), eslots := f.eslots ++ [(a.core, a.slot, a.tag)],
        log := f.log ++ [(a.core, f.gen + 1)] }).setWgen a (f.gen + 1)
    else s.barError d BARDUP (0x10 + j.val) core7

/-- BARRIER_ARRIVAL (R228): the oldest arrival of core k that is on its way; one at a fabric context crosses the die link to Baton
(R14, R233). -/
def execBarrierArrival (k : CoreId) (s : State) : Host.Outcome State Fault Refusal :=
  atCore k s fun s =>
    match takeFirst (fun (m : ArrMsg) => m.core == k && (m.scope != 2 || s.hubDie (dieOf k))) s.msgs.arrs with
    | none => s
    | some (a, rest) =>
      let s : State := { s with msgs := { s.msgs with arrs := rest } }
      if a.scope = 2 then s.arriveFab a else s.arriveBar a

/-- A message of another module with a wrong fingerprint: discarded and counted (R297, R300). -/
def State.gfpRefused (s : State) : State :=
  { s with baton := { s.baton with gfpErr := true, refuse := sat16 s.baton.refuse 1 } }

/-- The endpoint that a fabric message came from. -/
def State.senderOf (s : State) (g : Group) (m : FabMsg) : BitVec 24 :=
  let x := s.memberOf g m.fromRank.toNat
  if m.fromBackup then x.backup else x.ep

/-- An arrival of a child rank (R297, R314): the first of the member's and its backup's counts; one for a released generation is
answered with the release. -/
def State.childArrival (s : State) (j : Fin 8) (m : FabMsg) : State :=
  let f := s.fab j
  let g := s.group f.group
  let r := m.fromRank.toNat
  if (childrenOf g g.myrank.toNat).contains r = false then s
  else if f.released m.gen then s.sendMsg (s.senderOf g m) (.fabric j ⟨true, g.myrank, s.inBackup g, m.gen, g.gfp⟩)
  else if m.gen = f.gen then
    (s.updFab j fun f => { f with kids := if f.kids.contains r then f.kids else f.kids ++ [r] }).advanceFab j
  else if m.gen = f.gen + 1 then
    s.updFab j fun f => { f with ekids := if f.ekids.contains r then f.ekids else f.ekids ++ [r] }
  else s

/-- FABRIC_BARRIER_MESSAGE (R297). [DEDUCED: log 63] -/
def execFabricBarrierMessage (ctx : Fin 8) (m : FabMsg) (s : State) : Host.Outcome State Fault Refusal :=
  always s fun s =>
    let f := s.fab ctx
    let g := s.group f.group
    if f.valid = false ∨ g.valid = false ∨ g.gfp ≠ m.gfp then s.gfpRefused
    else if m.release then (if m.gen = f.gen then (s.releaseFab ctx).advanceFab ctx else s)
    else s.childArrival ctx m

/-- FABRIC_BARRIER_RESEND (R297): the arrival of the current generation sent to the parent again, and the last release to the children
that have not gone on: a message that a member has discarded is sent again. -/
def execFabricBarrierResend (ctx : Fin 8) (s : State) : Host.Outcome State Fault Refusal :=
  always s fun s =>
    let f := s.fab ctx
    let g := s.group f.group
    let s := if f.valid ∧ f.sent = true ∧ g.myrank ≠ 0 then s.sendFabric ctx g ((g.myrank.toNat - 1) / 16) false f.gen else s
    match f.relGen with
    | some gen =>
      if f.valid then
        ((childrenOf g g.myrank.toNat).filter fun r => !f.kids.contains r).foldl (fun s r => s.sendFabric ctx g r true gen) s
      else s
    | none => s

/-- A fabric context holds an arrival or an early arrival. -/
def FabCtx.arrivals (f : FabCtx) : Bool := f.arrived != 0 || f.early != 0

/-- FBAR_CFG_WRITE (R234, R241). [DEDUCED: log 63] -/
def execFbarCfgWrite (ctx : Fin 8) (v : Word) (s : State) : Host.Outcome State Fault Refusal :=
  always s fun s => s.ifOpen 0 fun s =>
    if (s.fab ctx).arrivals = true ∨ v = 0 ∨ 2 ^ s.coreCount ≤ v.toNat then s.barError 0 CFGREJ (0x10 + ctx.val) 0x7F
    else s.updFab ctx fun f => { f with fcmask := v }

/-- FABORT (R235). -/
def execFabort (ctx : Fin 8) (s : State) : Host.Outcome State Fault Refusal :=
  always s fun s => s.ifOpen 0 fun s => (s.markAborted ((s.fab ctx).slots ++ (s.fab ctx).eslots)).updFab ctx fun f =>
    { f with
      gen := f.gen + 1, arrived := 0, early := 0, slots := [], eslots := [], kids := [], ekids := [], sent := false
      relGen := none
      -- a generation comes again after 65,536: what was aborted half of them ago is forgotten
      aborted := f.gen :: f.aborted.filter fun g => decide ((f.gen - g).toNat < 2 ^ 15) }

/-- FBAR_BIND_WRITE (R296). [DEDUCED: log 63] -/
def execFbarBindWrite (ctx : Fin 8) (v : Word) (s : State) : Host.Outcome State Fault Refusal :=
  always s fun s => s.ifOpen 0 fun s =>
    let f := s.fab ctx
    let g : BitVec 12 := v.extractLsb' 0 12
    if f.arrivals = true ∨ f.kids ≠ [] ∨ f.ekids ≠ [] ∨ (v.getLsbD 63 = true ∧ (s.group g).valid = false) then
      s.barError 0 CFGREJ (0x10 + ctx.val) 0x7F
    else s.updFab ctx fun f => { f with valid := v.getLsbD 63, group := g }

end Sys2Proof.Machine
end

