-- ==== Sys2Proof/Machine/StepClose.lean ====
section
/-! DEFINITION. STEPCLOSE (R269): rotations, Taper, the commit (R335), finish digests (R341-R343), and the comparison and resolution
of step digests of a twin pair (R345, R346). -/

namespace Sys2Proof.Machine

/-! ### Rotations at a step boundary (R19, R21, R358) -/

/-- Overdue cores of a die by ascending logical number, with their physical cores. -/
def State.overdueOf (s : State) (d : DieId) : List (CoreId × PCoreNo) :=
  (List.finRange 16).filterMap fun n =>
    let k := coreAt d n
    match s.servedBy k with
    | some p => if (s.pcore d p).overdue then some (k, p) else none
    | none => none

/-- An overdue core rotated, or reported once where no SPARE is free (R358). [DEDUCED: log 42] -/
def State.rotateOverdue (s : State) (d : DieId) (x : CoreId × PCoreNo) : State :=
  if s.rotationPoint x.1 = false ∨ s.rotating x.1 = true then s
  else
    match s.startRotation x.1 .overdue true with
    | some t => t
    | none =>
      let c := s.pcore d x.2
      if c.told then s
      else
        (s.emit 0x15 0 (BitVec.ofNat 8 d.val) (BitVec.ofNat 7 x.1.val)
          (BitVec.ofNat 64 (x.2.val <<< 8 + c.owedAt.toNat <<< 16)) 0 false).updPCore d x.2 fun x => { x with told := true }

/-- A requested rotation begun, where a SPARE is free (R19). [DEDUCED: log 42] -/
def State.rotateAsked (s : State) (k : CoreId) : State :=
  if s.rotationPoint k = false ∨ s.rotating k = true then s
  else
    match s.startRotation k .service true with
    | some t => { t with rotReq := t.rotReq.filter (· != k) }
    | none => s

/-- The rotations due at a step boundary begun: overdue cores before requests. -/
def State.stepRotations (s : State) : State :=
  let s := (List.finRange 4).foldl (fun s d => (s.overdueOf d).foldl (fun s x => s.rotateOverdue d x) s) s
  s.rotReq.foldl State.rotateAsked s

/-! ### Finish digests (R341-R343) -/

/-- The handle of an entry that counts is made the other one of its pair, unless the step is skipped (R341). -/
def DigEntry.flip (e : DigEntry) (skip : Bool) : DigEntry := if e.alt && !skip then { e with cur := !e.cur } else e

/-- The finish digest (R341). [DEDUCED: log 43] -/
def Guard.finishDigest (g : Guard) : Word :=
  g.list.foldl (fun f e => f + if e.alt && e.cur then e.sum1 else e.sum0) 0

/-- The neighbour ranks that a module exchanges finish digests with, each once: rank r + 1 first (R342). -/
def neighbours (rank n : Nat) : List (Bool × Nat) :=
  if n ≤ 1 then []
  else if n = 2 then [(true, (rank + 1) % 2)]
  else [(true, (rank + 1) % n), (false, (rank + n - 1) % n)]

/-- The group that compares finish digests. -/
def State.fdGroup (s : State) : Group := s.group s.guard.fdgroup

/-- Ranks of that group. -/
def State.fdRanks (s : State) : Nat := s.fdGroup.nrankm1.toNat + 1

/-- The outcome of a comparison step once every neighbour's digest has come (R343). [DEDUCED: log 43] -/
def State.fdOutcome (s : State) (own : Word) (bad : List (Bool × Word)) : State :=
  match bad with
  | [] => s
  | [x] =>
    if s.fdRanks = 2 then s.emit 0x0A 2 0xFF 0x7F own 0 false else s.emit 0x08 0 0xFF 0x7F x.2 0 false
  | _ => s.emit 0x09 1 0xFF 0x7F own 0 false

/-- A neighbour's digest compared with the module's own of the same step: every digest received, the copies of a member and
its backup
each (R342). The outcome is formed once every neighbour has been heard of, and again when a later copy names one more that
disagrees. [DEDUCED: log 43] -/
def State.fdCompare (s : State) (fromNext : Bool) (step : BitVec 48) (digest : Word) : State :=
  let n := s.fdRanks
  let side := if n = 2 then true else fromNext
  let late (s : State) : State := s.emit 0x13 0 0xFF 0x7F 1 0 false
  match s.guard.digests.find? fun x => x.1 == step with
  | some x =>
    if n ≤ 1 then s
    else
      let seen := if x.2.2.1.contains side then x.2.2.1 else x.2.2.1 ++ [side]
      let known := digest == x.2.1 || x.2.2.2.any fun b => b.1 == side
      let bad := if known then x.2.2.2 else x.2.2.2 ++ [(side, digest)]
      let s : State := { s with guard := { s.guard with
        digests := s.guard.digests.map fun y => if y.1 = step then (y.1, y.2.1, seen, bad) else y } }
      if seen.length = (neighbours 0 n).length ∧ (x.2.2.1.length < seen.length ∨ known = false) then s.fdOutcome x.2.1 bad else s
  | none =>
    if s.stepCtr.toNat < step.toNat then
      { s with guard := { s.guard with earlyFd := s.guard.earlyFd ++ [(fromNext, step, digest)] } }
    else late s

/-- The exchange of a comparison step (R342): the digest kept and sent to the neighbours, and those that were early compared.
[DEDUCED: log 43] -/
def State.fdExchange (s : State) : State :=
  let f := s.guard.fdValue
  let g := s.fdGroup
  let early := s.guard.earlyFd
  let s : State := { s with guard := { s.guard with
    digests := ((s.stepCtr, f, [], []) :: s.guard.digests).take 4, earlyFd := [] } }
  let s := (neighbours g.myrank.toNat s.fdRanks).foldl (fun s r =>
    (s.endpoints g r.2).foldl (fun s ep => s.sendMsg ep (.finish s.stepCtr f)) s) s
  early.foldl (fun s e => s.fdCompare e.1 e.2.1 e.2.2) s

/-- The oldest message handed over by one of these endpoints taken. -/
def State.takeMsg (s : State) (eps : List (BitVec 24)) : State :=
  match takeFirst (fun (h : Handed) => match h with
      | .msg ep _ _ => eps.contains ep
      | _ => false) s.dxt.handed with
  | some (_, rest) => s.updDxt fun d => { d with handed := rest }
  | none => s

/-- FD_DIGEST_ARRIVAL (R342, R343). [DEDUCED: log 43] -/
def execFdDigestArrival (fromNext : Bool) (step : BitVec 48) (digest : Word) (s : State) : Host.Outcome State Fault Refusal :=
  always s fun s =>
    let g := s.fdGroup
    let n := s.fdRanks
    let rank := if fromNext then (g.myrank.toNat + 1) % n else (g.myrank.toNat + n - 1) % n
    let s := s.takeMsg (s.endpoints g rank)
    if s.guard.fden then s.fdCompare fromNext step digest else s

/-! ### The commit (R269, R335, R339-R341) -/

/-- The step's skip word is non-zero (R269); an address of 0 names no word. [DEDUCED: log 46] -/
def State.skipWord (s : State) (addr : Nat) : Bool := addr != 0 && s.rdDevNat addr 4 != 0

/-- The commit point: raises, replays, absorbed faults and arrivals of the step are past, and the digests are formed (R335, R341). -/
def State.commitPoint (s : State) (skip : Bool) : State :=
  let s := if s.guard.repen then s.saveStep else s
  let g := s.guard
  let g : Guard := { g with
    raises := [], replays := 0, absorbed := [], list := g.list.map fun e => e.flip skip
    twin := { TwinState.reset with
      gated := g.twin.gated.map fun b => { b with run := 1 }
      early := g.twin.early, opened := g.twin.opened, alone := g.twin.alone } }
  let g : Guard := if g.repen || g.fden then { g with fdValue := g.finishDigest } else g
  { s with guard := g, fabs := s.fabs.map fun f => { f with replay := [], log := [] } }

/-- Actions 3 to 5 of STEPCLOSE (R269), and its result. -/
def State.commit (s : State) (q addr : Nat) : State :=
  let skip := s.skipWord addr
  let s := s.commitPoint skip
  let s : State := { s with
    stepCtr := s.stepCtr + 1
    skips := if skip then s.skips + 1 else s.skips
    handles := { s.handles with recent := [] }
    stepPhase := .idle }
  let s := if s.guard.fden && s.guard.dint != 0 && s.stepCtr.toNat % s.guard.dint == 0 then s.fdExchange else s
  s.finish q ST_OK (BitVec.ofNat 384 (s.stepCtr.toNat + s.skips.toNat <<< 64))

/-! ### Twin step digests (R345, R346) -/

/-- Parts on which two digests disagree. -/
def disagree (a b : List Word) : List Nat := (List.range 65).filter fun i => a.getD i 0 != b.getD i 0

/-- `DETAIL` and `P64` of a twin record. -/
def partMask (l : List Nat) : Word × Bool :=
  (l.foldl (fun (m : Word) i => if i < 64 then m ||| (1#64 <<< i) else m) 0, l.contains 64)

/-- A twin record. -/
def State.emitTwin (s : State) (evt sev : Byte) (l : List Nat) : State :=
  s.emit evt sev 0xFF 0x7F (partMask l).1 0 (partMask l).2

/-- The logical cores among the parts. -/
def coresOf (l : List Nat) : List CoreId := (List.finRange 64).filter fun k => l.contains k.val

/-- Every die has a SPARE for each of its cores among those given. -/
def State.sparesFor (s : State) (l : List CoreId) : Bool :=
  (List.finRange 4).all fun d =>
    decide ((l.filter fun k => dieOf k == d).length ≤
      ((List.finRange 18).filter fun p => (s.pcore d p).pst == .spare && !s.taken d p).length)

/-- A core queue halted with CORE_FAULT (R346 step 5). -/
def State.haltCore (s : State) (q : Nat) : State :=
  let x := s.queue q
  match x.qstate with
  | .idle => (s.updQueue q fun x => x.halt ST_CORE_FAULT).noteDeps
  | .waiting => s.complete q ST_CORE_FAULT 0
  | .active => if x.begun then s.faultStop x.lcore ST_CORE_FAULT else s.finish q ST_CORE_FAULT 0
  | _ => s

/-- TWIN_SPLIT (R346 step 5): every core queue halts; a STEPCLOSE that waits ends with CORE_FAULT. [DESIGN CHOICE: log 44] -/
def State.twinSplit (s : State) (l : List Nat) : State :=
  let s := s.emitTwin 0x0E 2 l
  let s := s.queueNumbers.foldl (fun s q => if (s.queue q).ecls = 1 then s.haltCore q else s) s
  let s : State := { s with guard := { s.guard with twin := { s.guard.twin with run := 1, rotated := [], mismatch := [] } } }
  match s.stepPhase with
  | .twinWait q _ => ({ s with stepPhase := .idle } : State).fail q ST_CORE_FAULT
  | _ => s

/-- The end of a resolution with rotations (R346 step 4), once the digest that disagreed in the run before is compared again:
on the module
whose part changed the rotated-out core is RETIRED; part 64 makes the hub's test due. [DESIGN CHOICE: log 44] -/
def State.twinSettle (s : State) (about : Option (Nat × Nat × Nat)) (own theirs : List Word) : State :=
  let t := s.guard.twin
  if t.run ≠ 3 ∨ t.about ≠ about then s
  else
    let moved (i : Nat) : Bool := own.getD i 0 != t.prevOwn.getD i 0
    let s := t.rotated.foldl (fun s x =>
      if moved x.1.val then s.updPCore (dieOf x.1) x.2 PCore.retire else s) s
    let s : State := { s with guard := { s.guard with twin := { s.guard.twin with rotated := [], mismatch := [] } } }
    if t.mismatch.contains 64 then
      let mine := moved 64
      let other := theirs.getD 64 0 != t.prevTheirs.getD 64 0
      if mine ∨ other = false then { s with cooldown := { s.cooldown with hubDue := true } } else s
    else s

/-- A mismatch resolved (R346): the digest that disagrees, own and the twin's parts of this run, and the parts that disagree.
[DESIGN CHOICE: log 44] -/
def State.twinMismatch (s : State) (about : Option (Nat × Nat × Nat)) (own theirs : List Word) (l : List Nat) : State :=
  let s := s.twinSettle about own theirs
  let t := s.guard.twin
  let next (run : Nat) (rot : List (CoreId × PCoreNo)) : State :=
    { s with guard := { s.guard with twin :=
        { t with
          run := run, about := about, prevOwn := own, prevTheirs := theirs, mismatch := l, rotated := rot, theirs := none
          sent := false } } }
  if t.run = 1 then
    let s := (next 2 []).emitTwin 0x0C 1 l
    if s.canReplayStep then s.beginReplay [] .twin else s.twinSplit l
  else if t.run = 2 ∧ s.sparesFor (coresOf l) = true ∧ s.canReplayStep = true then
    let ks := coresOf l
    (next 3 (ks.filterMap fun k => (s.servedBy k).map fun p => (k, p))).beginReplay ks .twin
  else s.twinSplit l

/-- Every digest of a run agrees: the resolution, if there was one, ends (R346 steps 2 and 4). [DESIGN CHOICE: log 44] -/
def State.twinAgreed (s : State) (own theirs : List Word) : State :=
  let t := s.guard.twin
  if t.run = 1 then s
  else
    let s := (s.twinSettle none own theirs).emit 0x0D 1 0xFF 0x7F (BitVec.ofNat 64 t.run) 0 false
    { s with guard := { s.guard with twin := { s.guard.twin with run := 1, rotated := [], mismatch := [] } } }

/-- The head of a queue waits for a Clerk queue, such as that of the STEPCLOSE: it belongs to the next step. -/
def State.behindClerk (s : State) (q : Nat) : Bool :=
  (s.queue q).qstate == .waiting &&
    [0, 1].any fun i =>
      let w := cmdDep (s.headCmd q) i
      fld w 62 2 == 1 && (s.queue (fld w 32 16)).ecls == 5 && !s.depMet w

/-- The step has reached its boundary: no replay, what a rerun has to complete completed, nothing of the core, Runnel and
Starter queues
left to run in the step, and every core stopped or in a WAIT. [DEDUCED: log 45] -/
def State.atBoundary (s : State) : Bool :=
  s.guard.replaying.isNone &&
    (s.queues.all fun e => !e.2.ofStep || e.2.done == e.2.tail || e.2.isActive || s.behindClerk e.1) &&
    (s.guard.work.all fun w => (s.queue w.1).caughtUp w.2) && (List.finRange 64).all fun k => s.rotationPoint k

/-- A STEPCLOSE that waits goes on at the step's boundary (R335 step 1, R345-R347): with a twin the own digest is sent once, and with the
twin's there they are compared; a module that runs alone commits. [DESIGN CHOICE: log 44] -/
def State.twinJudge (s : State) : State :=
  match s.stepPhase with
  | .twinWait q addr =>
    if s.atBoundary = false then s
    else if s.guard.twen = false ∨ s.guard.twin.alone = true then s.commit q addr
    else
      let t := s.guard.twin
      let s := if t.sent then s
        else
          ({ s with guard := { s.guard with twin := { t with sent := true } } } : State).sendMsg s.guard.twep
            (.twinStep s.stepCtr t.own)
      match t.theirs with
      | none => s
      | some theirs =>
        let l := disagree t.own theirs
        if l.isEmpty = false then s.twinMismatch none t.own theirs l
        else if t.redo.isEmpty then (s.twinAgreed t.own theirs).commit q addr
        else s
  | _ => s

/-- TWIN_STEP_DIGEST (R345, R346). -/
def execTwinStepDigest (parts : List Word) (s : State) : Host.Outcome State Fault Refusal :=
  always s fun s =>
    let s := s.takeMsg [s.guard.twep]
    if s.guard.twen && !s.guard.twin.alone && parts.length == 65 then
      ({ s with guard := { s.guard with twin := { s.guard.twin with theirs := some parts } } } : State).twinJudge
    else s

/-! ### STEPCLOSE (R269) -/

/-- A rerun of the step has still something to complete. -/
def State.rerunOwes (s : State) : Bool := s.guard.replaying.isSome || !(s.guard.work.all fun w => (s.queue w.1).caughtUp w.2)

/-- Actions 2 and 3 on: the dies planned, and the commit made, or waiting for the twin, or for a rerun to end. [DEDUCED: log 46] -/
def State.closeStep (s : State) (q addr : Nat) : State :=
  let s := s.planAll fun _ => true
  if (s.guard.twen && !s.guard.twin.alone) || s.rerunOwes then ({ s with stepPhase := .twinWait q addr } : State).twinJudge
  else s.commit q addr

/-- STEPCLOSE whose rotations have all ended goes on. -/
def State.closeIfRotated (s : State) : State :=
  match s.stepPhase with
  | .rotating q addr => if s.rotations.any (·.step) then s else s.closeStep q addr
  | _ => s

/-- STEPCLOSE (R269). One that comes while another runs, or while a replay is under way, waits. -/
def execStepclose (q : QId) (s : State) : Host.Outcome State Fault Refusal :=
  always s fun s => s.onHead q.val 0x54 fun c s =>
    let addr := opf c 0 48
    if (s.queue q.val).begun ∨ s.stepPhase ≠ .idle ∨ s.guard.replaying.isSome = true then s
    else if s.stepCtr = 0xFFFFFFFFFFFF then s.fail q.val ST_STEP_END
    else
    match (List.range 4).find? fun i => addr ≠ 0 && !(s.place (addr + i)).isMem with
    | some i => s.finish q.val ST_UNMAPPED (unmappedResult (addr + i))
    | none => ({ (s.begin q.val).stepRotations with stepPhase := .rotating q.val addr } : State).closeIfRotated

/-- A rotation is at its rotation point (R19): of a replay, once the module's queues have stopped. -/
def State.mayRotate (s : State) (r : Rotation) : Bool :=
  s.rotationPoint r.core && (!(r.reason == .coreFault || r.reason == .twin) || s.queuesStopped)

/-- What comes into the spare: the outgoing core's state as it stands; after a failed restore the save image (R19 step 2, R360). -/
def State.fillSpare (s : State) (r : Rotation) : State :=
  match r.reason with
  | .restoreFailed i =>
    match (s.save (dieOf r.core) i).filter fun v => v.core == r.core && v.complete with
    | some v => s.restoreCore r.core v.image
    | none => s
  | _ => s

/-- Logical cores that still wait for a core of their die, once a rotation has ended (R338, R360). -/
def State.afterRotation (s : State) : State :=
  let twin := s.guard.replaying.any fun r => r.twin
  (s.retryRotations (if twin then .twin else .coreFault)).refillWaiting

/-- ROTATION_COPY_COMPLETE (R19): the map switches and the logical core resumes. -/
def execRotationCopyComplete (k : CoreId) (s : State) : Host.Outcome State Fault Refusal :=
  atCore k s fun s =>
    match takeFirst (fun (r : Rotation) => r.core == k) s.rotations with
    | none => s
    | some (r, rest) =>
      if s.mayRotate r then ({ (s.fillSpare r).switchMap r with rotations := rest } : State).afterRotation.closeIfRotated else s

end Sys2Proof.Machine
end

