-- ==== Sys2Proof/Machine/Streams.lean ====
section
/-! DEFINITION. The Runnels (R197-R216): stream descriptors, stride programs and index streams, tiles on their way in and out, and the
ends of streams. -/

namespace Sys2Proof.Machine

/-! ### Descriptors (R202, R203, R205, R215) -/

/-- A descriptor header and its program as fields (Table: Stream descriptor header). -/
def StreamDesc.ofBits (h : BitVec 512) (prog : List Word) : StreamDesc :=
  { kind := h.extractLsb' 0 2, dir := h.getLsbD 2, loc := h.extractLsb' 3 2, depth := fld h 8 4, tileblk := fld h 12 9,
    rdyctr := h.extractLsb' 24 6, donectr := h.extractLsb' 32 6, endctr := h.extractLsb' 40 6, peeren := h.getLsbD 46,
    plcore := ⟨fld h 48 6 % 64, by omega⟩, pctr := h.extractLsb' 56 6, tbase := fld h 64 48, ttag := h.extractLsb' 112 12,
    rbase := fld h 128 32, prog := prog, ibase := fld h 192 48, itag := h.extractLsb' 240 12, nidx := fld h 256 32,
    nrec := fld h 288 32, rstride := fld h 320 32, recblk := fld h 352 16 }

/-- The reserved ranges of a header: low bit and length. [DEDUCED: log 47] -/
def streamReserved : List (Nat × Nat) :=
  [(5, 3), (21, 3), (30, 2), (38, 2), (47, 1), (54, 2), (62, 2), (124, 4), (166, 26), (252, 4), (368, 144)]

def sopOf (w : Word) : Nat := fld w 60 4
def strideReg (w : Word) : Fin 4 := ⟨fld w 58 2 % 4, by omega⟩
def strideCnt (w : Word) : Nat := fld w 40 16

/-- `IMM` blocks in bytes, modulo 2^48. -/
def strideImm (w : Word) : BitVec 48 := (w.extractLsb' 0 40).signExtend 48 * 4096

/-- Instruction `i` of a program is rejected (R205). [DEDUCED: log 47] -/
def badStride (i : Nat) (w : Word) : Bool :=
  let op := sopOf w
  op == 0 || decide (8 ≤ op) || fld w 56 2 != 0 || ((op == 1 || op == 3) && strideCnt w == 0) ||
    (op == 3 && decide (i ≤ fld w 0 40))

/-- The used bytes of a local window (R27). -/
def localSize (loc : BitVec 2) : Nat := if loc = 0 then 0x1800000 else if loc = 1 then 0x400000 else 0x80000

/-- A descriptor is rejected with BAD_DESC (R215). [DEDUCED: log 47] -/
def StreamDesc.bad (d : StreamDesc) (h : BitVec 512) : Bool :=
  let counters := [d.rdyctr, d.donectr, d.endctr, d.pctr]
  (streamReserved.any fun r => fld h r.1 r.2 != 0) || decide (2 ≤ d.kind.toNat) || d.loc == 3 ||
    decide (d.depth < 1 ∨ 8 < d.depth) || decide (d.tileblk < 1 ∨ 256 < d.tileblk) ||
    (d.loc == 2 && (d.dir || d.depth != 1 || d.rdyctr != 0 || d.donectr != 0 || d.peeren)) ||
    d.tbase % 4096 != 0 || d.rbase % 4096 != 0 || (counters.any fun c => decide (47 < c.toNat)) ||
    (d.loc != 2 && decide (localSize d.loc < d.rbase + d.depth * d.tileblk * 4096)) ||
    (if d.kind = 0 then decide (fld h 160 6 < 1 ∨ 32 < fld h 160 6) || (d.prog.mapIdx badStride).any (fun b => b)
     else d.recblk == 0 || d.ibase % 4096 != 0)

/-- A descriptor lies in HBM or in the core's own Basin (R202). [DEDUCED: log 47] -/
def State.descReadable (s : State) (k : CoreId) (a : Nat) : Bool :=
  match s.place a with
  | .hbm => true
  | .basin o _ => o == k
  | _ => false

/-! ### Runnels -/

/-- The running stream of a Runnel. -/
def State.stream (s : State) (r : RunId) : Option StreamRun := s.runnels[r].run

/-- A running stream changed. -/
def State.updStream (s : State) (r : RunId) (f : StreamRun → StreamRun) : State :=
  { s with runnels := vupd s.runnels r fun x => { x with run := x.run.map f } }

/-- A row of a Runnel acts on its running stream. -/
def State.onStream (s : State) (r : RunId) (f : StreamRun → State) : State :=
  match s.stream r with
  | some x => f x
  | none => s

/-- A stream ends (R213, R215): the command's result, and what `RUN_STAT` keeps. [DESIGN CHOICE: log 104] -/
def State.endStream (s : State) (r : RunId) (x : StreamRun) (st : Byte) (addr : Nat) : State :=
  let s : State := { s with runnels := vupd s.runnels r fun y =>
    { y with
      run := none, tiles := BitVec.ofNat 16 x.complete, errored := st != ST_OK && st != ST_STOPPED, pidx := BitVec.ofNat 5 x.pidx } }
  s.finish x.queue st (BitVec.ofNat 384 (x.complete % 2 ^ 16 + addr <<< 64))

/-- One of the core's own counters raised by a Runnel: a delivery from outside (R207, R218). [DESIGN CHOICE: log 31] -/
def State.raiseOwn (s : State) (k : CoreId) (c : BitVec 6) : State := (s.settle k).deliver k [(c, 1)]

/-- A counter of the core has advanced by `j` from a base (R207). -/
def State.advanced (s : State) (k : CoreId) (c : BitVec 6) (base : BitVec 16) (j : Nat) : Bool :=
  decide (((s.core k).arch.ctr c - base - BitVec.ofNat 16 j).toNat < 2 ^ 15)

/-- Bases and registers of a stream at its start (R204, R207). -/
def State.freshStream (s : State) (k : CoreId) (q : Nat) (d : StreamDesc) : StreamRun :=
  { queue := q, d := d, a := BitVec.ofNat 48 d.tbase, loops := Vector.replicate 4 0, marks := Vector.replicate 4 0, pidx := 0,
    ended := d.kind == 1 && d.nidx == 0, emitted := [], next := 0, tiles := [], complete := 0,
    r0 := (s.core k).arch.ctr d.rdyctr, d0 := (s.core k).arch.ctr d.donectr, reqs := [], idx := 0, idxBlk := none, idxRetried := false,
    halt := none, stopping := false }

/-- A stream command starts on its Runnel, which it reaches over the die link (R19, R164, R202, R205, R214, R378): its descriptor is read in full and judged. -/
def State.startStream (s : State) (q : Nat) (c : BitVec 512) : State :=
  let r : RunId := ⟨(s.queue q).inst.toNat % 128, by omega⟩
  let k := coreOf r
  let a := opf c 0 48
  if (s.queue q).begun ∨ (s.stream r).isSome ∨ s.dieHeld (dieOf k) = true ∨ s.rotating k = true ∨
      (s.core k).prefixStopped = true ∨ s.dieReaches (dieOf k) a = false ∨ s.linkUp (dieOf k) = false then s
  else
    let result (st : Byte) (addr : Nat) : State :=
      ({ (s.begin q) with runnels := vupd s.runnels r fun y => { y with tiles := 0, errored := true, pidx := 0 } } : State).finish q st
        (BitVec.ofNat 384 (addr <<< 64))
    if a % 64 ≠ 0 ∨ s.descReadable k a = false then result ST_BAD_DESC a
    else
      let h : BitVec 512 := BitVec.ofNat 512 (s.rdDevNat a 64)
      let n := if fld h 0 2 = 0 then min (fld h 160 6) 32 else 0
      if n ≠ 0 ∧ s.descReadable k (a + 63 + 8 * n) = false then result ST_BAD_DESC a
      else
        let d := StreamDesc.ofBits h ((List.range n).map fun i => BitVec.ofNat 64 (s.rdDevNat (a + 64 + 8 * i) 8))
        if d.bad h then result ST_BAD_DESC 0
        else
          { (s.begin q) with runnels := vupd s.runnels r fun y =>
              { y with run := some (s.freshStream k q d), errored := false, tiles := 0, pidx := 0 } }

/-- STREAM (R199, R202). -/
def execStream (q : QId) (s : State) : Host.Outcome State Fault Refusal :=
  always s fun s => s.onHead q.val 0x10 fun c s => s.startStream q.val c

/-- STREAM_START (R199): a stream command that waited behind a running stream is taken and starts. -/
def execStreamStart (q : QId) (s : State) : Host.Outcome State Fault Refusal :=
  match execCommandDispatch q s with
  | .next t => always t fun t => t.onHead q.val 0x10 fun c t => t.startStream q.val c
  | o => o

/-! ### Stride programs (R204) -/

/-- The instruction that a stride stream executes next, where it has this opcode. -/
def StreamRun.instr (x : StreamRun) (op : Nat) : Option Word :=
  if x.d.kind ≠ 0 ∨ x.ended = true ∨ x.halt.isSome = true ∨ x.stopping = true then none
  else
    match x.d.prog[x.pidx]? with
    | some w => if sopOf w = op then some w else none
    | none => none

/-- On to another instruction; a program that runs off its last one stops once its blocks have completed (R205). -/
def StreamRun.goTo (x : StreamRun) (i : Nat) : StreamRun :=
  if i < x.d.prog.length then { x with pidx := i } else { x with halt := some (ST_BAD_DESC, 0) }

/-- A stride instruction executed. -/
def State.stride (s : State) (r : RunId) (op : Nat) (f : Word → StreamRun → StreamRun) : State :=
  s.updStream r fun x =>
    match x.instr op with
    | some w => f w x
    | none => x

/-- EMIT. -/
def StreamRun.emit (w : Word) (x : StreamRun) : StreamRun :=
  let n := strideCnt w
  ({ x with
    emitted := x.emitted ++ (List.range n).map fun i => ⟨(x.a + BitVec.ofNat 48 (4096 * i)).toNat, false⟩
    a := x.a + BitVec.ofNat 48 (4096 * n) } : StreamRun).goTo (x.pidx + 1)

/-- LOOP. -/
def StreamRun.doLoop (w : Word) (x : StreamRun) : StreamRun :=
  let g := strideReg w
  let l := x.loops[g]
  let l' : BitVec 16 := if l = 0 then BitVec.ofNat 16 (strideCnt w - 1) else l - 1
  ({ x with loops := vupd x.loops g fun _ => l' } : StreamRun).goTo (if l' = 0 then x.pidx + 1 else fld w 0 40)

/-- STRIDE_EMIT (R204). -/
def execStrideEmit (r : RunId) (s : State) : Host.Outcome State Fault Refusal :=
  atRunnel r s fun s => s.stride r 1 StreamRun.emit

/-- STRIDE_ADD (R204). -/
def execStrideAdd (r : RunId) (s : State) : Host.Outcome State Fault Refusal :=
  atRunnel r s fun s => s.stride r 2 fun w x => ({ x with a := x.a + strideImm w } : StreamRun).goTo (x.pidx + 1)

/-- STRIDE_LOOP (R204). -/
def execStrideLoop (r : RunId) (s : State) : Host.Outcome State Fault Refusal :=
  atRunnel r s fun s => s.stride r 3 StreamRun.doLoop

/-- STRIDE_SETA (R204). -/
def execStrideSeta (r : RunId) (s : State) : Host.Outcome State Fault Refusal :=
  atRunnel r s fun s => s.stride r 4 fun w x =>
    ({ x with a := BitVec.ofNat 48 x.d.tbase + strideImm w } : StreamRun).goTo (x.pidx + 1)

/-- STRIDE_MARK (R204). -/
def execStrideMark (r : RunId) (s : State) : Host.Outcome State Fault Refusal :=
  atRunnel r s fun s => s.stride r 5 fun w x =>
    ({ x with marks := vupd x.marks (strideReg w) fun _ => x.a } : StreamRun).goTo (x.pidx + 1)

/-- STRIDE_BACK (R204). -/
def execStrideBack (r : RunId) (s : State) : Host.Outcome State Fault Refusal :=
  atRunnel r s fun s => s.stride r 6 fun w x =>
    ({ x with a := x.marks[strideReg w] + strideImm w } : StreamRun).goTo (x.pidx + 1)

/-- STRIDE_END (R204). -/
def execStrideEnd (r : RunId) (s : State) : Host.Outcome State Fault Refusal :=
  atRunnel r s fun s => s.stride r 7 fun _ x => { x with ended := true }

/-! ### Bib checks and errors (R206, R212, R215, R337) -/

/-- The block index that a bib must carry (R212). -/
def blockIndex (a base : Nat) : Nat := ((a + 2 ^ 48 - base) % 2 ^ 48) / 4096 % 2 ^ 20

/-- A block of the far side as a Runnel reads it, with the bib it carries: one without a bib gets a new one (R212). -/
def State.farBlock (s : State) (a : Nat) (tag : BitVec 12) (base : Nat) : List Byte × Word :=
  match s.readBlock a with
  | (data, some bib) => (data, bib)
  | (data, none) => (data, mkBib tag (blockIndex a base) (crc32c data))

/-- A bib agrees with its data, a tag and an index (R212, R327). -/
def bibGood (data : List Byte) (bib : Word) (tag : BitVec 12) (idx : Nat) : Bool :=
  crcOk data bib && bibTag bib == tag && (bibIdx bib).toNat == idx

/-- A far address that a Runnel of core k can reach (R27, R197). [DEDUCED: log 49] -/
def State.runnelReach (s : State) (k : CoreId) (a : Nat) : Bool :=
  match s.place a with
  | .hbm => true
  | .basin _ _ => true
  | .cistern _ _ => true
  | .istore o _ => o == k
  | _ => false

/-- A stream stopped by a bib failure (R212, R337, R352): absorbed by a replay with STOPPED, else BIB_FAIL. -/
def State.bibFail (s : State) (r : RunId) (x : StreamRun) (a : Nat) (expected found : BitVec 32) : State :=
  let d := s.dataFault (coreOf r) a expected found (some x.queue)
  if d.1 then (d.2.endStream r x ST_STOPPED a).beginReplay [] .coreFault else d.2.endStream r x ST_BIB_FAIL a

/-- The CRC found where a transfer is corrupted on its way is a free value. [DESIGN CHOICE: log 8] -/
def State.foundCrc (s : State) (data : List Byte) (corrupt : Bool) : BitVec 32 × State :=
  if corrupt then
    let n := s.takeFresh
    ((Config.freeWord n.1).extractLsb' 0 32, n.2)
  else (crc32c data, s)

/-- The blocks of a record (R206). [DEDUCED: log 47] -/
def StreamDesc.record (d : StreamDesc) (v : Nat) : List StreamBlk :=
  (List.range d.recblk).map fun j => ⟨(d.tbase + (v * d.rstride + j) * 4096) % 2 ^ 48, false⟩

/-- An index that has been read taken (R206). -/
def State.takeIndex (s : State) (r : RunId) (x : StreamRun) (v : Nat) : State :=
  if v ≠ 0xFFFFFFFF ∧ (2 ^ 31 ≤ v ∨ x.d.nrec ≤ v) then s.endStream r x ST_BAD_INDEX (x.d.ibase + 4 * x.idx)
  else
    let blks := if v = 0xFFFFFFFF then List.replicate x.d.recblk ⟨0, true⟩ else x.d.record v
    s.updStream r fun x =>
      { x with emitted := x.emitted ++ blks, idx := x.idx + 1, ended := x.idx + 1 == x.d.nidx }

/-- INDEX_READ (R206, R212, R332): the next index, from the block of indices held or from its block fetched anew. -/
def execIndexRead (r : RunId) (f : StreamRead) (s : State) : Host.Outcome State Fault Refusal :=
  atRunnel r s fun s => s.onStream r fun x =>
    if x.d.kind ≠ 1 ∨ x.ended = true ∨ x.stopping = true then s
    else
      let a := (x.d.ibase + 4 * x.idx) % 2 ^ 48
      let blk := a / 4096 * 4096
      match x.idxBlk.filter fun b => b.1 == blk with
      | some b => s.takeIndex r x (leNat ((b.2.drop (a - blk)).take 4))
      | none =>
        if s.runnelReach (coreOf r) blk = false then s.endStream r x ST_UNMAPPED blk
        else if s.dieReaches (dieOf (coreOf r)) blk = false then s
        else s.readSram blk f.upset fun s =>
          let b := s.farBlock blk x.d.itag x.d.ibase
          if !f.corrupt && bibGood b.1 b.2 x.d.itag (blockIndex blk x.d.ibase) then
            let s := s.updStream r fun x => { x with idxBlk := some (blk, b.1), idxRetried := false }
            s.takeIndex r x (leNat ((b.1.drop (a - blk)).take 4))
          else if x.idxRetried then
            let c := s.foundCrc b.1 f.corrupt
            c.2.bibFail r x blk (bibCrc b.2) c.1
          else s.updStream r fun x => { x with idxRetried := true }

/-! ### Tiles (R198, R203, R207) -/

/-- The blocks of the next tile, once they have all been emitted; the last tile may hold fewer. -/
def StreamRun.nextBlks (x : StreamRun) : Option (List StreamBlk) :=
  if x.emitted.isEmpty then none
  else if x.d.tileblk ≤ x.emitted.length ∨ x.ended = true ∨ x.halt.isSome = true then some (x.emitted.take x.d.tileblk)
  else none

/-- The device address of a block of a tile in local memory (R203). -/
def StreamDesc.localAddr (d : StreamDesc) (k : CoreId) (n i : Nat) : Nat :=
  let base := if d.loc = 0 then basinBase k else if d.loc = 1 then cisternBase k else istoreBase k
  let slot := if d.loc = 2 then n else n % d.depth
  base + d.rbase + (slot * d.tileblk + i) * 4096

/-- A tile is a transfer outstanding (R198): inbound from its first request to its last landing, outbound from its first read to its last
acknowledgement. -/
def StreamTile.moving (t : StreamTile) (dir : Bool) : Bool :=
  if dir then t.st == .draining || (t.st == .drained && !t.acked) else t.st == .filling && t.landed.length < t.blks.length

/-- Transfers outstanding (R198). -/
def StreamRun.outstanding (x : StreamRun) : Nat := (x.tiles.filter fun t => t.moving x.d.dir).length

/-- The next tile taken from the blocks emitted. -/
def StreamRun.addTile (x : StreamRun) (t : StreamTile) : StreamRun :=
  { x with emitted := x.emitted.drop x.d.tileblk, next := x.next + 1, tiles := x.tiles ++ [t] }

/-- One tile of a stream changed. -/
def StreamRun.updTile (x : StreamRun) (n : Nat) (f : StreamTile → StreamTile) : StreamRun :=
  { x with tiles := x.tiles.map fun t => if t.n = n then f t else t }

/-- Local blocks of skipped records written with zeros and valid bibs whose `BIDX` is a free value (R206). [DEDUCED: log 48]
-/
def State.zeroSkips (s : State) (k : CoreId) (d : StreamDesc) (n : Nat) (blks : List StreamBlk) : State :=
  (blks.mapIdx fun i b => (i, b.skip)).foldl (fun s e =>
    if e.2 then
      let f := s.takeFresh
      f.2.writeBlock (d.localAddr k n e.1) (List.replicate 4096 0)
        (mkBib d.ttag ((Config.freeWord f.1).toNat % 2 ^ 20) zeroCrc) .other
    else s) s

/-- The failing address of block `i` of tile `n`, where it cannot be moved: its far address is unmapped, or it would lie beyond the
instruction store (R203, R215). -/
def State.blockFails (s : State) (k : CoreId) (d : StreamDesc) (n i : Nat) (b : StreamBlk) : Option Nat :=
  if d.loc = 2 ∧ 0x80 ≤ d.rbase / 4096 + n * d.tileblk + i then some (d.localAddr k n i)
  else if !b.skip && !s.runnelReach k b.addr then some b.addr
  else none

/-- The first block of a tile that cannot be moved: its place and failing address. [DEDUCED: log 49] -/
def State.firstFail (s : State) (k : CoreId) (d : StreamDesc) (n : Nat) (blks : List StreamBlk) : Option (Nat × Nat) :=
  (blks.mapIdx fun i b => (i, s.blockFails k d n i b)).findSome? fun e => e.2.map fun a => (e.1, a)

/-- A block that cannot be moved ends the stream with UNMAPPED once the blocks before it have been moved; no counter is raised from then
on (R203, R215). [DEDUCED: log 49] -/
def StreamRun.cut (x : StreamRun) (fail : Option (Nat × Nat)) : StreamRun :=
  match fail with
  | some e => { x with emitted := [], ended := true, halt := some (ST_UNMAPPED, e.2) }
  | none => x

/-- A stream that a block has ended with UNMAPPED. -/
def StreamRun.failed (x : StreamRun) : Bool := (x.halt.map (·.1)) == some ST_UNMAPPED

/-- The other Runnel of a core, which shares its port. -/
def siblingOf (r : RunId) : RunId := ⟨2 * (r.val / 2) + (1 - r.val % 2), by omega⟩

/-- An outbound tile on its way. -/
def StreamTile.onWay (t : StreamTile) : Bool := (t.st == .draining || t.st == .drained) && !t.acked

/-- The places of a Runnel's transfers that are under way. [DESIGN CHOICE: log 31] -/
def State.stamps (s : State) (r : RunId) : List Nat :=
  match s.stream r with
  | some x => x.reqs.map (fun q => q.2.2) ++ (x.tiles.filter StreamTile.onWay).map fun t => t.stamp
  | none => []

/-- The place of the next transfer of a Runnel: behind every one of its core that is under way (R16). [DESIGN CHOICE: log 31]
-/
def State.nextStamp (s : State) (r : RunId) : Nat := (s.stamps r ++ s.stamps (siblingOf r)).foldl max 0 + 1

/-- An inbound tile's requests issue, block by block up to the first that fails (R203, R206, R207, R215); a running core's
instruction store
is found before the first block. [DEDUCED: log 48, 49] [DESIGN CHOICE: log 103] -/
def State.fillTile (s : State) (r : RunId) (x : StreamRun) (blks : List StreamBlk) : State :=
  let k := coreOf r
  if x.d.loc = 2 ∧ (s.core k).isStopped = false then s.endStream r x ST_ISTORE_BUSY ((blks.map (·.addr)).headD 0)
  else
    let fail := s.firstFail k x.d x.next blks
    let fit := match fail with
      | some e => blks.take e.1
      | none => blks
    let t : StreamTile :=
      ⟨x.next, fit, .filling, (fit.mapIdx fun i b => (i, b.skip)).filterMap fun e => if e.2 then some e.1 else none, [], [], false, 0⟩
    let stamp := s.nextStamp r
    let s := s.zeroSkips k x.d x.next fit
    s.updStream r fun x =>
      let y := if fit.isEmpty then x else x.addTile t
      ({ y with
        reqs := y.reqs ++ (fit.mapIdx fun i b => (i, b.skip)).filterMap fun e => if e.2 then none else some (t.n, e.1, stamp) }
        : StreamRun).cut fail

/-- TILE_FILL_START (R207). -/
def execTileFillStart (r : RunId) (s : State) : Host.Outcome State Fault Refusal :=
  atRunnel r s fun s => s.onStream r fun x =>
    match x.nextBlks with
    | none => s
    | some blks =>
      let room := decide (x.next < x.d.depth) || x.d.loc == 2 ||
        s.advanced (coreOf r) x.d.donectr x.d0 (x.next - x.d.depth + 1)
      if x.d.dir ∨ x.stopping = true ∨ 6 ≤ x.outstanding ∨ room = false then s else s.fillTile r x blks

/-- An inbound block lands in local memory (R203, R212). [DEDUCED: log 48, 49] [DESIGN CHOICE: log 103] -/
def State.landBlock (s : State) (r : RunId) (x : StreamRun) (n i : Nat) (data : List Byte) (bib : Word) : State :=
  let k := coreOf r
  if x.d.loc = 2 ∧ (s.core k).isStopped = false then s.endStream r x ST_ISTORE_BUSY (istoreBase k + x.d.rbase)
  else
    (s.writeBlock (x.d.localAddr k n i) data bib .other).updStream r fun x =>
      { (x.updTile n fun t => { t with landed := t.landed ++ [i] }) with reqs := x.reqs.filter fun q => q.1 != n || q.2.1 != i }

/-- The port at which a block comes that a stream has requested. -/
def State.reqPort (s : State) (r : RunId) (x : StreamRun) (q : Nat × Nat × Nat) : Nat :=
  s.netPort (dieOf (coreOf r)) (((x.tiles.find? fun t => t.n == q.1).bind fun t => (t.blks[q.2.1]?).map (·.addr)).getD 0)

/-- A block that a stream has requested comes before every other one of its source port, those of its core's other Runnel among them
(R16), and its source can be reached (R14). [DESIGN CHOICE: log 31] -/
def State.inOrder (s : State) (r : RunId) (x : StreamRun) (tile blk : Nat) (a : Nat) : Bool :=
  let d := dieOf (coreOf r)
  let port := s.netPort d a
  s.dieReaches d a &&
    (match x.reqs.find? fun q => s.reqPort r x q == port with
     | some q => q.1 == tile && q.2.1 == blk &&
        (match s.stream (siblingOf r) with
         | some y => y.reqs.all fun p => s.reqPort (siblingOf r) y p != port || decide (q.2.2 ≤ p.2.2)
         | none => true)
     | none => false)

/-- STREAM_BLOCK_ARRIVAL (R16, R212, R332): block `blk` of tile `tile` arrives, as its source holds it or corrupted on its way; the SRAM of
another core may hold an upset in it. -/
def execStreamBlockArrival (r : RunId) (tile blk : Nat) (g : StreamRead) (s : State) :
    Host.Outcome State Fault Refusal :=
  atRunnel r s fun s => s.onStream r fun x =>
    match x.tiles.find? fun t => t.n == tile && t.st == .filling && !t.landed.contains blk with
    | none => s
    | some t =>
      match t.blks[blk]? with
      | none => s
      | some b =>
        if s.inOrder r x tile blk b.addr = false then s
        else s.readSram b.addr g.upset fun s =>
          let f := s.farBlock b.addr x.d.ttag x.d.tbase
          if !g.corrupt && bibGood f.1 f.2 x.d.ttag (blockIndex b.addr x.d.tbase) then s.landBlock r x tile blk f.1 f.2
          else if t.retried.contains blk then
            let c := s.foundCrc f.1 g.corrupt
            c.2.bibFail r x b.addr (bibCrc f.2) c.1
          else s.updStream r fun y =>
            { (y.updTile tile fun t => { t with retried := t.retried ++ [blk] }) with
              reqs := (y.reqs.filter fun q => q.1 != tile || q.2.1 != blk) ++ [(tile, blk, s.nextStamp r)] }

/-- TILE_READY (R207): the oldest tile that fills, when all its blocks have landed. -/
def execTileReady (r : RunId) (s : State) : Host.Outcome State Fault Refusal :=
  atRunnel r s fun s => s.onStream r fun x =>
    match x.tiles.find? fun t => t.st == .filling with
    | none => s
    | some t =>
      if t.landed.length < t.blks.length then s
      else
        let counts := if x.failed then 0 else 1
        let s := s.updStream r fun x =>
          if x.d.loc = 2 then { x with tiles := x.tiles.filter fun u => u.n != t.n, complete := x.complete + counts }
          else { (x.updTile t.n fun t => { t with st := .ready }) with complete := x.complete + counts }
        if x.d.loc = 2 ∨ x.failed = true then s else s.raiseOwn (coreOf r) x.d.rdyctr

/-- OUTBOUND_TILE_READY (R207): the next tile, when its buffer is free and the program has raised `RDYCTR` for it. -/
def execOutboundTileReady (r : RunId) (s : State) : Host.Outcome State Fault Refusal :=
  atRunnel r s fun s => s.onStream r fun x =>
    match x.nextBlks with
    | none => s
    | some blks =>
      let used := (x.tiles.filter fun t => t.st != .drained).length
      if x.d.dir = false ∨ x.stopping = true ∨ x.d.depth ≤ used ∨ s.advanced (coreOf r) x.d.rdyctr x.r0 (x.next + 1) = false then s
      else s.updStream r fun x => x.addTile ⟨x.next, blks, .ready, [], [], [], false, 0⟩

/-- A block read out of local memory (R212): its data, its bib, and whether its check fails. -/
def State.readOut (s : State) (k : CoreId) (d : StreamDesc) (n i : Nat) (b : StreamBlk) : List Byte × Word × Bool :=
  let r := s.readBlock (d.localAddr k n i)
  match r.2 with
  | some bib => (r.1, bib, !bibGood r.1 bib d.ttag (blockIndex b.addr d.tbase))
  | none => (r.1, mkBib d.ttag (blockIndex b.addr d.tbase) (crc32c r.1), false)

/-- A tile read out up to the block that fails, if one does, with its blocks as read; tiles that have not been read out are given up
then (R207, R215). -/
def StreamRun.readTile (x : StreamRun) (n stamp : Nat) (fail : Option (Nat × Nat)) (blks : List StreamBlk)
    (out : List (List Byte × Word)) : StreamRun :=
  let y := (x.updTile n fun t => { t with st := .draining, blks := blks, out := out, stamp := stamp }).cut fail
  if fail.isSome then
    { y with tiles := y.tiles.filter fun t => t.st != .ready && (t.n != n || !blks.isEmpty) }
  else y

/-- An outbound tile is read out (R206, R207, R212, R215): a block that fails its check stops the stream, one whose address
is unmapped
ends it behind the blocks before it. [DEDUCED: log 48, 49] [DESIGN CHOICE: log 103] -/
def State.drainTile (s : State) (r : RunId) (x : StreamRun) (t : StreamTile) (corrupt : Bool) : State :=
  let k := coreOf r
  let fail := s.firstFail k x.d t.n t.blks
  let busy (b : StreamBlk) : Bool := !b.skip && s.istoreBusy b.addr
  let blks := match fail with
    | some e => t.blks.take e.1
    | none => t.blks
  if x.d.peeren = true ∧ s.coreCount ≤ x.d.plcore.val then
    s.endStream r x ST_UNMAPPED ((t.blks.map (·.addr)).headD 0)
  else if blks.any busy then s.endStream r x ST_ISTORE_BUSY ((t.blks.map (·.addr)).headD 0)
  else
    let out := (blks.mapIdx fun i b => (i, b, s.readOut k x.d t.n i b)).filter fun e => !e.2.1.skip
    let marked := out.find? fun e => (s.readBlock (x.d.localAddr k t.n e.1)).2.isSome
    match out.find? fun e => e.2.2.2.2 with
    | some e => s.bibFail r x (x.d.localAddr k t.n e.1) (bibCrc e.2.2.2.1) (crc32c e.2.2.1)
    | none =>
      match if corrupt then marked else none with
      | some e =>
        let f := s.foundCrc [] true
        f.2.bibFail r x (x.d.localAddr k t.n e.1) (bibCrc e.2.2.2.1) f.1
      | none =>
        let stamp := s.nextStamp r
        s.updStream r fun x => x.readTile t.n stamp fail blks (out.map fun e => (e.2.2.1, e.2.2.2.1))

/-- TILE_DRAIN_START (R207, R332): the oldest READY tile of an outbound stream, and what the code finds in the SRAM it is
read from. [DEDUCED: log 48] -/
def execTileDrainStart (r : RunId) (f : StreamRead) (s : State) : Host.Outcome State Fault Refusal :=
  atRunnel r s fun s => s.onStream r fun x =>
    match x.tiles.find? fun t => t.st == .ready with
    | none => s
    | some t => if x.d.dir = false ∨ x.stopping = true ∨ 6 ≤ x.outstanding then s
      else s.readThrough (coreOf r) f.upset (fun s => s.drainTile r x t f.corrupt) id

/-- TILE_DRAINED (R207): the oldest tile that drains has been read out. -/
def execTileDrained (r : RunId) (s : State) : Host.Outcome State Fault Refusal :=
  atRunnel r s fun s => s.onStream r fun x =>
    match x.tiles.find? fun t => t.st == .draining with
    | none => s
    | some t =>
      let s := s.updStream r fun x => x.updTile t.n fun t => { t with st := .drained }
      if x.failed then s else s.raiseOwn (coreOf r) x.d.donectr

/-- The ports at which a tile's blocks arrive. -/
def State.tilePorts (s : State) (d : DieId) (t : StreamTile) : List Nat :=
  (t.blks.filter fun b => !b.skip).map fun b => s.netPort d b.addr

/-- A tile on its way can arrive: every earlier tile of its core's Runnels that is still on its way goes to other ports (R16), and its way
is open (R14). [DESIGN CHOICE: log 31] -/
def State.canArrive (s : State) (r : RunId) (x : StreamRun) (t : StreamTile) : Bool :=
  let d := dieOf (coreOf r)
  let ports := s.tilePorts d t
  let others := match s.stream (siblingOf r) with
    | some y => y.tiles.filter fun u => u.onWay && decide (u.stamp < t.stamp)
    | none => []
  (t.blks.all fun b => b.skip || s.dieReaches d b.addr) &&
    ((x.tiles.filter fun u => decide (u.n < t.n) && !u.acked) ++ others).all fun u =>
      (s.tilePorts d u).all fun p => !ports.contains p

/-- Tiles delivered, in tile order, each with its raise of `PCTR` (R207). -/
def State.passTiles (s : State) (r : RunId) : Nat → State
  | 0 => s
  | n + 1 =>
    match s.stream r with
    | none => s
    | some x =>
      match x.tiles with
      | [] => s
      | t :: rest =>
        if t.acked then
          let s := s.updStream r fun x => { x with tiles := rest, complete := if x.failed then x.complete else x.complete + 1 }
          (if x.d.peeren = true ∧ x.failed = false then s.sendCtr ⟨x.d.plcore, 70000 + r.val, x.d.pctr, 1, false⟩ else s).passTiles r n
        else s

/-- The blocks of a tile stored at their destination, up to one in the instruction store of a running core (R29): whether all were. A
block found bad at the hub on its way to another die is stored with its `CRC` inverted (R327). -/
def State.storeTile (s : State) (r : RunId) (bad : List Nat) (t : StreamTile) : State × Option Nat :=
  let d := dieOf (coreOf r)
  let sent := (t.blks.mapIdx fun i b => (i, b)).filter fun e => !e.2.skip
  (sent.zip t.out).foldl (fun (s : State × Option Nat) e =>
    let a := e.1.2.addr
    if s.2.isSome then s
    else if s.1.istoreBusy a then (s.1, some a)
    else
      let bib := if bad.contains e.1.1 ∧ s.1.dieAt a ≠ some d then invertCrc e.2.2 else e.2.2
      (s.1.writeBlock a e.2.1 bib (.core (coreOf r)), none)) (s, none)

/-- TILE_DELIVERED (R29, R207, R213, R327): every block of a tile is acknowledged at its destination; some were found bad at the hub on their
way. Tiles are handed over in order. [DEDUCED: log 48] -/
def execTileDelivered (t : TileArrival) (s : State) : Host.Outcome State Fault Refusal :=
  let r := t.run
  let tile := t.tile
  let bad := t.bad
  atRunnel r s fun s => s.onStream r fun x =>
    match x.tiles.find? fun t => t.n == tile && t.st == .drained && !t.acked with
    | none => s
    | some t =>
      if s.canArrive r x t = false then s
      else
        let w := s.storeTile r bad t
        match w.2 with
        | some a => w.1.endStream r x ST_ISTORE_BUSY a
        | none => (w.1.updStream r fun x => x.updTile tile fun t => { t with acked := true }).passTiles r x.tiles.length

/-- Every transfer of a stream has completed: inbound no tile fills, outbound none is on its way. -/
def StreamRun.settled (x : StreamRun) : Bool :=
  if x.d.dir then x.tiles.all fun t => t.st == .ready && x.stopping else x.tiles.all fun t => t.st == .ready

/-- Every block has been moved and, inbound, every buffer released (R213). [DEDUCED: log 79] -/
def State.streamDone (s : State) (r : RunId) (x : StreamRun) : Bool :=
  x.ended && x.halt.isNone && x.emitted.isEmpty && x.settled && (!x.d.dir || x.tiles.isEmpty) &&
    (x.d.dir || x.d.loc == 2 || s.advanced (coreOf r) x.d.donectr x.d0 x.next)

/-- STREAM_COMPLETE (R205, R213, R215, R258). -/
def execStreamComplete (r : RunId) (s : State) : Host.Outcome State Fault Refusal :=
  atRunnel r s fun s => s.onStream r fun x =>
    if s.streamDone r x then (s.raiseOwn (coreOf r) x.d.endctr).endStream r x ST_OK 0
    else if x.settled = false then s
    else
      match x.halt with
      | some h => if x.emitted.isEmpty then s.endStream r x h.1 h.2 else if x.stopping then s.endStream r x ST_STOPPED 0 else s
      | none => if x.stopping then s.endStream r x ST_STOPPED 0 else s

/-! ### `RUN_STAT` (R216) -/

/-- Ring buffers that are not FREE (Table: Buffer states); a stream into an instruction store has no ring (R203). -/
def State.bufUse (s : State) (r : RunId) (x : StreamRun) : Nat :=
  if x.d.dir then (x.tiles.filter fun t => t.st == .ready || t.st == .draining).length
  else if x.d.loc = 2 then 0
  else ((List.range (min x.next 8)).filter fun i => !s.advanced (coreOf r) x.d.donectr x.d0 (x.next - i)).length

/-- Far slot accesses in service on a Runnel. -/
def State.farOut (s : State) (r : RunId) : Nat :=
  ((s.core (coreOf r)).far.filter fun f => f.served.any fun b => !b.fin && b.on.val == r.val % 2).length

/-- `RSTATE`: an outbound stream whose tiles have all been read out awaits acknowledgements. -/
def Runnel.rstate (y : Runnel) : Nat :=
  match y.run with
  | none => if y.errored then 3 else 0
  | some x =>
    if x.d.dir && x.ended && x.emitted.isEmpty && !x.tiles.isEmpty && x.tiles.all fun t => t.st == .drained then 2 else 1

/-- `RUN_STAT` of a Runnel (Table: RUN_STAT). -/
def State.runStat (s : State) (r : RunId) : Word :=
  let y := s.runnels[r]
  let (tiles, outst, buf, pidx) := match y.run with
    | some x => (x.complete % 2 ^ 16, x.outstanding, s.bufUse r x, x.pidx)
    | none => (y.tiles.toNat, 0, 0, y.pidx.toNat)
  BitVec.ofNat 64 (tiles <<< 48 + outst <<< 36 + s.farOut r <<< 30 + buf <<< 26 + y.rstate <<< 24 + pidx)

end Sys2Proof.Machine
end

