-- ==== Sys2Proof/Machine/Baton.lean ====
section
/-! DEFINITION. Baton (R274-R292, R298-R300, R308-R315, R344): locators, handshakes, blocks on their way out and in, the ends of halves
and commands, and the gates of a twin pair. -/

namespace Sys2Proof.Machine

/-! ### The torus (R280) -/

/-- The size of an axis. -/
def Group.axis (g : Group) (a : Nat) : Nat := (g.axm.toList.getD a 0).toNat + 1

/-- Ranks of a group. -/
def Group.ranks (g : Group) : Nat := g.nrankm1.toNat + 1

/-- The rank whose coordinate on axis `a` is `d` further. -/
def Group.neighbour (g : Group) (rank a d : Nat) : Nat :=
  let stride := (List.range a).foldl (fun n i => n * g.axis i) 1
  let z := g.axis a
  let x := rank / stride % z
  rank - x * stride + (x + d) % z * stride

/-- This module is in backup role, and a rank has a backup that counts (R309, R310). [DEDUCED: log 52] -/
def State.hasBackup (s : State) (g : Group) (rank : Nat) : Bool :=
  g.grace != 0 && (s.memberOf g rank).backup != noEp

/-! ### Locators (R281) -/

/-- The status and result that end a command before it moves anything. -/
abbrev BatonErr := Byte × BitVec 384

/-- UNMAPPED with the first unmapped address (R28, R281). [DESIGN CHOICE: log 89] -/
def batonUnmapped (a : Nat) : BatonErr := (ST_UNMAPPED, BitVec.ofNat 384 (a <<< 240))

/-- The blocks and the tag that a locator names for a range of `n` blocks, or the status that ends the command. In handle
mode the tensor
descriptor is judged whole (R34, R46, R47, R266, R281). [DEDUCED: log 34] [DESIGN CHOICE: log 111] -/
def State.locate (s : State) (loc n : Nat) : BatonErr ⊕ (List XBlk × BitVec 12) :=
  let w : BitVec 96 := BitVec.ofNat 96 loc
  let bidx := fld w 60 32
  let addr := fld w 0 48
  if fld w 92 3 ≠ 0 then .inl (ST_BAD_CMD, 0)
  else if w.getLsbD 95 then
    if bidx / 2 ^ 20 ≠ 0 ∨ addr % 4096 ≠ 0 then .inl (ST_BAD_CMD, 0)
    else
      let l : List XBlk := (List.range n).map fun j => ⟨addr + 4096 * j, (bidx + j) % 2 ^ 20⟩
      let ok (b : XBlk) : Bool := match s.place b.addr with
        | .hbm => true
        | .basin _ _ => true
        | .cistern _ _ => true
        | _ => false
      match l.find? fun b => !ok b with
      | none => .inr (l, w.extractLsb' 48 12)
      | some b => .inl (batonUnmapped b.addr)
  else if fld w 48 12 ≠ 0 ∨ addr % 64 ≠ 0 then .inl (ST_BAD_CMD, 0)
  else if (s.place addr).isMem = false then .inl (batonUnmapped addr)
  else
    match s.descJudge (BitVec.ofNat 512 (s.rdDevNat addr 64)), s.handle (BitVec.ofNat 32 (s.rdDevNat addr 4)) with
    | some st, _ => .inl (st, 0)
    | none, none => .inl (ST_BAD_HANDLE, 0)
    | none, some r =>
      if r.blocks < bidx + n then .inl (ST_BAD_CMD, 0)
      else .inr ((List.range n).map fun j => ⟨4096 * (r.first + bidx + j), (bidx + j) % 2 ^ 20⟩, r.tag)

/-- The first failure among judgements, or their results in order. -/
def allOf {α : Type} : List (BatonErr ⊕ α) → BatonErr ⊕ List α
  | [] => .inr []
  | .inl e :: _ => .inl e
  | .inr a :: l => match allOf l with
    | .inl e => .inl e
    | .inr r => .inr (a :: r)

/-! ### Commands as they start (R284, R288-R292, R299) -/

/-- A half or an entry before anything has moved. -/
def mkXfer (send : Bool) (peer : Nat) (key : XferKey) (r : List XBlk × BitVec 12) (me : BitVec 16) : Xfer :=
  { send := send, peer := BitVec.ofNat 16 peer, key := key, blks := r.1, tag := r.2, own := BitVec.ofNat 16 peer == me,
    accM := false, accB := false, sent := [], ackM := [], ackB := [], refd := [], hsM := false, hsB := false, srcM := (0, []),
    srcB := (0, []), landed := [], retried := [], raises := 0, released := [], wanted := [], silM := false, silB := false,
    asked := false, recent := [], run := (0, 0) }

/-- The counter operands of a command whose enables and fields stand at two places. -/
def batonCounters (c : BitVec 512) (sc rc : Nat) : Bool × BitVec 6 × CoreId × Bool × BitVec 6 × CoreId :=
  let core (lo : Nat) : CoreId := ⟨opf c (lo - 6) 6 % 64, by omega⟩
  (opf c sc 1 == 1, BitVec.ofNat 6 (opf c (sc - 12) 6), core sc, opf c rc 1 == 1, BitVec.ofNat 6 (opf c (rc - 12) 6), core rc)

/-- A counter of a command names an absent core (R286). -/
def State.counterAbsent (s : State) (k : Bool × BitVec 6 × CoreId × Bool × BitVec 6 × CoreId) : Bool :=
  (k.1 && decide (s.coreCount ≤ k.2.2.1.val)) || (k.2.2.2.1 && decide (s.coreCount ≤ k.2.2.2.2.2.val))

/-- A command about to run. -/
def State.batonCmd (s : State) (q opc : Nat) (g : Group) (group : Nat) (tag : Nat) (vc unitLen : Nat)
    (k : Bool × BitVec 6 × CoreId × Bool × BitVec 6 × CoreId) (xfers : List Xfer) (permi : Option PermiState) : BatonCmd :=
  { queue := q, opc := opc, group := BitVec.ofNat 12 group, tag := BitVec.ofNat 16 tag, vc := ⟨vc % 8, by omega⟩,
    unitLen := unitLen, scen := k.1, sctr := k.2.1, slcore := k.2.2.1, rcen := k.2.2.2.1, rctr := k.2.2.2.2.1,
    rlcore := k.2.2.2.2.2, backup := s.inBackup g, xfers := xfers, permi := permi, refusals := 0, taken := 0, differed := 0,
    sRaised := false, rRaised := false, stopping := false }

/-- SHIFT's operands judged (R284, R299). -/
def State.readShift (s : State) (q : Nat) (c : BitVec 512) : BatonErr ⊕ BatonCmd :=
  let gn := opf c 280 12
  let g := s.group (BitVec.ofNat 12 gn)
  let dist := opf c 296 16
  let axis := opf c 292 2
  let n := opf c 192 32
  let halves := opf c 258 2
  let dir := opf c 294 1 == 1
  let k := batonCounters c 257 244
  if g.valid = false ∨ g.naxm1.toNat < axis ∨ dist = 0 ∨ n = 0 ∨ 2 ^ 24 < n ∨ halves = 0 then .inl (ST_BAD_CMD, 0)
  else if s.counterAbsent k then .inl (ST_ABSENT_ENGINE, 0)
  else
    let z := g.axis axis
    let me := g.myrank.toNat
    let fwd := g.neighbour me axis dist
    let back := g.neighbour me axis (z - dist % z)
    let key : XferKey := .shift (BitVec.ofNat 2 axis) dir (BitVec.ofNat 16 dist)
    let half (send : Bool) (loc peer : Nat) : BatonErr ⊕ Xfer := match s.locate loc n with
      | .inl e => .inl e
      | .inr r => .inr (mkXfer send peer key r g.myrank)
    let l := (if halves % 2 = 1 then [half true (opf c 0 96) (if dir then back else fwd)] else []) ++
      (if 2 ≤ halves then [half false (opf c 96 96) (if dir then fwd else back)] else [])
    match allOf l with
    | .inl e => .inl e
    | .inr xs => .inr (s.batonCmd q 0x20 g gn (opf c 264 16) (opf c 260 3) (opf c 224 8) k xs none)

/-- One entry of a PERMT table judged (R289, R299). -/
def State.readEntry (s : State) (g : Group) (e : BitVec 256) : BatonErr ⊕ Xfer :=
  let n := fld e 0 32
  let peer := fld e 32 16
  if fld e 160 96 ≠ 0 ∨ fld e 49 15 ≠ 0 ∨ g.nrankm1.toNat < peer ∨ n = 0 ∨ 2 ^ 24 < n then .inl (ST_BAD_CMD, 0)
  else match s.locate (fld e 64 96) n with
    | .inl st => .inl st
    | .inr r => .inr (mkXfer (!e.getLsbD 48) peer (.perm 0) r g.myrank)

/-- Entries with their places among those of one direction and peer, in table order (R289). -/
def numberEntries : List Xfer → List Xfer → List Xfer
  | _, [] => []
  | before, x :: l =>
    let n := (before.filter fun y => y.send == x.send && y.peer == x.peer).length
    { x with key := .perm n } :: numberEntries (before ++ [x]) l

/-- Bytes of a range, from its first block on. -/
def State.rangeNat (s : State) (l : List XBlk) (off n : Nat) : Nat := s.rdDevNat ((l.headD ⟨0, 0⟩).addr + off) n

/-- Blocks that hold `n` bytes. -/
def blocksFor (n : Nat) : Nat := (n + 4095) / 4096

/-- PERMI's parameters judged, with its destinations read (R290, R291). -/
def State.readPermi (s : State) (g : Group) (p : BitVec 1024) : BatonErr ⊕ PermiState :=
  let rb := fld p 544 8
  let nrow := fld p 480 32
  let dcap := fld p 512 32
  match allOf [s.locate (fld p 0 96) (rb * nrow), s.locate (fld p 96 96) (rb * dcap), s.locate (fld p 192 96) (blocksFor (4 * nrow)),
      s.locate (fld p 288 96) (blocksFor (8 * nrow)), s.locate (fld p 384 96) (blocksFor (4 * g.ranks))] with
  | .inr [src, dst, idx, route, cnt] =>
    let dest := (List.range nrow).map fun i => s.rangeNat idx.1 (4 * i) 4
    if dest.any fun v => v != 0xFFFFFFFF && decide (g.nrankm1.toNat < v) then .inl (ST_BAD_INDEX, 0)
    else .inr ⟨dest, [], [], false, false, rb, dcap, src.1, src.2, dst.1, dst.2, cnt.1, cnt.2, route.1, route.2, 0⟩
  | .inl e => .inl e
  | _ => .inl (ST_BAD_CMD, 0)

/-- The blocks of rows of a range, in the order of the rows. -/
def rowBlks (l : List XBlk) (rb : Nat) (rows : List Nat) : List XBlk :=
  rows.flatMap fun i => (l.drop (rb * i)).take rb

/-- A row put into a list of (position, row) that rises by position. -/
def insertPos (x : Nat × Nat) : List (Nat × Nat) → List (Nat × Nat)
  | [] => [x]
  | y :: l => if x.1 ≤ y.1 then x :: y :: l else y :: insertPos x l

/-- PERMR's parameters judged (R292): its transfers with every rank, of no rows too, so that each handshake tells the sender's run; and the
rows that return as zeros. [DEDUCED: log 51] -/
def State.readPermr (s : State) (g : Group) (p : BitVec 1024) : BatonErr ⊕ (List Xfer × List XBlk × BitVec 12 × Nat) :=
  let rb := fld p 544 8
  let nrow := fld p 480 32
  match s.locate (fld p 384 96) (blocksFor (4 * g.ranks)) with
  | .inl e => .inl e
  | .inr cnt =>
    let counts := (List.range g.ranks).map fun r => s.rangeNat cnt.1 (4 * r) 4
    let total := counts.foldl (fun a b => a + b) 0
    match allOf [s.locate (fld p 0 96) (rb * total), s.locate (fld p 96 96) (rb * nrow), s.locate (fld p 192 96) (blocksFor (8 * nrow))] with
    | .inr [src, dst, route] =>
      let recs := (List.range nrow).map fun i => (i, s.rangeNat route.1 (8 * i) 4, s.rangeNat route.1 (8 * i + 4) 4)
      let none_ (r : Nat × Nat × Nat) : Bool := r.2.1 == 0xFFFFFFFF || r.2.2 == 0xFFFFFFFF
      let mine (d : Nat) : List (Nat × Nat) :=
        (recs.filter fun r => !none_ r && r.2.1 == d).foldl (fun l r => insertPos (r.2.2, r.1) l) []
      if recs.any fun r => !none_ r && decide (g.nrankm1.toNat < r.2.1) then .inl (ST_BAD_INDEX, 0)
      else
        let first (r : Nat) : Nat := (counts.take r).foldl (fun a b => a + b) 0
        let sends := (List.range g.ranks).map fun r =>
          let n := counts.getD r 0
          { mkXfer true r (.perm 0) (rowBlks src.1 rb ((List.range n).map fun i => first r + i), src.2) g.myrank with
            run := (first r, first r + n) }
        let recvs := (List.range g.ranks).map fun d =>
          let l := mine d
          { mkXfer false d (.perm 0) (rowBlks dst.1 rb (l.map (·.2)), dst.2) g.myrank with
            run := match l with
              | [] => (0, 0)
              | x :: _ => (x.1, l.foldl (fun m y => max m (y.1 + 1)) 0) }
        .inr (sends ++ recvs, rowBlks dst.1 rb ((recs.filter none_).map (·.1)), dst.2, rb)
    | .inl e => .inl e
    | _ => .inl (ST_BAD_CMD, 0)

/-- The shared judgement of a permutation (R288, R299): its group and counters. -/
def State.readPerm (s : State) (q opc : Nat) (c : BitVec 512) (k : Group → BitVec 48 → Nat → BatonErr ⊕ (List Xfer × Option PermiState)) :
    BatonErr ⊕ BatonCmd :=
  let gn := opf c 68 12
  let g := s.group (BitVec.ofNat 12 gn)
  let a := opf c 0 48
  let n := opf c 48 20
  let ks := batonCounters c 125 112
  if g.valid = false ∨ a % 64 ≠ 0 ∨ (opc = 0x21) ≠ (n ≠ 0) then .inl (ST_BAD_CMD, 0)
  else if s.counterAbsent ks then .inl (ST_ABSENT_ENGINE, 0)
  else
    match (List.range ((if opc = 0x21 then 32 * n else 128) / 32)).find? (fun i => !(s.place (a + 32 * i)).isMem),
      k g (BitVec.ofNat 48 a) n with
    | some i, _ => .inl (batonUnmapped (a + 32 * i))
    | none, .inl e => .inl e
    | none, .inr r => .inr (s.batonCmd q opc g gn (opf c 80 16) (opf c 96 3) 0 ks r.1 r.2)

/-- PERMT's operands judged. [DEDUCED: log 51] -/
def State.readPermt (s : State) (q : Nat) (c : BitVec 512) : BatonErr ⊕ BatonCmd :=
  s.readPerm q 0x21 c fun g a n =>
    match allOf ((List.range n).map fun i => s.readEntry g (BitVec.ofNat 256 (s.rdDevNat (a.toNat + 32 * i) 32))) with
    | .inl e => .inl e
    | .inr l => .inr (numberEntries [] l, none)

/-- A parameter block with a reserved field that is not 0, or `ROWBLK` or what PERMR leaves unused out of range (R290, R299). -/
def badParams (p : BitVec 1024) (reverse : Bool) : Bool :=
  fld p 552 472 != 0 || fld p 544 8 == 0 || (reverse && (fld p 512 32 != 0 || fld p 288 96 != 0))

/-- PERMI's operands judged, with its parameter block. -/
def State.readPermiCmd (s : State) (q : Nat) (c : BitVec 512) : BatonErr ⊕ BatonCmd :=
  s.readPerm q 0x22 c fun g a _ =>
    let p : BitVec 1024 := BitVec.ofNat 1024 (s.rdDevNat a.toNat 128)
    if badParams p false then .inl (ST_BAD_CMD, 0)
    else match s.readPermi g p with
      | .inl e => .inl e
      | .inr x => .inr ([], some x)

/-- What PERMR's parameter block at an address says. -/
def State.permrAt (s : State) (g : Group) (a : BitVec 48) : BatonErr ⊕ (List Xfer × List XBlk × BitVec 12 × Nat) :=
  let p : BitVec 1024 := BitVec.ofNat 1024 (s.rdDevNat a.toNat 128)
  if badParams p true then .inl (ST_BAD_CMD, 0) else s.readPermr g p

/-- PERMR's operands judged, with its parameter block. -/
def State.readPermrCmd (s : State) (q : Nat) (c : BitVec 512) : BatonErr ⊕ BatonCmd :=
  s.readPerm q 0x23 c fun g a _ =>
    match s.permrAt g a with
    | .inl e => .inl e
    | .inr x => .inr (x.1, some ⟨[], [], [], true, true, x.2.2.2, 0, [], 0, [], 0, [], 0, [], 0, 0⟩)

/-- The command of a Baton queue as its operands name it. -/
def State.readBaton (s : State) (q : Nat) (c : BitVec 512) : BatonErr ⊕ BatonCmd :=
  if cmdOpc c = 0x20 then s.readShift q c
  else if cmdOpc c = 0x21 then s.readPermt q c
  else if cmdOpc c = 0x22 then s.readPermiCmd q c
  else s.readPermrCmd q c

/-- The ranges that a command's locators name. -/
def BatonCmd.ranges (c : BatonCmd) : List XBlk :=
  (c.xfers.flatMap fun x => x.blks) ++
    (match c.permi with
     | some p => p.src ++ p.dst ++ p.cnt ++ p.route
     | none => [])

/-- The hub reaches every range of a command: a command of Baton waits for the die links (R378). -/
def BatonCmd.reached (c : BatonCmd) (s : State) : Bool := c.ranges.all fun b => s.hubReaches b.addr

/-! ### Running commands -/

/-- A running command. -/
def State.baton? (s : State) (q : Nat) : Option BatonCmd := s.baton.cmds.find? fun c => c.queue == q

/-- The endpoint of a transfer's peer, or of the peer's backup. -/
def State.peerEp (s : State) (c : BatonCmd) (x : Xfer) (backup : Bool) : BitVec 24 :=
  let m := s.memberOf (s.group c.group) x.peer.toNat
  if backup then m.backup else m.ep

/-- Every position of a transfer. -/
def Xfer.all (x : Xfer) : List Nat := List.range x.blks.length

/-- A position has landed. -/
def Xfer.has (x : Xfer) (j : Nat) : Bool := x.landed.any fun l => l.1 == j

/-- The peer of a transfer, or its backup, owes something (R500): a handshake answer or the acknowledgement of a block that was sent; a block
of a receive half, its backup once it is asked. [DEDUCED: log 52] -/
def Xfer.owed (x : Xfer) (backup : Bool) : Bool :=
  if x.own then false
  else if x.send then
    !(if backup then x.accB else x.accM) || x.sent.any fun j => !(if backup then x.ackB else x.ackM).contains j
  else (x.all.any fun j => !x.has j) && (!backup || x.asked)

/-- An endpoint is silent toward this module, by a group's `GRACE` (R500): it owes a transfer something, and has sent nothing of what it owes
for that time. -/
def State.isSilent (s : State) (g : BitVec 12) (ep : BitVec 24) : Bool :=
  s.baton.cmds.any fun c => c.group == g && c.xfers.any fun x =>
    (x.silM && s.peerEp c x false == ep && x.owed false) || (x.silB && s.peerEp c x true == ep && x.owed true)

/-- An endpoint has sent something of what it owes: its silence ends (R500). -/
def State.hears (s : State) (ep : BitVec 24) : State :=
  { s with baton := { s.baton with cmds := s.baton.cmds.map fun c =>
      { c with xfers := c.xfers.map fun x =>
          { x with silM := x.silM && s.peerEp c x false != ep, silB := x.silB && s.peerEp c x true != ep } } } }

/-- A running command changed. -/
def State.updBaton (s : State) (q : Nat) (f : BatonCmd → BatonCmd) : State :=
  { s with baton := { s.baton with cmds := s.baton.cmds.map fun c => if c.queue = q then f c else c } }

/-- A transfer of a running command changed. -/
def State.updXfer (s : State) (q e : Nat) (f : Xfer → Xfer) : State :=
  s.updBaton q fun c => { c with xfers := listUpd c.xfers e f }

/-- A transfer of a running command. -/
def State.xfer? (s : State) (q e : Nat) : Option (BatonCmd × Xfer) :=
  match s.baton? q with
  | some c => (c.xfers[e]?).map fun x => (c, x)
  | none => none

/-- How messages name a transfer. -/
def BatonCmd.name (c : BatonCmd) (x : Xfer) : XferName := ⟨c.group, c.tag, x.key⟩

/-- Backups that a command's receive halves have accepted released (R311); with `all` those of halves that lack blocks too. [DEDUCED: log 52] -/
def State.releaseFor (s : State) (q : Nat) (all : Bool) : State :=
  match s.baton? q with
  | none => s
  | some c =>
    (List.range c.xfers.length).foldl (fun s e =>
      match s.xfer? q e with
      | some (c, x) =>
        let ep := s.peerEp c x true
        if !x.send && x.hsB && !x.released.contains ep && (all || x.all.all fun j => x.has j) then
          (s.sendMsg ep (.ask (c.name x) [] true)).updXfer q e fun x => { x with released := x.released ++ [ep] }
        else s
      | none => s) s

/-- A command that fails ends, with its receive halves (R282, R285, R292): the backups that they accepted are released (R311). -/
def State.failBaton (s : State) (q : Nat) (st : Byte) : State := (s.releaseFor q true).endBaton q st

/-- A halves' counts differ (R285): the command ends, and MATCHERR is set. -/
def State.matchFails (s : State) (q : Nat) : State :=
  ({ s with baton := { s.baton with matchErr := true } } : State).failBaton q ST_BAD_CMD

/-! ### Source blocks and the gates (R282, R344) -/

/-- A source block as Baton reads it; none where its bib fails. -/
def State.readSource (s : State) (b : XBlk) (tag : BitVec 12) : Option (List Byte × Word) :=
  match s.readBlock b.addr with
  | (data, some bib) => if bibGood data bib tag b.idx then some (data, bib) else none
  | (data, none) => some (data, mkBib tag b.idx (crc32c data))

/-- The send halves of a group are gated: the twins are member and backup of one of its ranks (R344). -/
def State.gatedGroup (s : State) (g : Group) : Bool :=
  let m := s.memberOf g g.myrank.toNat
  s.guard.twen && !s.guard.twin.alone &&
    ((m.ep == s.dxt.myep && m.backup == s.guard.twep) || (m.ep == s.guard.twep && m.backup == s.dxt.myep))

/-- Blocks of a gate unit. -/
def BatonCmd.gateUnit (c : BatonCmd) : Nat := if c.unitLen = 0 then 64 else c.unitLen

/-- The part of a bucket digest that a source block goes to. -/
def State.bucketPart (s : State) (a : Nat) : Nat :=
  match s.place a with
  | .basin k _ => k.val
  | .cistern k _ => k.val
  | _ => 64

/-- The bucket digest of unit `u` of a send half (R344). [DESIGN CHOICE: log 44] -/
def State.bucketDigest (s : State) (c : BatonCmd) (x : Xfer) (u : Nat) : List Word :=
  ((x.blks.drop (c.gateUnit * u)).take c.gateUnit).foldl (fun d b =>
    match s.readSource b x.tag with
    | some r => listUpd d (s.bucketPart b.addr) fun w => w + digestTerm (bibIdx r.2).toNat (bibCrc r.2)
    | none => d) (List.replicate 65 0)

/-- A block of a send half may leave: its unit's gate is open, or there is none. -/
def State.mayLeave (s : State) (c : BatonCmd) (e j : Nat) : Bool :=
  !s.gatedGroup (s.group c.group) || s.guard.twin.opened.contains (c.queue, e, j / c.gateUnit)

/-- One block read and sent to an endpoint; a source bib that fails ends the command with BIB_FAIL (R282). -/
def State.sendBlk (s : State) (q e j : Nat) (ep : BitVec 24) : State :=
  match s.xfer? q e with
  | none => s
  | some (c, x) =>
    match x.blks[j]? with
    | none => s
    | some b =>
      match s.readSource b x.tag with
      | none => s.failBaton q ST_BIB_FAIL
      | some r =>
        (s.transmit ep c.vc (.block (c.name x) j r.1 r.2)).updXfer q e fun x =>
          { x with sent := if x.sent.contains j then x.sent else x.sent ++ [j] }

/-- Blocks sent to an endpoint, those whose gate is open. -/
def State.sendBlks (s : State) (q e : Nat) (ep : BitVec 24) (l : List Nat) : State :=
  l.foldl (fun s j =>
    match s.xfer? q e with
    | some (c, _) => if s.mayLeave c e j && !c.stopping then s.sendBlk q e j ep else s
    | none => s) s

/-- The endpoints of a send half whose handshake has been accepted (R285, R310). [DEDUCED: log 50] -/
def State.accepted (s : State) (c : BatonCmd) (x : Xfer) : List (BitVec 24) :=
  let m := s.memberOf (s.group c.group) x.peer.toNat
  (if x.accM then [m.ep] else []) ++ (if x.accB then [m.backup] else [])

/-- The blocks that receivers have asked of a backup and whose gate was shut, those that may leave now (R311, R344). -/
def State.sendWanted (s : State) (q e : Nat) : State :=
  match s.xfer? q e with
  | none => s
  | some (c, x) =>
    let l := x.wanted.filter fun w => s.mayLeave c e w.2
    let s := s.updXfer q e fun x => { x with wanted := x.wanted.filter fun w => !l.contains w }
    l.foldl (fun s w => s.sendBlks q e w.1 [w.2]) s

/-- A unit's gate opens: its blocks go to every endpoint that has accepted; a backup's go to those that have asked for them. -/
def State.openGate (s : State) (q e u : Nat) : State :=
  let s : State := { s with guard := { s.guard with twin := { s.guard.twin with opened := s.guard.twin.opened ++ [(q, e, u)] } } }
  match s.xfer? q e with
  | some (c, x) =>
    if c.backup then s.sendWanted q e
    else (s.accepted c x).foldl (fun s ep =>
      s.sendBlks q e ep (x.all.filter fun j => j / c.gateUnit == u)) s
  | none => s

/-- The bucket digest of a unit formed, kept and sent to the twin (R344). -/
def State.gateUnit (s : State) (q e u : Nat) : State :=
  match s.xfer? q e with
  | none => s
  | some (c, x) =>
    let d := s.bucketDigest c x u
    ({ s with guard := { s.guard with twin := { s.guard.twin with gated := s.guard.twin.gated ++ [⟨q, e, u, d, s.guard.twin.run⟩] } } } : State).transmit
      s.guard.twep c.vc (.msg (.bucket (c.name x) u s.stepCtr d))

/-! ### Raises and ends (R286, R288, R310, R311) -/

/-- Leading positions that satisfy `p`. -/
def leading (n : Nat) (p : Nat → Bool) : Nat := ((List.range n).takeWhile p).length

/-- Units of `u` blocks complete among `n` when the first `m` are; with `u` = 0 the whole half is one unit. -/
def unitsDone (u n m : Nat) : Nat := if u = 0 then (if m = n then 1 else 0) else if m = n then (n + u - 1) / u else m / u

/-- A sent block is done with (R310): acknowledged, or where the rank has a backup acknowledged by one of the two with the other
acknowledged or silent. -/
def Xfer.sendDone (x : Xfer) (hasB silM silB : Bool) (j : Nat) : Bool :=
  if !x.own && hasB then
    (x.ackM.contains j || x.ackB.contains j) && (x.ackM.contains j || silM) && (x.ackB.contains j || silB)
  else x.ackM.contains j

/-- A backup's send half is done with (R311): one endpoint of its receiver has released it, and the other has too or is
silent. [DEDUCED: log 52] -/
def Xfer.letGo (x : Xfer) (hasB : Bool) (m : Member) (silM silB : Bool) : Bool :=
  let rM := x.released.contains m.ep
  let rB := hasB && x.released.contains m.backup
  (rM || rB) && (rM || silM) && (!hasB || rB || silB)

/-- Leading blocks of a transfer that are done. -/
def State.doneBlks (s : State) (c : BatonCmd) (x : Xfer) : Nat :=
  let m := s.memberOf (s.group c.group) x.peer.toNat
  let hasB := s.hasBackup (s.group c.group) x.peer.toNat
  leading x.blks.length fun j =>
    if x.send = false then x.has j
    else if c.backup && !x.own then x.letGo hasB m (s.isSilent c.group m.ep) (s.isSilent c.group m.backup)
    else x.sendDone hasB (s.isSilent c.group m.ep) (s.isSilent c.group m.backup) j

/-- A transfer is complete. -/
def State.xferDone (s : State) (c : BatonCmd) (x : Xfer) : Bool := s.doneBlks c x == x.blks.length

/-- `n` raises of a counter by Baton (R286, R339). [DESIGN CHOICE: log 31] -/
def State.raiseBaton (s : State) (q : Nat) (k : CoreId) (ctr : BitVec 6) : Nat → State
  | 0 => s
  | n + 1 => (s.sendCtr ⟨k, 100000 + q, ctr, 1, true⟩).raiseBaton q k ctr n

/-- The raises of a SHIFT's halves that are due (R286); one that has been made stands. -/
def State.raiseUnits (s : State) (q e : Nat) : State :=
  match s.xfer? q e with
  | none => s
  | some (c, x) =>
    let u := unitsDone c.unitLen x.blks.length (s.doneBlks c x)
    let s := s.updXfer q e fun x => { x with raises := max u x.raises }
    if x.send then (if c.scen then s.raiseBaton q c.slcore c.sctr (u - x.raises) else s)
    else if c.rcen then s.raiseBaton q c.rlcore c.rctr (u - x.raises) else s

/-- Every transfer of a command of one direction is complete; a PERMI has placed its rows and heard of all positions. -/
def State.sideDone (s : State) (c : BatonCmd) (send : Bool) : Bool :=
  (c.xfers.all fun x => x.send != send || s.xferDone c x) &&
    (match c.permi with
     | some p => if send then p.routed else p.placed
     | none => true)

/-- The raises of a permutation that are due (R288). -/
def State.raiseSides (s : State) (q : Nat) : State :=
  match s.baton? q with
  | none => s
  | some c =>
    let r := !c.rRaised && s.sideDone c false
    let t := !c.sRaised && s.sideDone c true
    let s := s.updBaton q fun c => { c with rRaised := c.rRaised || r, sRaised := c.sRaised || t }
    let s := if r && c.rcen then s.raiseBaton q c.rlcore c.rctr 1 else s
    if t && c.scen then s.raiseBaton q c.slcore c.sctr 1 else s

/-- A command after an event: its raises, and its end when both sides are complete, or stopped with nothing in flight. -/
def State.batonNext (s : State) (q : Nat) : State :=
  match s.baton? q with
  | none => s
  | some c =>
    if c.stopping then (if c.flying then s else s.endBaton q ST_STOPPED)
    else
      let s := if c.opc = 0x20 then (List.range c.xfers.length).foldl (fun s e => s.raiseUnits q e) s else s.raiseSides q
      let s := s.releaseFor q false
      match s.baton? q with
      | some c => if s.sideDone c true && s.sideDone c false then s.endBaton q ST_OK else s
      | none => s

/-! ### Matching (R285, R287) -/

/-- The route record names a position outside the run of rows that the sender accepted (R292). [DEDUCED: log 51] -/
def Xfer.beyond (y : Xfer) (run : Nat × Nat) : Bool := !y.blks.isEmpty && decide (y.run.1 < run.1 ∨ run.2 < y.run.2)

/-- Blocks of a half to the module itself moved over the crossbar (R285). -/
def State.moveOwn (s : State) (qs es qr er : Nat) : State :=
  match s.xfer? qs es, s.xfer? qr er with
  | some (_, x), some (d, y) =>
    if d.opc = 0x23 ∧ y.beyond x.run = true then s.failBaton qr ST_BAD_INDEX
    else if x.blks.length ≠ y.blks.length then (s.matchFails qs).matchFails qr
    else if x.blks.any fun b => (s.readSource b x.tag).isNone then s.failBaton qs ST_BIB_FAIL
    else
      let s := (x.blks.zip y.blks).foldl (fun s p =>
        match s.readSource p.1 x.tag with
        | some r => s.writeBlock p.2.addr r.1 (mkBib y.tag p.2.idx (bibCrc r.2)) .baton
        | none => s) s
      let s := s.updXfer qs es fun x => { x with accM := true, sent := x.all, ackM := x.all }
      let s := s.updXfer qr er fun y => { y with hsM := true, landed := y.all.map fun j => (j, 0, false) }
      (s.batonNext qs).batonNext qr
  | _, _ => s

/-- The first transfer, in the order in which commands started, that satisfies `p`: its queue and place. -/
def State.findXfer (s : State) (p : BatonCmd → Xfer → Bool) : Option (Nat × Nat) :=
  s.baton.cmds.findSome? fun c =>
    (List.range c.xfers.length).findSome? fun e =>
      match c.xfers[e]? with
      | some x => if p c x then some (c.queue, e) else none
      | none => none

/-- An own half matched with its counterpart, where that has started. -/
def State.matchOwn (s : State) (q e : Nat) : State :=
  match s.xfer? q e with
  | none => s
  | some (c, x) =>
    if x.own = false ∨ x.accM = true ∨ x.hsM = true ∨ c.stopping = true then s
    else
      match s.findXfer fun d y =>
          y.own && !d.stopping && y.send != x.send && d.group == c.group && d.tag == c.tag && y.key == x.key && !y.accM && !y.hsM with
      | none => s
      | some (r, f) => if x.send then s.moveOwn q e r f else s.moveOwn r f q e

/-- The handshake of a send half sent to the peer's endpoints (R285, R310, R311). -/
def State.sendHandshake (s : State) (q e : Nat) (eps : List (BitVec 24)) : State :=
  match s.xfer? q e with
  | none => s
  | some (c, x) =>
    let g := s.group c.group
    eps.foldl (fun s ep =>
      s.sendMsg ep (.handshake ⟨c.group, g.gfp, c.tag, x.key, g.myrank, s.dxt.myep, x.blks.length, x.tag,
        x.blks.map fun b => BitVec.ofNat 20 b.idx, x.run, c.backup⟩)) s

/-- A receive half asks a backup for the blocks it lacks (R312). [DEDUCED: log 52] -/
def State.askBackup (s : State) (q e : Nat) : State :=
  match s.xfer? q e with
  | some (c, x) =>
    (s.sendMsg (s.memberOf (s.group c.group) x.peer.toNat).backup (.ask (c.name x) (x.all.filter fun j => !x.has j) false)).updXfer
      q e fun x => { x with asked := true }
  | none => s

/-- A receive half can be matched with a handshake (R285, R287, R310). -/
def handshakeMeets (h : Handshake) (c : BatonCmd) (x : Xfer) : Bool :=
  !x.send && !x.own && c.group == h.group && c.tag == h.tag && x.key == h.key && x.peer == h.fromRank && !c.stopping &&
    !(if h.backup then x.hsB else x.hsM)

/-- A handshake met by a receive half: accepted, or refused for its block count (R285); route records of a PERMR that name a position outside
the sender's accepted rows end it with BAD_INDEX (R292). [DEDUCED: log 51] -/
def State.acceptHandshake (s : State) (h : Handshake) (q e : Nat) : State :=
  match s.xfer? q e with
  | none => s
  | some (c, x) =>
    let s := if h.nblk = x.blks.length then s else s.sendMsg h.fromEp (.answer (c.name x) .mismatch)
    if c.opc = 0x23 ∧ x.beyond h.run = true then s.failBaton q ST_BAD_INDEX
    else if h.nblk ≠ x.blks.length then s.matchFails q
    else
      let s := s.sendMsg h.fromEp (.answer (c.name x) .accepted)
      if h.backup then
        let s := s.updXfer q e fun x => { x with hsB := true, srcB := (h.srcTag, h.srcIdx) }
        if s.isSilent c.group (s.peerEp c x false) then s.askBackup q e else s
      else s.updXfer q e fun x => { x with hsM := true, srcM := (h.srcTag, h.srcIdx) }

/-- Handshakes that wait tried against the halves that run. [DEDUCED: log 53] -/
def State.matchWaiting (s : State) : State :=
  s.baton.waiting.foldl (fun s h =>
    match s.findXfer fun c x => handshakeMeets h c x with
    | some (q, e) =>
      ({ s with baton := { s.baton with waiting := s.baton.waiting.erase h } } : State).acceptHandshake h q e
    | none => s) s

/-- Transfers of a command from `from_` on started: own ones matched, gates formed, handshakes sent. -/
def State.startXfers (s : State) (q from_ : Nat) : State :=
  match s.baton? q with
  | none => s
  | some c =>
    let l := (List.range c.xfers.length).filter fun e => decide (from_ ≤ e)
    let s := l.foldl (fun s e =>
      match s.xfer? q e with
      | none => s
      | some (c, x) =>
        if x.own then s.matchOwn q e
        else if x.send then
          let g := s.group c.group
          let s := s.sendHandshake q e (s.endpoints g x.peer.toNat)
          if s.gatedGroup g then
            (List.range ((x.blks.length + c.gateUnit - 1) / c.gateUnit)).foldl (fun s u => s.gateUnit q e u) s
          else s
        else s) s
    s.matchWaiting.batonNext q

/-! ### PERMI (R291) -/

/-- Rows of this member for a rank, in ascending order. -/
def PermiState.rowsFor (p : PermiState) (r : Nat) : List Nat :=
  (List.range p.dest.length).filter fun i => p.dest.getD i 0 == r

/-- Bytes written over the front of a range, whole blocks with bibs of its tag (R283, R291). -/
def State.writeRange (s : State) (l : List XBlk) (tag : BitVec 12) (bs : List Byte) : State :=
  (l.mapIdx fun i b => (i, b)).foldl (fun s e =>
    let data := splice (s.readBlock e.2.addr).1 0 ((bs.drop (4096 * e.1)).take 4096)
    s.writeBlock e.2.addr data (mkBib tag e.2.idx (crc32c data)) .baton) s

/-- The PERMI of a command changed. -/
def State.updPermi (s : State) (q : Nat) (f : PermiState → PermiState) : State :=
  s.updBaton q fun c => { c with permi := c.permi.map f }

/-- Transfers added to a command. -/
def State.addXfers (s : State) (q : Nat) (l : List Xfer) : State :=
  match s.baton? q with
  | none => s
  | some c => (s.updBaton q fun c => { c with xfers := c.xfers ++ l }).startXfers q c.xfers.length

/-- First position and accepted count of each source rank (R291 step 3). -/
def accept : Nat → Nat → List Nat → List (Nat × Nat)
  | _, _, [] => []
  | at_, cap, n :: l => let a := min n (cap - at_); (at_, a) :: accept (at_ + a) cap l

/-- The positions that a destination has returned taken (R291 step 5): the accepted rows for it form a send. When every rank's
have come, the route record is written (step 6). -/
def State.takePositions (s : State) (q rank first accepted : Nat) : State :=
  match s.baton? q with
  | none => s
  | some c =>
    match c.permi with
    | none => s
    | some p =>
      if (Sparse.find p.pos rank).isSome then s
      else
        let g := s.group c.group
        let s := s.updPermi q fun p => { p with pos := Sparse.put p.pos rank (first, accepted) }
        let pos := Sparse.put p.pos rank (first, accepted)
        let rows := (p.rowsFor rank).take accepted
        let s := if pos.length = g.ranks then
            let recs := (List.range p.dest.length).flatMap fun i =>
              let d := p.dest.getD i 0
              let f := (Sparse.find pos d).getD (0, 0)
              let j := ((p.rowsFor d).takeWhile fun r => r != i).length
              natLe 4 d ++ natLe 4 (if d = 0xFFFFFFFF ∨ f.2 ≤ j then 0xFFFFFFFF else f.1 + j)
            (s.writeRange p.route p.rtag recs).updPermi q fun p => { p with routed := true }
          else s
        if rows.isEmpty then s.batonNext q
        else s.addXfers q [mkXfer true rank (.perm 0) (rowBlks p.src p.rowblk rows, p.stag) g.myrank]

/-- Every count has come (R291 steps 3 and 4): positions are given, the count vector is written, and each source hears.
[DEDUCED: log 51] -/
def State.placeRows (s : State) (q : Nat) : State :=
  match s.baton? q with
  | none => s
  | some c =>
    match c.permi with
    | none => s
    | some p =>
      let g := s.group c.group
      if p.placed ∨ p.counts.length < g.ranks then s
      else
        let counts := p.counts.map (·.2)
        let acc := accept 0 p.dcap counts
        let total := counts.foldl (fun a b => a + b) 0
        let kept := acc.foldl (fun n a => n + a.2) 0
        let s := s.writeRange p.cnt p.ctag (acc.flatMap fun a => natLe 4 a.2)
        let s := s.updPermi q fun p => { p with placed := true, dropped := total - kept }
        let s := (acc.mapIdx fun r a => (r, a)).foldl (fun s e =>
          if e.1 = g.myrank.toNat then s
          else (s.endpoints g e.1).foldl (fun s ep =>
            s.sendMsg ep (.permi ⟨c.group, c.tag, .perm 0⟩ (.positions g.myrank e.2.1 e.2.2))) s) s
        let recvs := (acc.mapIdx fun r a => (r, a)).filterMap fun e =>
          if e.2.2 = 0 then none
          else some (mkXfer false e.1 (.perm 0)
            (rowBlks p.dst p.rowblk ((List.range e.2.2).map fun i => e.2.1 + i), p.dtag) g.myrank)
        let s := s.addXfers q recvs
        let own := acc.getD g.myrank.toNat (0, 0)
        s.takePositions q g.myrank.toNat own.1 own.2

/-- A rank's count taken; a second copy of it changes nothing. [DEDUCED: log 51] -/
def State.takeCount (s : State) (q rank rows : Nat) : State :=
  (s.updPermi q fun p => if (Sparse.find p.counts rank).isSome then p else { p with counts := Sparse.put p.counts rank rows }).placeRows q

/-- The counts of a PERMI sent to every rank (R291 step 2). -/
def State.sendCounts (s : State) (q : Nat) : State :=
  match s.baton? q with
  | none => s
  | some c =>
    match c.permi with
    | none => s
    | some p =>
      let g := s.group c.group
      let s := (List.range g.ranks).foldl (fun s r =>
        if r = g.myrank.toNat then s
        else (s.endpoints g r).foldl (fun s ep =>
          s.sendMsg ep (.permi ⟨c.group, c.tag, .perm 0⟩ (.count g.myrank (p.rowsFor r).length))) s) s
      s.takeCount q g.myrank.toNat (p.rowsFor g.myrank.toNat).length

/-! ### Rows: commands -/

/-- An ended half that a command which begins does not put out of use: its tag is not one that may be used again (R308). -/
def BatonCmd.keepsEnded (c : BatonCmd) (e : EndedHalf) : Bool :=
  e.name.group != c.group || decide ((c.tag - e.name.tag).toNat < 2 ^ 15)

/-- Baton's reads of source blocks in Basins and Cisterns meet the code of R332; a read of HBM meets none. -/
def State.batonReads (s : State) (l : List XBlk) (u : Upset) (f : State → State) : State :=
  match l.find? fun b => !decide (s.place b.addr = .hbm) with
  | some b => s.readSram b.addr u f
  | none => f s

/-- The source blocks that a command reads as it starts: those of a half to the module itself, and those that a gate's digest takes. -/
def State.startReads (s : State) (c : BatonCmd) : List XBlk :=
  (c.xfers.filter fun x => x.send && (x.own || s.gatedGroup (s.group c.group))).flatMap fun x => x.blks

/-- A command that has been judged begins, once the hub reaches its ranges (R378). -/
def State.beginBaton (s : State) (q : Nat) (u : Upset) (r : BatonErr ⊕ BatonCmd) : State :=
  match r with
  | .inl e => s.finish q e.1 e.2
  | .inr c =>
    if c.reached s = false then s
    else s.batonReads (s.startReads c) u fun s =>
    ({ (s.begin q) with baton := { s.baton with
      cmds := s.baton.cmds ++ [c], ended := s.baton.ended.filter c.keepsEnded } } : State).startXfers q 0

/-- A head of Baton that has not begun. -/
def State.onBatonHead (s : State) (q opc : Nat) (f : BitVec 512 → State → State) : State :=
  if (s.queue q).begun then s else s.onHead q opc f

/-- SHIFT (R284-R287). -/
def execShift (r : BatonRead) (s : State) : Host.Outcome State Fault Refusal :=
  always s fun s => s.onBatonHead r.queue.val 0x20 fun c s => s.beginBaton r.queue.val r.upset (s.readShift r.queue.val c)

/-- PERMT (R288, R289). -/
def execPermt (r : BatonRead) (s : State) : Host.Outcome State Fault Refusal :=
  always s fun s => s.onBatonHead r.queue.val 0x21 fun c s => s.beginBaton r.queue.val r.upset (s.readPermt r.queue.val c)

/-- PERMI (R290, R291). -/
def execPermi (r : BatonRead) (s : State) : Host.Outcome State Fault Refusal :=
  always s fun s => s.onBatonHead r.queue.val 0x22 fun c s => (s.beginBaton r.queue.val r.upset (s.readPermiCmd r.queue.val c)).sendCounts r.queue.val

/-- PERMR (R290, R292): rows that do not return are written as zeros. -/
def execPermr (r : BatonRead) (s : State) : Host.Outcome State Fault Refusal :=
  always s fun s => s.onBatonHead r.queue.val 0x23 fun c s =>
    match s.readPermrCmd r.queue.val c, s.permrAt (s.group (BitVec.ofNat 12 (opf c 68 12))) (BitVec.ofNat 48 (opf c 0 48)) with
    | .inr cmd, .inr x =>
      if (x.2.1.all fun b => s.hubReaches b.addr) = false then s
      else
        let zeros (s : State) : State :=
          x.2.1.foldl (fun s b => s.writeBlock b.addr (List.replicate 4096 0) (mkBib x.2.2.1 b.idx zeroCrc) .baton) s
        (if cmd.reached s then zeros s else s).beginBaton r.queue.val r.upset (.inr cmd)
    | e, _ => s.beginBaton r.queue.val r.upset e

/-! ### Rows: messages and blocks -/

/-- A refused handshake counted (R285, R300). [DEDUCED: log 53] -/
def State.countRefused (s : State) : State :=
  { s with baton := { s.baton with refuse := sat16 s.baton.refuse 1, gfpErr := true } }

/-- A receive half that has ended before its member's, or its backup's, handshake came is the one that this handshake
matches. [DEDUCED: log 52] -/
def EndedHalf.awaits (e : EndedHalf) (h : Handshake) : Bool :=
  e.name == ⟨h.group, h.tag, h.key⟩ && e.rank == h.fromRank && !e.stopped && !(if h.backup then e.hsB else e.hsM)

/-- The last element that satisfies `p` changed. -/
def updLast {α : Type} (p : α → Bool) (f : α → α) : List α → List α
  | [] => []
  | x :: l => if p x && !l.any p then f x :: l else x :: updLast p f l

/-- The handshake of an ended half answered: a backup is released and a member accepted, whose copies are then acknowledged and discarded
(R311, R312); the half takes no other. [DEDUCED: log 52] -/
def State.lateHandshake (s : State) (h : Handshake) : State :=
  let name : XferName := ⟨h.group, h.tag, h.key⟩
  let s : State := { s with baton := { s.baton with
    ended := updLast (fun e => e.awaits h) (fun e => if h.backup then { e with hsB := true } else { e with hsM := true }) s.baton.ended } }
  if h.backup then s.sendMsg h.fromEp (.ask name [] true) else s.sendMsg h.fromEp (.answer name .accepted)

/-- BATON_HANDSHAKE (R285, R287, R311): refused for its group, met by a half that has ended without it or by one that runs, or kept until its
half starts. -/
def execBatonHandshake (h : Handshake) (s : State) : Host.Outcome State Fault Refusal :=
  always s fun s =>
    let g := s.group h.group
    let s := s.takeMsg [h.fromEp]
    if g.valid = false ∨ g.gfp ≠ h.gfp then (s.sendMsg h.fromEp (.answer ⟨h.group, h.tag, h.key⟩ .refused)).countRefused
    else if s.baton.ended.any fun e => e.awaits h then s.lateHandshake h
    else
      match s.findXfer fun c x => handshakeMeets h c x with
      | some (q, e) => (s.acceptHandshake h q e).batonNext q
      | none => { s with baton := { s.baton with waiting := s.baton.waiting ++ [h] } }

/-- The ranges of a running command cannot all be reached: its next read or write of a block waits (R378). -/
def State.batonWaits (s : State) (q : Nat) : Bool :=
  match s.baton? q with
  | some c => !c.reached s
  | none => false

/-- HANDSHAKE_RETRY (R285): the answer to a handshake of a send half; a refused one is counted and, 10 µs later, sent again. A refusal does
not end silence (R500). -/
def execHandshakeRetry (r : BatonRead) (entry : Nat) (backup : Bool) (answer : HsAnswer) (s : State) :
    Host.Outcome State Fault Refusal :=
  always s fun s =>
    match s.xfer? r.queue.val entry with
    | none => s
    | some (c, x) =>
      let ep := s.peerEp c x backup
      if x.send = false ∨ x.own = true ∨ (if backup then x.accB else x.accM) = true ∨ c.stopping = true ∨
          s.batonWaits r.queue.val = true then s
      else
        match answer with
        | .mismatch => ((s.takeMsg [ep]).hears ep).matchFails r.queue.val
        | .refused =>
          ((s.takeMsg [ep]).updBaton r.queue.val fun c => { c with refusals := c.refusals + 1 }).sendHandshake r.queue.val entry [ep]
        | .accepted =>
          s.batonReads (if c.backup then [] else x.blks) r.upset fun s =>
            let s := ((s.takeMsg [ep]).hears ep).updXfer r.queue.val entry fun x =>
              if backup then { x with accB := true } else { x with accM := true }
            if c.backup then s else s.sendBlks r.queue.val entry ep x.all

/-- REPLICA_DIVERGE for the copy of a block that differs from the one that landed first (R313, R315). -/
def State.tellDiverge (s : State) (n : Nat) : State := s.emit 0x0B 0 0xFF 0x7F (BitVec.ofNat 64 n) 0 false

/-- What a receive half does with a block that passes its checks (R282, R286, R312, R313): the first copy of a position is kept, or the
member's where both land in one cycle. [DEDUCED: log 50] -/
def State.takeBlock (s : State) (q e j : Nat) (data : List Byte) (bib : Word) (backup : Bool) : State :=
  match s.xfer? q e with
  | none => s
  | some (c, x) =>
    let ep := s.peerEp c x backup
    let s := s.sendMsg ep (.ack (c.name x) [j])
    match x.landed.find? fun l => l.1 == j with
    | some l =>
      let s := if l.2.2 ≠ backup ∧ l.2.1 ≠ bibCrc bib then
          (s.updBaton q fun c => { c with differed := c.differed + 1 }).tellDiverge (c.differed + 1)
        else s
      match x.blks[j]? with
      | none => s
      | some b =>
        if backup = false ∧ x.recent.contains j = true then
          let s := s.writeBlock b.addr data (mkBib x.tag b.idx (bibCrc bib)) .baton
          let s := s.updXfer q e fun x =>
            { x with
              landed := x.landed.map fun l => if l.1 = j then (j, bibCrc bib, false) else l
              recent := x.recent.filter (· != j) }
          s.updBaton q fun c => { c with taken := c.taken - 1 }
        else s
    | none =>
      match x.blks[j]? with
      | none => s
      | some b =>
        let s := (s.hears ep).writeBlock b.addr data (mkBib x.tag b.idx (bibCrc bib)) .baton
        let s := s.updXfer q e fun x =>
          { x with landed := x.landed ++ [(j, bibCrc bib, backup)], recent := if backup then j :: x.recent else x.recent }
        (s.updBaton q fun c => if backup then { c with taken := c.taken + 1 } else c).batonNext q

/-- The delivered block that the fabric holds for this entry is taken from the handed list. [DEDUCED: log 50] -/
def State.takeHandedBlock (s : State) (ep : BitVec 24) (blk : Nat) : State :=
  s.updDxt fun d =>
    let isIt (h : Handed) : Bool :=
      match h with
      | .block e _ p _ => e == ep && p.toNat == blk
      | _ => false
    match takeFirst isIt d.handed with
    | some (_, rest) => { d with handed := rest }
    | none => d

/-- The tag and indexes that the member, or its backup, has announced for a receive half. -/
def Xfer.announced (x : Xfer) (backup : Bool) : BitVec 12 × List (BitVec 20) := if backup then x.srcB else x.srcM

/-- A block that arrives passes the checks of R282: its CRC-32C, and the tag and index announced. -/
def Xfer.passes (x : Xfer) (backup : Bool) (j : Nat) (data : List Byte) (bib : Word) : Bool :=
  let a := x.announced backup
  bibGood data bib a.1 (a.2.getD j 0).toNat

/-- A copy of a position compares unequal with the other sender's copy that landed (R313). -/
def EndedHalf.diverges (h : EndedHalf) (j : Nat) (data : List Byte) (bib : Word) (backup : Bool) : Bool :=
  crcOk data bib && h.landed.any fun l => l.1 == j && l.2.2 != backup && l.2.1 != bibCrc bib

/-- A block for the `n`-th newest ended receive half of a queue's place: refused by a stopped one (R298); a later copy of a filled position is
compared, acknowledged and discarded (R312, R313). [DESIGN CHOICE: log 95] -/
def State.lateBlock (s : State) (q e n j : Nat) (data : List Byte) (bib : Word) (backup : Bool) : State :=
  let mine (h : EndedHalf) : Bool := h.queue == q && h.entry == e
  match (s.baton.ended.filter mine)[n]? with
  | none => s
  | some h =>
    let m := s.memberOf (s.group h.name.group) h.rank.toNat
    let ep := if backup then m.backup else m.ep
    let s := s.takeHandedBlock ep j
    if h.stopped then s.sendMsg ep (.refuse h.name j)
    else
      let s := s.sendMsg ep (.ack h.name [j])
      if h.diverges j data bib backup then
        ({ s with baton := { s.baton with
          ended := s.baton.ended.map fun x => if x = h then { x with differed := x.differed + 1 } else x } } : State).tellDiverge
            (h.differed + 1)
      else s

/-- BATON_BLOCK_ARRIVAL (R282, R286, R298, R312, R313): of the half that runs, or of one whose command has ended. -/
def execBatonBlockArrival (q : QId) (entry : Nat) (blk : Nat) (data : List Byte) (bib : Word) (sender : SenderCopy) (s : State) :
    Host.Outcome State Fault Refusal :=
  let backup := sender.backup
  always s fun s =>
    match sender.ended, s.xfer? q.val entry with
    | some n, _ => s.lateBlock q.val entry n blk data bib backup
    | none, none => s
    | none, some (c, x) =>
      let ep := s.peerEp c x backup
      if s.batonWaits q.val = true ∨ x.send ∨ (if backup then x.hsB else x.hsM) = false ∨ x.blks.length ≤ blk ∨ data.length ≠ 4096 then s
      else
        let s := s.takeHandedBlock ep blk
        if c.stopping then s.sendMsg ep (.refuse (c.name x) blk)
        else if x.passes backup blk data bib then s.takeBlock q.val entry blk data bib backup
        else if x.retried.contains blk then (s.sendMsg ep (.failed (c.name x) blk)).failBaton q.val ST_BIB_FAIL
        else
          let s : State := { s with baton := { s.baton with bibRetry := sat16 s.baton.bibRetry 1 } }
          (s.sendMsg ep (.again (c.name x) blk)).updXfer q.val entry fun x => { x with retried := x.retried ++ [blk] }

/-- BATON_BLOCK_ACK (R282, R286, R298, R310): what the member, or its backup, says of blocks it was sent. Silence ends with an
acknowledgement of a block that the endpoint had not acknowledged (R500). A block asked of a stopping command again is not sent: it is
no longer in flight. -/
def execBatonBlockAck (r : BatonRead) (entry : Nat) (blks : List Nat) (backup : Bool) (answer : BlkAnswer) (s : State) :
    Host.Outcome State Fault Refusal :=
  always s fun s =>
    match s.xfer? r.queue.val entry with
    | none => s
    | some (c, x) =>
      if x.send = false ∨ x.own = true ∨ (answer = .again ∧ s.batonWaits r.queue.val = true) then s
      else
        let ep := s.peerEp c x backup
        let source := blks.filterMap fun j => x.blks[j]?
        s.batonReads (if answer = .again ∧ c.stopping = false then source else []) r.upset fun s =>
        let s := s.takeMsg [ep]
        let l := blks.filter fun j => x.sent.contains j
        let add (m : List Nat) : List Nat := m ++ l.filter fun j => !m.contains j
        let fresh := l.any fun j => !(if backup then x.ackB else x.ackM).contains j
        match answer with
        | .acked =>
          ((if fresh then s.hears ep else s).updXfer r.queue.val entry fun x =>
            if backup then { x with ackB := add x.ackB } else { x with ackM := add x.ackM }).batonNext r.queue.val
        | .again =>
          if c.stopping then (s.updXfer r.queue.val entry fun x => { x with refd := add x.refd }).batonNext r.queue.val
          else s.sendBlks r.queue.val entry ep l
        | .failed => if l.isEmpty then s else s.failBaton r.queue.val ST_BIB_FAIL
        | .refused => (s.updXfer r.queue.val entry fun x => { x with refd := add x.refd }).batonNext r.queue.val

/-- PERMI_COUNT_MESSAGE (R291): a rank's count, or its answer with positions. -/
def execPermiCountMessage (q : QId) (m : PermiMsg) (s : State) : Host.Outcome State Fault Refusal :=
  always s fun s =>
    match s.baton? q.val with
    | none => s
    | some c =>
      if c.opc ≠ 0x22 ∨ c.stopping = true then s
      else
        let g := s.group c.group
        match m with
        | .count r n =>
          if g.ranks ≤ r.toNat then s else (s.takeMsg (s.endpoints g r.toNat)).takeCount q.val r.toNat n
        | .positions r f a =>
          if g.ranks ≤ r.toNat then s else (s.takeMsg (s.endpoints g r.toNat)).takePositions q.val r.toNat f a

/-- BACKUP_REQUEST (R311, R312): a receiver asks this backup for blocks, or releases it; a block whose gate is shut goes once
it opens. [DEDUCED: log 52] -/
def execBackupRequest (r : BatonRead) (entry : Nat) (byBackup : Bool) (blks : List Nat) (finished : Bool) (s : State) :
    Host.Outcome State Fault Refusal :=
  always s fun s =>
    match s.xfer? r.queue.val entry with
    | none => s
    | some (c, x) =>
      if c.backup = false ∨ x.send = false ∨ x.own = true ∨ (finished = false ∧ s.batonWaits r.queue.val = true) then s
      else
        let ep := s.peerEp c x byBackup
        s.batonReads (if finished then [] else blks.filterMap fun j => x.blks[j]?) r.upset fun s =>
        let s := s.takeMsg [ep]
        if finished then
          (s.updXfer r.queue.val entry fun x =>
            { x with released := if x.released.contains ep then x.released else x.released ++ [ep] }).batonNext r.queue.val
        else
          (s.updXfer r.queue.val entry fun x =>
            { x with wanted := x.wanted ++ (blks.filter fun j => decide (j < x.blks.length)).map fun j => (ep, j) }).sendWanted r.queue.val entry

/-- What follows once an endpoint is silent by a group's `GRACE` (R310, R312): receive halves ask the backup of a silent member, and sends may
be done with. -/
def State.afterSilence (s : State) (g : BitVec 12) (ep : BitVec 24) : State :=
  ((s.baton.cmds.filter fun c => c.group == g).map (·.queue)).foldl (fun s q =>
    match s.baton? q with
    | none => s
    | some c =>
      ((List.range c.xfers.length).foldl (fun s e =>
        match s.xfer? q e with
        | some (c, x) =>
          if !x.send && !x.own && x.hsB && s.hasBackup (s.group c.group) x.peer.toNat && s.peerEp c x false == ep && !s.xferDone c x
          then s.askBackup q e else s
        | none => s) s).batonNext q) s

/-- GRACE_EXPIRY (R310, R312, R500): the peer of a transfer, or its backup, has sent nothing of what it owes for `GRACE` µs.
[DEDUCED: log 52] -/
def execGraceExpiry (q : QId) (entry : Nat) (backup : Bool) (s : State) : Host.Outcome State Fault Refusal :=
  always s fun s =>
    match s.xfer? q.val entry with
    | none => s
    | some (c, x) =>
      let ep := s.peerEp c x backup
      if s.hasBackup (s.group c.group) x.peer.toNat = false ∨ s.isSilent c.group ep = true ∨ x.owed backup = false then s
      else
        (s.updXfer q.val entry fun x =>
          if backup then { x with silB := true } else { x with silM := true }).afterSilence c.group ep

/-! ### Rows: the twin (R344, R346, R347) -/

/-- The own digest of a unit compared with the twin's (R344, R346): equal, its gate opens; one that was formed in an earlier
run of the step
is formed again in this one; otherwise the resolution starts, or goes on. [DESIGN CHOICE: log 44] -/
def State.compareBucket (s : State) (b : Bucket) (theirs : List Word) : State :=
  let id := (b.queue, b.entry, b.unitNo)
  let t := s.guard.twin
  let l := disagree b.parts theirs
  if l.isEmpty then
    (((s.twinSettle (some id) b.parts theirs).openGate b.queue b.entry b.unitNo).batonNext b.queue).twinJudge
  else
    let s : State := { s with guard := { s.guard with twin := { t with redo := t.redo ++ [id] } } }
    if b.run < t.run then s else s.twinMismatch (some id) b.parts theirs l

/-- A bucket digest is that of a unit. -/
def Bucket.isFor (b : Bucket) (q e u : Nat) : Bool := b.queue == q && b.entry == e && b.unitNo == u

/-- TWIN_BUCKET_DIGEST (R344, R346): the digest of the same group, tag, unit and step opens the gate; one that differs starts the
resolution. One that comes before the own digest of the rerun waits for it. -/
def execTwinBucketDigest (r : BatonRead) (entry : Nat) (unitNo : Nat) (parts : List Word) (s : State) :
    Host.Outcome State Fault Refusal :=
  always s fun s =>
    match s.xfer? r.queue.val entry with
    | none => s
    | some (c, x) =>
      if s.gatedGroup (s.group c.group) = false ∨ x.send = false ∨ x.own = true ∨ parts.length ≠ 65 ∨
          s.guard.twin.opened.contains (r.queue.val, entry, unitNo) = true ∨ x.blks.length ≤ c.gateUnit * unitNo ∨
          s.batonWaits r.queue.val = true then s
      else s.batonReads ((x.blks.drop (c.gateUnit * unitNo)).take c.gateUnit) r.upset fun s =>
        let s := s.takeMsg [s.guard.twep]
        let t := s.guard.twin
        match t.gated.find? fun b => b.isFor r.queue.val entry unitNo with
        | some b =>
          ({ s with guard := { s.guard with twin := { t with gated := t.gated.filter fun b => !b.isFor r.queue.val entry unitNo } } } :
            State).compareBucket b parts
        | none =>
          { s with guard := { s.guard with twin := { t with early := t.early ++ [⟨r.queue.val, entry, unitNo, parts, t.run⟩] } } }

/-- The digest of a unit formed and sent again in the rerun, and compared with the twin's where that has come (R346). -/
def State.gateAgain (s : State) (u : Nat × Nat × Nat) : State :=
  let s : State := { s with guard := { s.guard with twin := { s.guard.twin with redo := s.guard.twin.redo.filter (· != u) } } }
  let s := s.gateUnit u.1 u.2.1 u.2.2
  let t := s.guard.twin
  let mine (b : Bucket) : Bool := b.isFor u.1 u.2.1 u.2.2
  match t.early.find? mine, t.gated.find? mine with
  | some e, some b =>
    ({ s with guard := { s.guard with twin := { t with
      early := t.early.filter fun x => !mine x, gated := t.gated.filter fun x => !mine x } } } : State).compareBucket b e.parts
  | _, _ => s

/-- The units of a command whose digest disagreed, once its dependencies are met in the rerun: Baton reads them again (R346).
[DESIGN CHOICE: log 44] -/
def State.regate (s : State) (q : Nat) : State :=
  match s.baton? q, (s.queue q).head with
  | some _, some c =>
    if s.guard.replaying.isNone && s.depMet (cmdDep c 0) && s.depMet (cmdDep c 1) then
      (s.guard.twin.redo.filter fun u => u.1 == q).foldl State.gateAgain s
    else s
  | _, _ => s

/-- DEPENDENCY_MET (R252, R346, R504): the head of a queue judged; a Baton command that runs forms the digests of its rerun. -/
def execDependencyMet (q : QId) (s : State) : Host.Outcome State Fault Refusal := always s fun s => (s.judgeWaiting q.val).regate q.val

/-- A digest is owed by the twin (R347). -/
def State.digestOwed (s : State) : Bool :=
  !s.guard.twin.gated.isEmpty || (match s.stepPhase with
    | .twinWait _ _ => s.guard.twin.theirs.isNone
    | _ => false)

/-- Every send half's blocks that a gate kept back sent (R347). -/
def State.openAll (s : State) : State :=
  s.baton.cmds.foldl (fun s c =>
    (List.range c.xfers.length).foldl (fun s e =>
      match s.xfer? c.queue e with
      | some (c, x) =>
        if x.send && !x.own && c.backup then s.sendWanted c.queue e
        else if x.send && !x.own then
          (s.accepted c x).foldl (fun s ep => s.sendBlks c.queue e ep (x.all.filter fun j => !x.sent.contains j)) s
        else s
      | none => s) s) s

/-- TWIN_SILENCE (R347): the module opens its gates, commits without the comparison once its step has reached its boundary, and runs alone
from now on. -/
def execTwinSilence (linkDown : Bool) (s : State) : Host.Outcome State Fault Refusal :=
  always s fun s =>
    if s.guard.twen && !s.guard.twin.alone && (s.digestOwed || linkDown) then
      let s := s.emit 0x0F 1 0xFF 0x7F (if linkDown then 1 else 0) 0 false
      let s : State := { s with guard := { s.guard with twin := { s.guard.twin with
        alone := true, gated := [], early := [], redo := [], run := 1, rotated := [], mismatch := [] } } }
      s.openAll.twinJudge
    else s

end Sys2Proof.Machine
end

