-- ==== Sys2Proof/Machine/Far.lean ====
section
/-! DEFINITION. Far slot accesses as the Runnels serve and complete them (R139, R172, R200, R201, R327, R330, R337). A load's bytes
are read when its block is served; a store's block is read, merged and written in its completion, so no other write comes
between. -/

namespace Sys2Proof.Machine

/-- The blocks that hold an access's bytes (R200). -/
def FarAcc.blocks (f : FarAcc) : List Nat :=
  (List.range ((f.addr + f.size - 1) / 4096 - f.addr / 4096 + 1)).map fun i => f.addr / 4096 + i

/-- The bytes of an access that lie in a block: their offset in the access and their number. -/
def FarAcc.slice (f : FarAcc) (blk : Nat) : Nat × Nat :=
  let lo := max f.addr (4096 * blk)
  (lo - f.addr, min (f.addr + f.size) (4096 * (blk + 1)) - lo)

/-- The check of a far access's block: its data against the `CRC` of its bib, where it has one (R200, R327). -/
def State.farCheck (s : State) (blk : Nat) : Bool :=
  match s.readBlock (4096 * blk) with
  | (data, some bib) => crcOk data bib
  | (_, none) => true

/-- An earlier far store of the core that writes bytes a load reads has not completed (R201). -/
def earlierStore (l : List FarAcc) (i : Nat) (f : FarAcc) : Bool :=
  (l.take i).any fun g => g.store && rangesMeet f.addr f.size g.addr g.size

/-- An earlier far access that names the same counter has not completed (R201). -/
def earlierSame (l : List FarAcc) (i : Nat) (f : FarAcc) : Bool := (l.take i).any fun g => g.ctr == f.ctr

/-- The bytes of an access that one of its blocks holds. -/
def State.farBytes (s : State) (f : FarAcc) (blk : Nat) : List Byte :=
  let w := f.slice blk
  ((s.readBlock (4096 * blk)).1.drop (f.addr + w.1 - 4096 * blk)).take w.2

/-- One far access of a core changed. -/
def State.updFar (s : State) (k : CoreId) (i : Nat) (f : FarAcc → FarAcc) : State :=
  s.updCore k fun c => { c with far := listUpd c.far i f }

/-- Block `j` of an access, where no Runnel has taken it. -/
def FarAcc.unserved (f : FarAcc) (j : Nat) : Option Nat := (f.blocks[j]?).filter fun b => !f.served.any fun x => x.blk == b

/-- The access of block `j`, while it is in service. -/
def FarAcc.inService (f : FarAcc) (j : Nat) : Option FarBlk := f.served.find? fun x => f.blocks[j]? == some x.blk && !x.fin

/-- Every block of an access but `blk` has completed. -/
def FarAcc.lastBut (f : FarAcc) (blk : Nat) : Bool :=
  f.blocks.all fun b => b == blk || f.served.any fun x => x.blk == b && x.fin

/-- Runnel `u` takes block `j` of far access `i` of core k: a load's block is read and checked now, a store's in its completion
(R200, R201). A block on another die is reached over the die links (R14). -/
def State.farService (s : State) (k : CoreId) (i j : Nat) (u : Fin 2) (up : Upset) : State :=
  let s := s.settle k
  match (s.core k).far[i]? with
  | none => s
  | some f =>
    match f.unserved j with
    | none => s
    | some b =>
      if (f.store = false ∧ earlierStore (s.core k).far i f = true) ∨ s.dieReaches (dieOf k) (4096 * b) = false then s
      else s.readSram (4096 * b) (if f.store then .none else up) fun s =>
        let x : FarBlk := ⟨b, u, if f.store then [] else s.farBytes f b, !f.store && !s.farCheck b, false⟩
        s.updFar k i fun f => { f with served := f.served ++ [x] }

/-- FAR_ACCESS_SERVICE (R200). -/
def execFarAccessService (k : CoreId) (b : FarServe) (s : State) : Host.Outcome State Fault Refusal :=
  atCore k s fun s => s.farService k b.no.acc b.no.blk.val b.runnel b.upset

/-- One block of a far store merged and written back with a new bib that keeps `TAG` and `BIDX`; a Basin or Cistern block without
a valid mark takes the bytes and stays without one (R200). A block found bad at the hub on its way to another die is stored with its
`CRC` inverted (R327). -/
def State.farMerge (s : State) (k : CoreId) (f : FarAcc) (blk : Nat) (hubBad : Bool) : State :=
  let w := f.slice blk
  let bs := (f.data.drop w.1).take w.2
  let a := f.addr + w.1
  let s := match s.place a with
    | .basin o _ => s.settle o
    | .cistern o _ => s.settle o
    | _ => s
  match s.readBlock (4096 * blk) with
  | (data, some bib) =>
    let data' := splice data (a - 4096 * blk) bs
    let new := mkBib (bibTag bib) (bibIdx bib).toNat (crc32c data')
    s.writeBlock (4096 * blk) data' (if hubBad ∧ s.dieAt a ≠ some (dieOf k) then invertCrc new else new) (.core k)
  | (_, none) =>
    match s.place a with
    | .basin o _ => s.wrOutside o a bs
    | .cistern o _ => s.wrOutside o a bs
    | _ => s.wr a bs

/-- The write of a completed far load issued in cycle `cyc`, in the load slot's place among the cycle's writes (R143, R144, R172). -/
def State.farLoadWrite (s : State) (k : CoreId) (w : Wr) (cyc : Nat) : State :=
  let s := s.settle k
  let c := s.core k
  let hits := c.landed.filter fun x => x.1 != SlotId.load && x.2.meets w
  let loses := (hits.any fun x => decide (x.1.rank < SlotId.load.rank)) ||
    c.landedLoads.any fun x => x.1.meets w && decide (cyc < x.2)
  let s := if loses then s else s.applyWr k w
  let s := if hits.isEmpty then s else s.updCore k fun c => c.flag WCOLL
  s.updCore k fun c => { c with landed := c.landed ++ [(.load, w)], landedLoads := c.landedLoads ++ [(w, cyc)] }

/-- The bib's `CRC` and the `CRC` found, for the record of a data fault: as the block stands where it fails as it stands, and a free
value for what a corrupted flight delivered. -/
def State.farCrcs (s : State) (blk : Nat) : (Nat × BitVec 32 × BitVec 32) × State :=
  let r := s.readBlock (4096 * blk)
  if s.farCheck blk then
    let n := s.takeFresh
    ((4096 * blk, bibCrc (r.2.getD 0), (Config.freeWord n.1).extractLsb' 0 32), n.2)
  else ((4096 * blk, bibCrc (r.2.getD 0), crc32c r.1), s)

/-- Far access `i` of core k has completed both its block accesses (R172, R200, R337): a load's data land, the counter is raised once; with
a block lost, no data are delivered, nothing is raised, and the fault is reported. -/
def State.farEnd (s : State) (k : CoreId) (i : Nat) (f : FarAcc) : State :=
  let s := s.updCore k fun c => { c with far := dropAt c.far i }
  match f.lost with
  | some e => s.farFault k e.1 e.2.1 e.2.2
  | none =>
    let s := if f.store then s
      else s.farLoadWrite k (loadWr f.f f.dst (f.blocks.flatMap fun b =>
        ((f.served.find? fun x => x.blk == b).map (·.got)).getD [])) f.cyc
    s.deliver k [(f.ctr, 1)]

/-- The access of block `j` of far access `i` of core k completes, with the whole access where it is the last (R172, R200, R201, R337): a block
that fails its check is fetched again once, and is lost when it fails again. -/
def State.farComplete (s : State) (k : CoreId) (i j : Nat) (d : FarDone) : State :=
  let s := s.settle k
  match (s.core k).far[i]? with
  | none => s
  | some f =>
    match f.inService j with
    | none => s
    | some x =>
      let b := x.blk
      let last := f.lastBut b
      if (last && earlierSame (s.core k).far i f) || !s.dieReaches (dieOf k) (4096 * b) then s
      else s.readSram (4096 * b) (if f.store then d.upset else .none) fun s =>
        let bad := d.corrupt || x.bad || (f.store && !s.farCheck b)
        if bad && !f.retried.contains b then
          s.updFar k i fun f => { f with served := f.served.filter fun y => y.blk != b, retried := f.retried ++ [b] }
        else
          let r := if bad then s.farCrcs b else ((0, 0, 0), if f.store then s.farMerge k f b d.hubBad else s)
          let f' : FarAcc := { f with
            served := f.served.map fun y => if y.blk = b then { y with fin := true } else y
            lost := if bad ∧ f.lost.isNone then some r.1 else f.lost }
          if last then r.2.farEnd k i f' else r.2.updFar k i fun _ => f'

/-- FAR_ACCESS_COMPLETE (R172, R200). -/
def execFarAccessComplete (k : CoreId) (b : FarBlkNo) (d : FarDone) (s : State) : Host.Outcome State Fault Refusal :=
  atCore k s fun s => s.farComplete k b.acc b.blk.val d

end Sys2Proof.Machine
end

