-- ==== Sys2Proof/Machine/Fdl.lean ====
section
/-! DEFINITION. The Florel Die Link (R373-R393): training, negotiation and width agreement, calibration in stride and by window,
bundles that leave and rejoin service, units with their checks and resends, partial resets. -/

namespace Sys2Proof.Machine

/-! ### The ends of a port -/

/-- The other end. -/
def otherEnd : LinkEnd → LinkEnd
  | .hub => .die
  | .die => .hub

def DieLink.at (l : DieLink) : LinkEnd → LinkPort
  | .hub => l.hub
  | .die => l.die

def DieLink.upd (l : DieLink) (e : LinkEnd) (f : LinkPort → LinkPort) : DieLink :=
  match e with
  | .hub => { l with hub := f l.hub }
  | .die => { l with die := f l.die }

/-- The lane set of a bundle in one direction (true: up). -/
def DieLink.lanes (l : DieLink) (up : Bool) (b : Fin 12) : LaneSet := if up then l.upLanes[b] else l.downLanes[b]

def DieLink.updLanes (l : DieLink) (up : Bool) (b : Fin 12) (f : LaneSet → LaneSet) : DieLink :=
  if up then { l with upLanes := vupd l.upLanes b f } else { l with downLanes := vupd l.downLanes b f }

/-- The place of a lane set among an end's counts. -/
def laneIx (up : Bool) (b : Fin 12) : Fin 24 := ⟨2 * b.val + (if up then 1 else 0), by split <;> omega⟩

/-- One lane set's counts changed at both ends, which hear of them by the sideband (R392). [DEDUCED: log 56] -/
def DieLink.count (l : DieLink) (up : Bool) (b : Fin 12) (f : LaneCount → LaneCount) : DieLink :=
  let g (x : LinkPort) : LinkPort := { x with counts := vupd x.counts (laneIx up b) f }
  { l with hub := g l.hub, die := g l.die }

/-- The mask bit of a bundle. -/
def bundleBit (b : Fin 12) : BitVec 12 := 1 <<< b.val

/-- The direction that an end receives: the hub end receives up (R374). -/
def rxUp : LinkEnd → Bool
  | .hub => true
  | .die => false

def State.link (s : State) (p : DieId) : DieLink := s.links[p]
def State.updLink (s : State) (p : DieId) (f : DieLink → DieLink) : State := { s with links := vupd s.links p f }
def State.updEnd (s : State) (p : DieId) (e : LinkEnd) (f : LinkPort → LinkPort) : State := s.updLink p fun l => l.upd e f

/-- Both ends changed. -/
def State.updBoth (s : State) (p : DieId) (f : LinkPort → LinkPort) : State :=
  s.updLink p fun l => { l with hub := f l.hub, die := f l.die }

/-- An end sends a sideband message. -/
def State.sideband (s : State) (p : DieId) (e : LinkEnd) (m : Sideband) : State :=
  s.updEnd p e fun x => { x with sbOut := x.sbOut ++ [m] }

/-- An event record about a port (R393): `DIE` names its compute die. -/
def State.emitLink (s : State) (evt sev : Byte) (p : DieId) (detail : Nat) : State :=
  s.emit evt sev (BitVec.ofNat 8 p.val) 0x7F (BitVec.ofNat 64 detail) 0 false

/-! ### Capabilities and negotiation (R381) -/

/-- `FDL_CAP` of an end (Table: `FDL_CAP`). -/
def fdlCap : LinkEnd → Word
  | .hub => 0x0A511011FC000700
  | .die => 0x0A511012FC000700

/-- The highest bit set of a field of 4 bits. -/
def highestBit (v : BitVec 4) : Option Nat := [3, 2, 1, 0].find? fun i => v.getLsbD i

/-- The negotiated result of two `FDL_CAP` values (R381); none where training fails with cause NEG. [DEDUCED: log 54] -/
def negotiate (own theirs : Word) : Option LinkNeg :=
  if fld own 44 4 ≠ fld theirs 44 4 then none
  else
    match highestBit (own.extractLsb' 28 4 &&& theirs.extractLsb' 28 4) with
    | none => none
    | some r =>
      let n := min (fld own 24 4) (fld theirs 24 4)
      let feat : Byte := own.extractLsb' 8 8 &&& theirs.extractLsb' 8 8
      some {
        npmaj := own.extractLsb' 44 4, npmin := BitVec.ofNat 4 (min (fld own 40 4) (fld theirs 40 4)), nrate := BitVec.ofNat 4 r,
        nboff := BitVec.ofNat 4 n, nfeat := feat, low := decide (r < 3 ∨ n < 12) || feat != own.extractLsb' 8 8 }

/-- `FDL_NEG` (Table: `FDL_NEG`). -/
def LinkNeg.word (n : LinkNeg) : Word :=
  BitVec.ofNat 64 (n.npmaj.toNat <<< 60 + n.npmin.toNat <<< 56 + n.nrate.toNat <<< 52 + n.nboff.toNat <<< 48 +
    n.nfeat.toNat <<< 40 + (if n.low then 1 else 0))

/-- The agreed part of a result: `NEGLOW` is each end's own. [DEDUCED: log 54] -/
def negAgrees (n : LinkNeg) (v : Word) : Bool := n.word.extractLsb' 40 24 == v.extractLsb' 40 24

/-- Agreed features (R381). -/
def LinkPort.instride (x : LinkPort) : Bool := x.neg.nfeat.getLsbD 0
def LinkPort.widthChange (x : LinkPort) : Bool := x.neg.nfeat.getLsbD 1
def LinkPort.fastFeature (x : LinkPort) : Bool := x.neg.nfeat.getLsbD 2

/-! ### Loss of a die (R383, Table: Fault classes) -/

/-- The module is covered by a declared backup in every group that it is a member of (R309, R349). [DEDUCED: log 59] -/
def State.backedUp (s : State) : Bool :=
  let own := s.baton.groups.filter fun g => g.2.valid
  !own.isEmpty && own.all fun g =>
    match Sparse.find s.baton.members (g.2.slotbase.toNat + g.2.myrank.toNat) with
    | some m => m.ep == s.dxt.myep && m.backup != 0xFFFFFF
    | none => false

/-- DIE_FAULT (R26, R348, R383): the Clerk stops every queue of the module and reports the die. Commands on the die's own
engines
end at once. [DEDUCED: log 59] -/
def State.dieFault (s : State) (d : DieId) : State :=
  ((s.killAll fun x => x.onDie d).stopAll fun x => !x.onDie d).emit 0x10 (if s.backedUp then 1 else 2) (BitVec.ofNat 8 d.val) 0x7F (BitVec.ofNat 64 d.val) 0 false

/-- The disagreements of masks since a link was last ACTIVE, the hub end's mask first: as the hub end has seen them, or the
die end where it has
seen more. [DEDUCED: log 54] -/
def DieLink.disagreed (l : DieLink) : List (BitVec 12 × BitVec 12) :=
  if l.hub.disagreed.length < l.die.disagreed.length then l.die.disagreed.map fun d => (d.2, d.1) else l.hub.disagreed

/-- Every disagreement of masks reported with the resolution reached (R390). [DEDUCED: log 54] -/
def State.reportDisagree (s : State) (p : DieId) (resol : Nat) : State :=
  ((s.link p).disagreed.foldl (fun s d => s.emitLink 0x1C 0 p (d.1.toNat + d.2.toNat <<< 12 + resol <<< 24)) s).updBoth p fun x =>
    { x with disagreed := [] }

/-- Both ends enter FAILED (R383). [DEDUCED: log 54] -/
def State.failLink (s : State) (p : DieId) (cause : Nat) : State :=
  let l := s.link p
  if l.hub.lstate = .failed ∧ l.die.lstate = .failed then s
  else
    let s := (s.reportDisagree p 0).updBoth p fun x =>
      { x with lstate := .failed, fcause := BitVec.ofNat 4 (if x.recoverFailed then 5 else cause), wmask := 0, sendMask := 0, switch := none }
    s.dieFault p

/-! ### Training (R379, R383, R389) -/

/-- An end enters SB_INIT and sends its `FDL_CAP`; the fourth successive training without ACTIVE fails (R383). [DEDUCED: log
54] -/
def State.enterTraining (s : State) (p : DieId) (e : LinkEnd) (t : Training) : State :=
  let x := (s.link p).at e
  if 3 ≤ x.attempts then s.failLink p 4
  else
    let t : Training := if t = .fast ∧ x.record.isNone then .full else t
    let s := s.updEnd p e fun x =>
      { x with lstate := .sbInit, training := t, pcap := 0, pneg := none, pmaskIn := none, negDiffered := false,
               attempts := x.attempts + 1, retrains := sat8 x.retrains 1, sbOut := x.sbOut ++ [.cap (fdlCap e)] }
    s.updLink p fun l => { l with away := 0 }

/-- Full training of both ends. -/
def State.trainBoth (s : State) (p : DieId) : State := (s.enterTraining p .hub .full).enterTraining p .die .full

/-- The states of a training in progress. -/
def LinkPort.inTraining (x : LinkPort) : Bool :=
  match x.lstate with
  | .sbInit => true
  | .negotiate => true
  | .laneTest => true
  | .calibrate => true
  | .widthAgree => true
  | _ => false

/-- A link that carries traffic. -/
def DieLink.up (l : DieLink) : Bool := l.hub.lstate == .active && l.die.lstate == .active

/-- An end in NEGOTIATE judges the partner's result when it has come (R379 step 2, R381). [DEDUCED: log 54] -/
def State.judgeNeg (s : State) (p : DieId) (e : LinkEnd) : State :=
  let x := (s.link p).at e
  match x.lstate, x.pneg with
  | .negotiate, some v =>
    if negAgrees x.neg v then
      let s := s.updEnd p e fun x => { x with lstate := .laneTest, pneg := none }
      if x.neg.low then s.emitLink 0x1E 0 p x.pcap.toNat else s
    else if x.negDiffered then s.failLink p 1
    else
      s.updEnd p e fun x =>
        { x with negDiffered := true, pneg := none, sbOut := x.sbOut ++ [.negResult x.neg.word] }
  | _, _ => s

/-- Healthy lanes of a set that carry no data lane, lowest first (R373). [DEDUCED: log 56] -/
def LaneSet.free (x : LaneSet) : List (Fin 18) := (List.finRange 18).filter fun i => !x.fail.getLsbD i.val && !x.map.contains i

/-- A set after some of its lanes have failed: a free lane takes the place of each data lane that failed, as far as they
reach. [DEDUCED: log 56] -/
def LaneSet.refill (x : LaneSet) : LaneSet :=
  let keep := x.map.filter fun i => !x.fail.getLsbD i.val
  let spare := x.free.take (16 - keep.length)
  if keep.length + spare.length < 16 then { x with map := [] }
  else
    let step (acc : List (Fin 18) × List (Fin 18)) (i : Fin 18) : List (Fin 18) × List (Fin 18) :=
      if x.fail.getLsbD i.val then (acc.1 ++ [acc.2.headD 0], acc.2.tail) else (acc.1 ++ [i], acc.2)
    { x with map := (x.map.foldl step ([], spare)).1 }

/-- The lane maps of an end's record put back for its receiving direction, but for lanes that have failed since, with the margins of their
calibration (R389). [DEDUCED: log 56] -/
def State.restoreMaps (s : State) (p : DieId) (e : LinkEnd) (r : TrainRecord) : State :=
  (List.finRange 12).foldl (fun s b =>
    (s.updLink p fun l => l.updLanes (rxUp e) b fun y =>
      ({ y with map := r.maps.getD b.val y.map, misses := 0, next := 0, least := 0xFF } : LaneSet).refill).updEnd p e fun x =>
        { x with counts := vupd x.counts (laneIx (rxUp e) b) fun c => { c with wmargin := r.margins.getD b.val c.wmargin } }) s

/-- An end in SB_INIT receives the partner's `FDL_CAP`: it goes on with its own result, or in fast retraining with the result and the lane maps
of its training record (R379, R389). [DEDUCED: log 54] -/
def State.takeCap (s : State) (p : DieId) (e : LinkEnd) (v : Word) : State :=
  let x := (s.link p).at e
  match x.training, x.record with
  | .fast, some r => (s.restoreMaps p e r).updEnd p e fun x => { x with pcap := v, neg := r.neg, lstate := .calibrate }
  | _, _ =>
    match negotiate (fdlCap e) v with
    | none => (s.updEnd p e fun x => { x with pcap := v }).failLink p 1
    | some n =>
      (s.updEnd p e fun x =>
        { x with pcap := v, neg := n, lstate := .negotiate, sbOut := x.sbOut ++ [.negResult n.word] }).judgeNeg p e

/-- The number of a lane in the lane history. -/
def laneNo (p : DieId) (up : Bool) (b : Fin 12) (i : Nat) : Nat := ((p.val * 2 + (if up then 1 else 0)) * 12 + b.val) * 18 + i

/-- A lane is kept out: by the factory repair record, or for having failed at three separate starts (R380). -/
def Flash.laneOut (f : Flash) (n : Nat) : Bool :=
  f.repairs.contains n ||
    (match Sparse.find f.lanes n with
     | some h => decide (3 ≤ h.1)
     | none => false)

/-- A failure of a lane entered into the lane history: one per start. -/
def Flash.laneFailed (f : Flash) (n : Nat) : Flash :=
  match Sparse.find f.lanes n with
  | some h => if h.2 = f.starts then f else { f with lanes := Sparse.put f.lanes n (h.1 + 1, f.starts) }
  | none => { f with lanes := Sparse.put f.lanes n (1, f.starts) }

/-- Lanes of a set have become failed in the field: history, count at the receiving end, LANE_REPAIR with the free lanes that the set is left
with (R385, R393). [DEDUCED: log 56] -/
def State.tellLanes (s : State) (p : DieId) (up : Bool) (b : Fin 12) (l : List (Fin 18)) : State :=
  let x := (s.link p).lanes up b
  let left := if x.map.length = 16 then x.free.length else 0
  l.foldl (fun s i =>
    let s : State := { s with flash := s.flash.laneFailed (laneNo p up b i.val) }
    let s := s.updEnd p (if up then .hub else .die) fun x => { x with lrepairs := sat8 x.lrepairs 1 }
    s.emitLink 0x1D 0 p (b.val + (if up then 16 else 0) + i.val <<< 8 + left <<< 13)) s

/-- A set's count of mismatches starts again where another free lane is the one in turn (R385). -/
def LaneSet.recount (x : LaneSet) (turn : Option (Fin 18)) : LaneSet := if x.free.head? = turn then x else { x with misses := 0 }

/-- Lanes of a set become failed, and free lanes take the places of data lanes among them (R385, R386). [DEDUCED: log 56] -/
def State.laneFails (s : State) (p : DieId) (up : Bool) (b : Fin 12) (l : List (Fin 18)) : State :=
  let x := (s.link p).lanes up b
  let l := (l.filter fun i => !x.fail.getLsbD i.val).eraseDups
  (s.updLink p fun k => k.updLanes up b fun x =>
    (({ x with fail := l.foldl (fun m i => m ||| (1 <<< i.val)) x.fail } : LaneSet).refill).recount x.free.head?).tellLanes p up b l

/-- LANE_TEST of one set (R380): which lanes pass; the 16 lowest-numbered carry data. -/
def State.testSet (s : State) (p : DieId) (up : Bool) (b : Fin 12) (pass : BitVec 18) : State :=
  let out (i : Fin 18) : Bool := s.flash.laneOut (laneNo p up b i.val)
  let good := (List.finRange 18).filter fun i => !out i && pass.getLsbD i.val
  let old := ((s.link p).lanes up b).fail
  let failing := (List.finRange 18).filter fun i => !out i && !pass.getLsbD i.val && !old.getLsbD i.val
  (s.updLink p fun l => l.updLanes up b fun x =>
    let fail := (List.finRange 18).foldl (fun (m : BitVec 18) i => if good.contains i then m else m ||| (1 <<< i.val)) 0
    { x with map := if 16 ≤ good.length then good.take 16 else [], fail := fail, misses := 0, next := 0 }).tellLanes p up b failing

/-- The bundles whose set has 16 data lanes in a direction. -/
def DieLink.full (l : DieLink) (up : Bool) (b : Fin 12) : Bool := (l.lanes up b).map.length == 16

/-- The bundles whose receiving set at an end has 16 data lanes: what it reports to its partner (R382). -/
def DieLink.report (l : DieLink) (e : LinkEnd) : BitVec 12 :=
  (List.finRange 12).foldl (fun (m : BitVec 12) b => if l.full (rxUp e) b then m ||| bundleBit b else m) 0

/-- The mask that an end offers (R382): the bundles offered, its own receiving sets, what the partner has reported of its, and but for full
training its record. -/
def DieLink.offer (l : DieLink) (e : LinkEnd) : BitVec 12 :=
  let x := l.at e
  (List.finRange 12).foldl (fun (m : BitVec 12) b =>
    let ok :=
      match x.training, x.record with
      | .full, _ => true
      | _, some r => r.mask.getLsbD b.val
      | _, none => false
    let ok := ok && decide (b.val < x.neg.nboff.toNat) && l.full (rxUp e) b && x.preport.getLsbD b.val
    if ok then m ||| bundleBit b else m) 0

/-- The bits set of a mask. [DEDUCED: log 55] -/
def maskCount (m : BitVec 12) : Nat := ((List.range 12).filter fun i => m.getLsbD i).length

/-- LINK_WIDTH (R387, R393), with the service mark. -/
def State.reportWidth (s : State) (p : DieId) (m : BitVec 12) : State :=
  (s.emitLink 0x1B 1 p (m.toNat + (maskCount m % 12) <<< 12)).mark 4

/-- The end of a DIE reset, once the die's link is ACTIVE again (R467, R474). [DEDUCED: log 75] -/
def State.dieReady (s : State) (p : DieId) : State :=
  if s.clerk.dieResets.contains p then
    ({ s with clerk := { s.clerk with dieResets := s.clerk.dieResets.filter fun d => d != p } } : State).emitHub 0x2A 0
      (3 + s.clerk.rsrc.toNat <<< 8 + p.val <<< 16)
  else s

/-- The record that the Clerk copies of an end (R389). -/
def DieLink.recordOf (l : DieLink) (e : LinkEnd) (mask : BitVec 12) : TrainRecord :=
  { neg := (l.at e).neg, mask := mask
    maps := (List.finRange 12).map fun b => (l.lanes (rxUp e) b).map
    margins := (List.finRange 12).map fun b => ((l.at e).counts[laneIx (rxUp e) b]).wmargin }

/-- An end enters ACTIVE on a mask (R382, R389, R390): the Clerk copies its record; a mask narrower than the last is a width
change. With both ends ACTIVE the disagreements are reported. -/
def State.enterActive (s : State) (p : DieId) (e : LinkEnd) (m : BitVec 12) (resol : Nat) : State :=
  let x := (s.link p).at e
  let last := if x.lastMask = 0 then m else x.lastMask
  let narrowed := last &&& ~~~m != 0 || (x.lastMask = 0 && decide (maskCount m < x.neg.nboff.toNat))
  let r := (s.link p).recordOf e x.ownmask
  let s := s.updEnd p e fun x =>
    { x with lstate := .active, wmask := m, resol := BitVec.ofNat 4 resol, fcause := 0, attempts := 0, recoverFailed := false,
             lastMask := m, record := some r, pmaskIn := none, txChunk := 0, sendMask := m, switch := none,
             wchanges := if narrowed then sat8 x.wchanges 1 else x.wchanges }
  let s := if (s.link p).up then s.reportDisagree p resol else s
  let s := if narrowed ∧ e = .hub then s.reportWidth p m else s
  if (s.link p).up then s.dieReady p else s

/-- An end in WIDTH_AGREE judges the partner's mask when it has come (R382, R390). [DEDUCED: log 54, 55] -/
def State.judgeMask (s : State) (p : DieId) (e : LinkEnd) : State :=
  let x := (s.link p).at e
  match x.lstate, x.pmaskIn with
  | .widthAgree, some m =>
    let s := s.updEnd p e fun x => { x with pmask := m }
    if m = x.ownmask then
      if m = 0 then s.failLink p 2 else s.enterActive p e m (if x.disagreed.isEmpty then 1 else 2)
    else
      let s := s.updEnd p e fun x => { x with disagreed := x.disagreed ++ [(x.ownmask, m)] }
      if x.training = .full then
        if m &&& x.ownmask = 0 then s.failLink p 2 else s.enterActive p e (m &&& x.ownmask) 3
      else s.enterTraining p e .full
  | _, _ => s

/-! ### Sideband events -/

/-- A message that was on its way from the partner has arrived. -/
def State.takeSideband (s : State) (p : DieId) (e : LinkEnd) (m : Sideband) : State :=
  s.updEnd p (otherEnd e) fun x => { x with sbOut := x.sbOut.erase m }

/-- Units of the replay buffer that are to be sent again, those from `useq` on. [DEDUCED: log 57] -/
def LinkPort.resendFrom (x : LinkPort) (useq : BitVec 12) : LinkPort :=
  { x with resend := x.resend ++ ((x.replay.map fun u => u.header.extractLsb' 36 12).filter fun v =>
      decide ((v - useq).toNat < 2048) && !x.resend.contains v) }

/-- An end's striping changes (R387): at the unit `useq`; where that one has been sent, at once, with it and what follows
sent again. [DEDUCED: log 57] -/
def LinkPort.changeMask (x : LinkPort) (m useq : BitVec 12) : LinkPort :=
  if x.txNext ≠ useq ∧ (useq - x.txNext).toNat < 2048 then { x with switch := some (useq, m) }
  else { x with sendMask := m, switch := none }.resendFrom useq

/-- A bundle's bit cleared in an end's mask until the next full training (R387): the new striping applies from `useq` on, and the partner's set is
known to lack lanes where it told so. -/
def State.dropBit (s : State) (p : DieId) (e : LinkEnd) (b : Fin 12) (useq : BitVec 12) (told : Bool) : State :=
  let x := (s.link p).at e
  if x.lstate = .active ∧ x.wmask.getLsbD b.val = true then
    let m := x.wmask &&& ~~~bundleBit b
    let r := (s.link p).recordOf e (x.ownmask &&& ~~~bundleBit b)
    let away := (s.link p).away
    let s := s.updEnd p e fun x =>
      { x with wmask := m, lastMask := m, ownmask := x.ownmask &&& ~~~bundleBit b, wchanges := sat8 x.wchanges 1, record := some r,
               preport := if told then x.preport &&& ~~~bundleBit b else x.preport }.changeMask (m &&& ~~~away) useq
    let s := if e = .hub then s.reportWidth p m else s
    if m = 0 then s.failLink p 2 else s
  else s

/-- SIDEBAND_MESSAGE (R379, R382, R387, R389-R391). An end that is DOWN or FAILED takes no message. The two ends name the chunk of a
lane switch to each other, and nothing waits for it (R384). -/
def execSidebandMessage (p : DieId) (e : LinkEnd) (m : Sideband) (s : State) : Host.Outcome State Fault Refusal :=
  atLink p s fun s =>
    let s := s.takeSideband p e m
    let x := (s.link p).at e
    match m with
    | .cap v => if x.lstate = .sbInit then s.takeCap p e v else s
    | .negResult v =>
      if x.lstate = .sbInit ∨ x.lstate = .negotiate then (s.updEnd p e fun x => { x with pneg := some v }).judgeNeg p e else s
    | .mask m =>
      if x.inTraining = true ∧ x.lstate ≠ .sbInit then (s.updEnd p e fun x => { x with pmaskIn := some m }).judgeMask p e else s
    | .resetNotice full =>
      if x.lstate = .down ∨ x.lstate = .failed then s
      else s.enterTraining p e (if full = true ∨ x.fastFeature = false then .full else .fast)
    | .dropBundle b useq => s.dropBit p e b useq true
    | .switchLane _ _ _ _ => s

/-- SIDEBAND_TIMEOUT (R379, R383, R388): SB0 is silent for 1 ms and both ends move to SB1; with both silent the link fails. -/
def execSidebandTimeout (p : DieId) (e : LinkEnd) (s : State) : Host.Outcome State Fault Refusal :=
  atLink p s fun s =>
    let x := (s.link p).at e
    if x.lstate = .down ∨ x.lstate = .failed then s
    else if x.sb1 then s.failLink p 3
    else s.updBoth p fun x => { x with sb1 := true }

/-- FDL_CAP_REPEAT (R379): an end in SB_INIT sends its `FDL_CAP` again. -/
def execFdlCapRepeat (p : DieId) (e : LinkEnd) (s : State) : Host.Outcome State Fault Refusal :=
  atLink p s fun s => if ((s.link p).at e).lstate = .sbInit then s.sideband p e (.cap (fdlCap e)) else s

/-- LINK_PHASE_END (R378, R379, R389): the end of LANE_TEST, with the lanes that passed in each bundle of the end's receiving
direction; of CALIBRATE; or of the first part of RECOVER. -/
def execLinkPhaseEnd (p : DieId) (e : LinkEnd) (lanes : List (BitVec 18)) (s : State) : Host.Outcome State Fault Refusal :=
  atLink p s fun s =>
    let x := (s.link p).at e
    let y := (s.link p).at (otherEnd e)
    match x.lstate with
    | .laneTest =>
      let s := (List.finRange 12).foldl (fun s b => s.testSet p (rxUp e) b (lanes.getD b.val 0)) s
      s.updEnd p e fun x => { x with lstate := .calibrate }
    | .recover => s.updEnd p e fun x => { x with lstate := .calibrate }
    | .calibrate =>
      if x.training = .full ∧ y.lstate ≠ .calibrate ∧ y.lstate ≠ .widthAgree ∧ y.lstate ≠ .active then s
      else
        let s := if x.training = .full then s.updEnd p e fun x => { x with preport := (s.link p).report (otherEnd e) } else s
        let m := (s.link p).offer e
        (s.updEnd p e fun x => { x with lstate := .widthAgree, ownmask := m, sbOut := x.sbOut ++ [.mask m] }).judgeMask p e
    | _ => s

/-- Both ends enter RECOVER (R377, R378): CALIBRATE on the lane maps as they are. [DEDUCED: log 58] -/
def State.recover (s : State) (p : DieId) : State :=
  (s.updBoth p fun x =>
    { x with lstate := .recover, training := .recover, recovers := sat8 x.recovers 1, pneg := none, pmaskIn := none }).updLink p
    fun l => { l with away := 0 }

/-- RECOVER_TIMEOUT (R383): RECOVER has not returned to ACTIVE; full training follows, and its failure is final. -/
def execRecoverTimeout (p : DieId) (s : State) : Host.Outcome State Fault Refusal :=
  atLink p s fun s =>
    let l := s.link p
    let late (x : LinkPort) : Bool := x.training == .recover && (x.lstate == .recover || x.inTraining)
    if late l.hub || late l.die then
      (s.updBoth p fun x => { x with recoverFailed := true }).trainBoth p
    else s

/-- PRESET (R389, R391): one end's port is reset and enters fast retraining, or in a training full training; its replay buffer,
sequence numbers, pending acknowledgements and training record are kept, the counts of its registers start again (R392). -/
def State.presetEnd (s : State) (p : DieId) (e : LinkEnd) : State :=
  let x := (s.link p).at e
  let full := x.inTraining || ((s.link p).at (otherEnd e)).inTraining || !x.fastFeature
  let t : Training := if full then .full else .fast
  let s := s.updEnd p e fun x =>
    { LinkPort.reset with
      attempts := x.attempts, lastMask := x.lastMask, record := x.record, txNext := x.txNext, replay := x.replay,
      resend := x.replay.map fun u => u.header.extractLsb' 36 12, rxNext := x.rxNext, early := x.early, held := x.held,
      asked := x.asked, acks := x.acks, delivered := x.delivered, preport := x.preport, disagreed := x.disagreed, recoverFailed := x.recoverFailed,
      sbOut := [.resetNotice full] }
  s.enterTraining p e t

/-- `PRESET` written as 1. A FAILED port trains again only at RETRAIN (R383). -/
def State.presetWrite (s : State) (p : DieId) (e : LinkEnd) : State :=
  let x := (s.link p).at e
  if x.lstate = .down ∨ x.lstate = .failed then s else s.presetEnd p e

/-- Host software reaches the registers of an end: those of the die end while the die is not cut off, nor stopped, nor under reset (R26,
R383). [DEDUCED: log 18] -/
def State.endReached (s : State) (p : DieId) : LinkEnd → Bool
  | .hub => true
  | .die => !s.dieOut p

/-- PRESET written to an end's `FDL_CTL` (R389, R392). -/
def execPreset (p : DieId) (e : LinkEnd) (s : State) : Host.Outcome State Fault Refusal :=
  atLink p s fun s => s.ifOpen 0 fun s => if s.endReached p e then s.presetWrite p e else s

/-- `RETRAIN` written as 1: both ends train. -/
def State.retrainWrite (s : State) (p : DieId) : State :=
  (s.updBoth p fun x => { x with attempts := 0, recoverFailed := false, disagreed := [], fcause := 0 }).trainBoth p

/-- RETRAIN (R383, R392): full training at both ends from any state. -/
def execRetrain (p : DieId) (e : LinkEnd) (s : State) : Host.Outcome State Fault Refusal :=
  atLink p s fun s => s.ifOpen 0 fun s => if s.endReached p e then s.retrainWrite p else s

/-! ### Calibration (R384-R388) -/

/-- Both ends' `CALEN` are set (R392). -/
def DieLink.calibrates (l : DieLink) : Bool := l.up && l.hub.calen && l.die.calen

/-- The next step of a rotation, whose least eye width so far is `m` (R384). -/
def LaneSet.passOn (y : LaneSet) (m : Byte) : LaneSet :=
  { y with next := y.next + 1, least := if y.next = 15 then 0xFF else m }

/-- After the step of lane 15 the rotation's least eye width becomes `WMARGIN` (R384, R392). -/
def LaneCount.passOn (c : LaneCount) (step : Fin 16) (m : Byte) : LaneCount := { c with wmargin := if step = 15 then m else c.wmargin }

/-- An eye width in 1/256 UI is at least 0.30 UI (R380, R384). -/
def eyeGood (eye : Byte) : Bool := decide (77 ≤ eye.toNat)

/-- A bundle is calibrated by window (R386): in-stride calibration is not negotiated, or one of its sets has no free lane. -/
def DieLink.byWindow (l : DieLink) (b : Fin 12) : Bool :=
  !l.hub.instride || (l.lanes true b).free.isEmpty || (l.lanes false b).free.isEmpty

/-- INSTRIDE_CAL_STEP (R384, R385): the free lane takes over the next data lane, which becomes free or failed; a mismatch
abandons
the step. `healthy`: the lane that is re-centred shows no error; `eye`: its eye width, in 1/256 UI. Both ends name the chunk of the switch on
the sideband. [DEDUCED: log 56] -/
def execInstrideCalStep (p : DieId) (b : Fin 12) (dir : Bool) (mismatch healthy : Bool) (eye : Byte) (s : State) :
    Host.Outcome State Fault Refusal :=
  atLink p s fun s =>
    let l := s.link p
    let x := l.lanes dir b
    match x.free with
    | [] => s
    | f :: _ =>
      if !l.calibrates || !l.hub.instride || !l.hub.wmask.getLsbD b.val || l.away.getLsbD b.val || x.map.length != 16 then s
      else
        if mismatch then
          let s := s.updLink p fun l => (l.updLanes dir b fun y =>
            ({ y with misses := y.misses + 1 } : LaneSet).passOn y.least).count dir b fun c =>
              { c with shmis := sat16 c.shmis 1 }.passOn x.next x.least
          if 2 ≤ x.misses then s.laneFails p dir b [f] else s
        else
          let old := x.map.getD x.next.val 0
          let m := if eye < x.least then eye else x.least
          let chunk := (if dir then l.die else l.hub).txChunk
          let s := (s.updLink p fun l => (l.updLanes dir b fun y =>
            ({ y with map := y.map.set y.next.val f, misses := 0 } : LaneSet).passOn m).count dir b fun c => c.passOn x.next m).updBoth p fun z =>
              { z with sbOut := z.sbOut ++ [.switchLane b dir x.next chunk] }
          if healthy && eyeGood eye then s else s.laneFails p dir b [old]

/-- WINDOW_CALIBRATION (R386, R387): a bundle out of service for its window is re-centred; lanes that fail become failed, and
a
bundle with fewer than 16 healthy lanes in a set does not rejoin: the receiving end drops it, with the `USEQ` from which the new striping
applies. [DEDUCED: log 56] -/
def execWindowCalibration (p : DieId) (b : Fin 12) (w : WindowEnd) (s : State) :
    Host.Outcome State Fault Refusal :=
  atLink p s fun s =>
    let l := s.link p
    if !l.calibrates || !l.byWindow b || !l.away.getLsbD b.val then s
    else
      let lost (up : Bool) : List (Fin 18) := (w.failed.filter fun f => f.1 == up).map (·.2)
      let s := (s.laneFails p true b (lost true)).laneFails p false b (lost false)
      let drop (s : State) (e : LinkEnd) : State :=
        if (s.link p).full (rxUp e) b then s
        else
          ((s.updLink p fun l => { l with away := l.away &&& ~~~bundleBit b }).sideband p e (.dropBundle b w.useq)).dropBit p e b w.useq false
      drop (drop s .hub) .die

/-! ### Units (R376, R377) -/

/-- One bit into the CRC-16 of a unit header. -/
def crc16Bit (c : BitVec 16) (bit : Bool) : BitVec 16 := if c.msb != bit then (c <<< 1) ^^^ 0x8BB7 else c <<< 1

/-- `HCRC`: CRC-16 of header bits [47:0], the highest first. [DEDUCED: log 57] [PRESUMED: log 78] -/
def headerCrc (h : Word) : BitVec 16 := ((List.range 48).map fun i => h.getLsbD (47 - i)).foldl crc16Bit 0

def unitSeq (u : LinkUnit) : BitVec 12 := u.header.extractLsb' 36 12
def unitKind (u : LinkUnit) : Nat := fld u.header 30 3
def unitVc (u : LinkUnit) : BitVec 3 := u.header.extractLsb' 33 3
def unitDest (u : LinkUnit) : Nat := fld u.header 24 6

/-- The header fails: its CRC or a reserved `KIND`. -/
def headerBad (u : LinkUnit) : Bool := u.header.extractLsb' 48 16 != headerCrc u.header || decide (4 ≤ unitKind u)

/-- The contents' length of each kind (Table: Link units). -/
def unitBytes (kind : Nat) : Nat := if kind = 0 then 4104 else if kind = 1 then 56 else 8

/-- A message whose CRC-32C of bytes 0-59 is wrong. -/
def messageBad (u : LinkUnit) : Bool :=
  crc32c (natLe 8 u.header.toNat ++ u.payload.take 52) != BitVec.ofNat 32 (leNat (u.payload.drop 52))

/-- A block that passes between two die ports and fails the hub's check (R327). -/
def hubCheckFails (e : LinkEnd) (u : LinkUnit) : Bool :=
  e == .hub && unitKind u == 0 && decide (unitDest u < 4) &&
    !crcOk (u.payload.take 4096) (BitVec.ofNat 64 (leNat (u.payload.drop 4096)))

/-- A block marked bad: its bib's `CRC` inverted (R327). -/
def badBlock (u : LinkUnit) : LinkUnit :=
  { u with payload := u.payload.take 4096 ++ natLe 8 (invertCrc (BitVec.ofNat 64 (leNat (u.payload.drop 4096)))).toNat }

/-- An acknowledgement unit. -/
def ackUnit (upTo : BitVec 12) (ask : Option (BitVec 12)) : LinkUnit :=
  let h : Word := 2 <<< 30
  let r := match ask with
    | some u => u.toNat
    | none => 0xFFFFFFFF
  ⟨h ||| ((headerCrc h).zeroExtend 64 <<< 48), natLe 4 upTo.toNat ++ natLe 4 r⟩

/-! ### Striping (R375, R387) -/

/-- A unit as the bytes of the stream. -/
def unitStream (u : LinkUnit) : List Byte := natLe 8 u.header.toNat ++ u.payload

/-- The unit that bytes of the stream spell. -/
def unitOfStream (bs : List Byte) : LinkUnit := ⟨BitVec.ofNat 64 (leNat (bs.take 8)), bs.drop 8⟩

/-- The active bundles over which an end sends, in ascending number (R375, R387). -/
def LinkPort.bundles (x : LinkPort) : List (Fin 12) := (List.finRange 12).filter fun b => x.sendMask.getLsbD b.val

/-- The 16-byte chunks of a stretch of the stream, each on its bundle: the stretch's first chunk is chunk `i` of the stream, and chunk i
travels on the (i mod w)-th active bundle, byte b of it on data lane b (R375). [DESIGN CHOICE: log 92] -/
def stripe (bs : List (Fin 12)) (i : Nat) (bytes : List Byte) : List (Fin 12 × List Byte) :=
  (List.range ((bytes.length + 15) / 16)).map fun j =>
    (bs.getD ((i + j) % bs.length) 0, (bytes.drop (16 * j)).take 16)

/-- The chunks as they arrive, with the bits flipped that the lanes flip. -/
def crossLanes (errs : List LaneErr) (l : List (Fin 12 × List Byte)) : List (Fin 12 × List Byte) :=
  l.mapIdx fun j c =>
    let nth := ((l.take j).filter fun d => d.1 == c.1).length
    (c.1, c.2.mapIdx fun b x => errs.foldl (fun x f =>
      if f.bundle = c.1 ∧ f.nth = nth ∧ f.lane.val = b then x ^^^ f.flip else x) x)

/-- The stream put together again by the receiver. -/
def unstripe (l : List (Fin 12 × List Byte)) : List Byte := l.flatMap fun c => c.2

/-- A unit as it arrives at the other end of a link, sent over some bundles from chunk `i` of the stream on. -/
def crosses (bs : List (Fin 12)) (i : Nat) (errs : List LaneErr) (u : LinkUnit) : LinkUnit :=
  unitOfStream (unstripe (crossLanes errs (stripe bs i (unitStream u))))

/-! ### Sending (R377) -/

/-- The bytes of a unit. -/
def unitSize (u : LinkUnit) : Nat := 8 + unitBytes (unitKind u)

/-- The replay buffer takes another unit: at most 2,048 units, in 256 KiB. -/
def LinkPort.hasRoom (x : LinkPort) (u : LinkUnit) : Bool :=
  decide (x.replay.length < 2048 ∧ (x.replay.map unitSize).sum + unitSize u ≤ 0x40000)

/-- Destinations of a direction (Table: Unit header): the ports of the on-die network downwards, of the hub crossbar upwards. -/
def destOk (e : LinkEnd) (u : LinkUnit) : Bool :=
  match e with
  | .hub => decide (unitDest u < 28)
  | .die => decide (unitDest u < 8)

/-- A unit is well formed as an end forms it (R376): a good header with a destination that there is and a good message; acknowledgement and idle
units carry `USEQ` 0, idle units zeros. -/
def unitFormed (e : LinkEnd) (u : LinkUnit) : Bool :=
  !headerBad u && u.payload.length == unitBytes (unitKind u) && !(unitKind u == 1 && messageBad u) && destOk e u &&
    (unitKind u < 2 || unitSeq u == 0) && (unitKind u != 3 || u.payload.all fun b => b == 0)

/-- The striping that applies from a new unit on (R387). -/
def LinkPort.switchAt (x : LinkPort) (useq : BitVec 12) : LinkPort :=
  match x.switch with
  | some (n, m) => if n = useq then { x with sendMask := m, switch := none } else x
  | none => x

/-- An end sends a unit: the next new one, kept in the replay buffer; one that it has been asked for; an acknowledgement that
it owes; or an
idle unit. Of other units it sends none. [DEDUCED: log 57] -/
def LinkPort.send (x : LinkPort) (e : LinkEnd) (u : LinkUnit) : Option LinkPort :=
  let y := { x with txChunk := x.txChunk + unitSize u / 16 }
  if unitFormed e u = false then none
  else if unitKind u = 3 then some y
  else if unitKind u = 2 then (if x.acks.contains u then some { y with acks := x.acks.erase u } else none)
  else if x.resend.contains (unitSeq u) ∧ x.replay.contains u then some { y with resend := x.resend.filter (· != unitSeq u) }
  else if unitSeq u = x.txNext ∧ x.hasRoom u = true then some ({ y with txNext := x.txNext + 1, replay := x.replay ++ [u] }.switchAt (unitSeq u))
  else none

/-- Every unit of the replay buffer is to be sent again. -/
def LinkPort.resendAll (x : LinkPort) : LinkPort := { x with resend := x.replay.map unitSeq }

/-! ### Receiving (R377) -/

/-- `USEQ` in the order of the numbers that count modulo 4,096. -/
def notAfter (a b : BitVec 12) : Bool := decide ((b - a).toNat < 2048)

/-- A unit put among those that wait. -/
def holdUnit (u : LinkUnit) : List LinkUnit → List LinkUnit
  | [] => [u]
  | v :: l => if notAfter (unitSeq u) (unitSeq v) then u :: v :: l else v :: holdUnit u l

/-- The least `USEQ` not received moves past those that have come. -/
def LinkPort.advance (x : LinkPort) : Nat → LinkPort
  | 0 => x
  | n + 1 =>
    if x.early.contains x.rxNext then
      ({ x with early := x.early.filter (· != x.rxNext), rxNext := x.rxNext + 1 } : LinkPort).advance n
    else x

/-- A unit that waits is held by an earlier one that is to be sent again: of its virtual channel, or of one that its failed header does not
tell. -/
def LinkPort.holds (x : LinkPort) (u : LinkUnit) : Bool :=
  x.asked.any fun a => notAfter a.useq (unitSeq u) && (a.vc.isNone || a.vc == some (unitVc u))

/-- A unit as it is handed over: at the port its header names, in its virtual channel, under its transfer context (R376). -/
def handUnit (u : LinkUnit) : LinkDelivery := ⟨unitDest u, unitVc u, u.header.extractLsb' 0 24, u⟩

/-- Units that nothing holds any more are handed over, in the order of `USEQ`. -/
def LinkPort.handOver (x : LinkPort) : LinkPort :=
  { x with
    held := x.held.filter x.holds
    delivered := x.delivered ++ (x.held.filter fun u => !x.holds u).map handUnit }

/-- A block or message that passes its checks, or a block that goes on marked bad: taken once, handed over in the order of its virtual
channel, and acknowledged. [DEDUCED: log 57] -/
def LinkPort.take (x : LinkPort) (u : LinkUnit) : LinkPort :=
  let n := unitSeq u
  let y : LinkPort :=
    if (n - x.rxNext).toNat < 2048 ∧ x.early.contains n = false then
      (({ x with
        early := x.early ++ [n], held := holdUnit u x.held
        asked := x.asked.filter fun a => a.useq != n } : LinkPort).advance (x.early.length + 1)).handOver
    else x
  { y with acks := y.acks ++ [ackUnit (y.rxNext - 1) none] }

/-- An acknowledgement taken: what it covers leaves the replay buffer, and the unit that it asks for is to be sent again
(R376). [DEDUCED: log 57] -/
def LinkPort.takeAck (x : LinkPort) (upTo : BitVec 12) (ask : Nat) : LinkPort :=
  let x := { x with replay := x.replay.filter fun v => !notAfter (unitSeq v) upTo }
  let n := BitVec.ofNat 12 ask
  if ask < 4096 ∧ (x.replay.any fun v => unitSeq v == n) = true ∧ x.resend.contains n = false then
    { x with resend := x.resend ++ [n] }
  else x

/-- An end asks for a unit once more; the second failure of a header or message puts the link into RECOVER, and the unit is sent once more
afterwards; so does the 64th block resend in 1 ms (R377, R378). [DEDUCED: log 57, 58] -/
def State.askAgain (s : State) (p : DieId) (e : LinkEnd) (useq : BitVec 12) (vc : Option (BitVec 3)) (block : Bool) : State :=
  let x := (s.link p).at e
  let now := s.power.ticks
  let stamps := if block then (x.resentAt.filter fun t => decide (now < t + 100)) ++ [now] else x.resentAt
  let many := block && decide (64 ≤ stamps.length)
  let stamps := if many then [] else stamps
  if (x.asked.any fun a => a.useq == useq && !a.bib) = true ∧ block = false then
    ((s.updEnd p (otherEnd e) fun y => { y with resend := y.resend ++ [useq] }).updEnd p e fun x =>
      { x with mresend := sat16 x.mresend 1 }).recover p
  else
    let s := s.updEnd p e fun x =>
      { x with asked := x.asked ++ [⟨useq, vc, block⟩], acks := x.acks ++ [ackUnit (x.rxNext - 1) (some useq)]
               bresend := if block then sat16 x.bresend 1 else x.bresend
               mresend := if block then x.mresend else sat16 x.mresend 1
               resentAt := stamps }
    if many then s.recover p else s

/-- A unit `v` has arrived at an end, where unit `u` was sent (R327, R376, R377). The receiver finds the number of a unit whose header fails
from the numbers around it; an acknowledgement or idle unit that fails is lost. [DEDUCED: log 57] -/
def State.receiveUnit (s : State) (p : DieId) (e : LinkEnd) (u v : LinkUnit) : State :=
  let x := (s.link p).at e
  if headerBad v ∨ v.payload.length ≠ unitBytes (unitKind v) then
    if unitKind u < 2 then s.askAgain p e (unitSeq u) none false else s
  else if unitKind v = 3 then s
  else if unitKind v = 2 then
    s.updEnd p e fun y => y.takeAck (BitVec.ofNat 12 (leNat (v.payload.take 4))) (leNat (v.payload.drop 4))
  else if unitKind v = 1 ∧ messageBad v = true then s.askAgain p e (unitSeq v) (some (unitVc v)) false
  else if hubCheckFails e v then
    if x.asked.any fun a => a.useq == unitSeq v && a.bib then s.updEnd p e fun y => y.take (badBlock v)
    else s.askAgain p e (unitSeq v) (some (unitVc v)) true
  else s.updEnd p e fun y => y.take v

/-- LINK_UNIT_ARRIVAL (R375-R377, R327): the other end sends a unit, which crosses the link and arrives at end `e`. While traffic is held, or
while the link's only bundle is out for its window, nothing is sent (R378, R386). [DEDUCED: log 57] -/
def execLinkUnitArrival (p : DieId) (e : LinkEnd) (u : LinkArrival) (s : State) : Host.Outcome State Fault Refusal :=
  let errs := u.errs
  let u := u.unit
  atLink p s fun s =>
    let l := s.link p
    let y := l.at (otherEnd e)
    if l.up = false then s
    else
      match y.send (otherEnd e) u with
      | none => s
      | some y' =>
        if y'.bundles.isEmpty then s
        else (s.updEnd p (otherEnd e) fun _ => y').receiveUnit p e u (crosses y'.bundles y.txChunk errs u)

/-! ### Bundles out of service (R386, R387) -/

/-- The bundles out of service change: at both ends the new striping applies from `useq` on, and units already striped across the old bundles from
there on are sent again (R387). -/
def State.restripe (s : State) (p : DieId) (away useq : BitVec 12) : State :=
  (s.updLink p fun l => { l with away := away }).updBoth p fun x => x.changeMask (x.wmask &&& ~~~away) useq

/-- BUNDLE_SERVICE_HANDSHAKE (R386, R387): a bundle that is calibrated by window leaves for it, one of a port at a time, or rejoins; the new
striping applies from a `USEQ` on. -/
def execBundleServiceHandshake (p : DieId) (b : Fin 12) (leave : Bool) (useq : BitVec 12) (s : State) :
    Host.Outcome State Fault Refusal :=
  atLink p s fun s =>
    let l := s.link p
    if !l.up || !l.hub.widthChange || !l.hub.wmask.getLsbD b.val then s
    else if leave then
      if l.away = 0 ∧ l.calibrates = true ∧ l.byWindow b = true then s.restripe p (bundleBit b) useq else s
    else if l.away.getLsbD b.val then s.restripe p 0 useq
    else s

/-! ### Resets (R391, R467) -/

/-- The die end reset with its die's engines: its replay buffer and what it holds are cleared, and fast retraining follows. The hub end gives
up the units that it still waits for and sends its own again. A FAILED port stays so (R383). [DEDUCED: log 57] -/
def State.resetDieEnd (s : State) (p : DieId) : State :=
  let x := (s.link p).die
  let s := if x.lstate = .failed ∨ x.lstate = .down then s else s.presetEnd p .die
  let s := s.updEnd p .die fun x =>
    { x with replay := [], resend := [], early := [], held := [], asked := [], acks := [], delivered := [] }
  let n := (s.link p).die.txNext
  s.updEnd p .hub fun x => ({ x with rxNext := n, early := [], held := [], asked := [] } : LinkPort).resendAll

end Sys2Proof.Machine
end

