-- ==== Sys2Proof/Machine/HostPort.lean ====
section
/-! DEFINITION. The host port (R431-R439): configuration space, the aperture, the core state windows, loss and return of the link,
and requests to host bus addresses that fail. -/

namespace Sys2Proof.Machine

/-! ### The aperture (R433) -/

/-- What host software reads, with the status of the access. [DESIGN CHOICE: log 10] -/
def State.answer (s : State) (data : List Byte) (st : Byte) : State := { s with host := { s.host with rdata := data, rstat := st } }

def State.aptError (s : State) : State := { s with host := { s.host with aptErr := true } }

/-- Every byte of a range can be reached through the aperture: HBM, Basins, Cisterns and instruction stores (R28, R433).
[DEDUCED: log 66] -/
def State.reachable (s : State) (a n : Nat) : Bool :=
  (List.range ((a % 4096 + n + 4095) / 4096)).all fun i => (s.place (4096 * (a / 4096 + i))).isMem

/-- The bytes of BAR4. -/
def HostPort.aperture (h : HostPort) : Nat := 2 ^ (30 + h.bar4)

/-- Everything due in the core whose memory a place lies in happens before an access from outside. -/
def State.settleAt (s : State) : Place → State
  | .basin k _ => s.settle k
  | .cistern k _ => s.settle k
  | _ => s

/-- The bytes of a read: zeros where any byte is unmapped, or lies in a die that has stopped or is cut off; while the die's link trains the
access waits, and nothing happens yet (R26, R378, R383). [DEDUCED: log 66] -/
def State.apertureRead (s : State) (a n : Nat) : State :=
  if s.reachable a n ∧ s.addrOut a = false then
    if s.hubReaches a = false then s
    else
    let s := s.settleAt (s.place a)
    s.answer (s.rdDev a n) 0
  else s.aptError.answer (List.replicate n 0) 0

/-- APERTURE_READ (R433). -/
def execApertureRead (off : BitVec 38) (n : Nat) (s : State) : Host.Outcome State Fault Refusal :=
  always s fun s => s.ifOpen 2 fun s =>
    if s.host.aperture < off.toNat + n then s else s.apertureRead (s.host.aptb.toNat * 2 ^ 30 + off.toNat) n

/-- A write to a Basin or Cistern: the valid mark of each block it touches is cleared. -/
def State.hostSramWrite (s : State) (k : CoreId) (a : Nat) (data : List Byte) : State :=
  let s := (s.settle k).wr a data
  (List.range ((a % 4096 + data.length + 4095) / 4096)).foldl
    (fun s i => { s with bibs := Sparse.del s.bibs (a / 4096 + i) }) s

/-- The effect of a write at a device address. [DEDUCED: log 66] -/
def State.apertureWrite (s : State) (a : Nat) (data : List Byte) : State :=
  if s.reachable a data.length = false ∨ s.addrOut a = true then s.aptError
  else if s.hubReaches a = false then s
  else
    match s.place a with
    | .hbm =>
      if a % 64 = 0 ∧ data.length % 64 = 0 then s.writeHbmBytes a data
      else { s.aptError with host := { s.aptError.host with aer := s.host.aer + 1 } }
    | .basin k _ => s.hostSramWrite k a data
    | .cistern k _ => s.hostSramWrite k a data
    | .istore k _ => if (s.core k).isStopped then s.wr a data else s.aptError
    | _ => s.aptError

/-- APERTURE_WRITE (R433). -/
def execApertureWrite (off : BitVec 38) (data : List Byte) (s : State) : Host.Outcome State Fault Refusal :=
  always s fun s => s.ifOpen 2 fun s =>
    if data = [] ∨ s.host.aperture < off.toNat + data.length then s
    else s.apertureWrite (s.host.aptb.toNat * 2 ^ 30 + off.toNat) data

/-- HP_APT_WRITE (R433, R439). -/
def execHpAptWrite (v : Word) (s : State) : Host.Outcome State Fault Refusal :=
  always s fun s => s.ifOpen 0 fun s =>
    if fld v 0 18 % 2 ^ s.host.bar4 = 0 then { s with host := { s.host with aptb := v.extractLsb' 0 18 } } else s.aptError

/-! ### Core state windows (R162) -/

/-- Sticky bits that a write of 4 bytes at a window offset clears: `CSTAT` is W1C in its sticky bits. -/
def stickyClears (off : Nat) (v : BitVec 32) : BitVec 9 := if off = 0x140 then v.extractLsb' 0 9 else 0

/-- CORE_STATE_WINDOW_ACCESS (R159, R162): a read of the word at an offset, or a write of it; the core must be stopped. The window of a core
that the grade does not have reads as zeros (R3, R28). -/
def execCoreStateWindowAccess (k : CoreId) (off : BitVec 16) (wr : Option (BitVec 32)) (s : State) :
    Host.Outcome State Fault Refusal :=
  always s fun s => s.ifOpen 0 fun s =>
    let c := s.core k
    if off.toNat % 4 ≠ 0 then s
    else if s.hasCore k = false then (if wr.isNone then s.answer (List.replicate 4 0) 0 else s)
    else if s.dieOut (dieOf k) then s
    else
      match wr with
      | none => if c.isStopped then s.answer (c.window off.toNat 4) ST_OK else s.answer (List.replicate 4 0) ST_CORE_BUSY
      | some v =>
        if c.isStopped then
          s.updArch k fun a => { a with sticky := a.sticky &&& ~~~stickyClears off.toNat v }
        else s

/-! ### The host link (R431, R436, R438) -/

/-- The Clerk-class command of a queue is in a host transfer. -/
def Queue.hostTransfer (x : Queue) : Bool :=
  let opc := cmdOpc (x.head.getD 0)
  x.isActive && x.begun && x.fin.isNone && x.ecls == 5 && (opc == 0x52 || opc == 0x53 || opc == 0x55 || opc == 0x56)

/-- The command of queue `q` ends with HOST_FAIL (R267, R435). -/
def State.hostFailQueue (s : State) (q : Nat) : State :=
  let x := s.queue q
  if x.hostTransfer then
    s.hostFailed.finish q ST_HOST_FAIL (BitVec.ofNat 384 (if cmdOpc (x.head.getD 0) = 0x52 then x.moved else 0))
  else s

/-- COMPLETION_TIMEOUT (R435). -/
def execCompletionTimeout (q : QId) (s : State) : Host.Outcome State Fault Refusal := always s fun s => s.hostFailQueue q.val

/-- HOST_LINK (R440). -/
def State.emitHostLink (s : State) (lost : Bool) : State :=
  s.emitHub 0x27 0 ((if lost then 1 else 0) + s.host.lspeed.toNat <<< 4 + s.host.lwidth.toNat <<< 8)

/-- Every host transfer outstanding ends with HOST_FAIL (R438). [DEDUCED: log 65] -/
def State.failTransfers (s : State) : State := s.queueNumbers.foldl (fun s q => s.hostFailQueue q) s

/-- HOST_LINK_LOSS (R438): queues run on; outstanding requests fail. -/
def execHostLinkLoss (s : State) : Host.Outcome State Fault Refusal :=
  always s fun s =>
    if s.host.linkUp then
      let s : State := { s with host := { s.host with linkUp := false, linkLost := true } }
      (s.emitHostLink true).failTransfers
    else s

/-- HOST_LINK_TRAINED (R431, R436, R438, R440): pending interrupts are sent where they can be, and `READY` shows whether the
module is
ready. [DEDUCED: log 65] -/
def execHostLinkTrained (speed width : BitVec 4) (s : State) : Host.Outcome State Fault Refusal :=
  always s fun s =>
    if speed = 0 ∨ 6 < speed.toNat ∨ ¬ (width = 1 ∨ width = 2 ∨ width = 4 ∨ width = 8) then s
    else
      let s : State := { s with host := { s.host with linkUp := true, lspeed := speed, lwidth := width, ready := s.clerk.bstage == 12 } }
      (s.emitHostLink false).sendPending

/-- PERST_ASSERT (R438, R439): the host port alone is reset, `READY` with it; requests outstanding on its link fail. [DEDUCED: log 65] -/
def execPerstAssert (s : State) : Host.Outcome State Fault Refusal :=
  always s fun s =>
    let s := if s.host.linkUp then s.failTransfers else s
    { s with host := HostPort.reset }

/-- The BARs' sizes: BAR0 128 MiB, BAR2 1 MiB, BAR4 as it is set (R432). -/
def HostPort.barSize (h : HostPort) (n : Fin 3) : Nat := if n = 0 then 2 ^ 27 else if n = 1 then 2 ^ 20 else h.aperture

/-- What configuration space tells of the function: class code, vendor, device, serial number capability (R431). -/
def State.configIdentity (s : State) : Nat × BitVec 16 × Nat × Word :=
  (0x120000, Config.vendorId, if s.fuses.gy4 then 0x4734 else 0x4732, s.fuses.serial)

/-- CONFIG_WRITE (R431, R432, R438): a configuration request reaches the function over its link, a write of the MSI-X table
through BAR2. [DEDUCED: log 65] -/
def execConfigWrite (c : CfgWrite) (s : State) : Host.Outcome State Fault Refusal :=
  always s fun s =>
    if s.host.linkUp = false then s
    else
      let h := s.host
      match c with
      | .powerState d => { s with host := { h with d3hot := d } }
      | .bar n base =>
        { s with host := { h with bars := h.bars.set n.val (some (BitVec.ofNat 64 (base.toNat / h.barSize n * h.barSize n))) } }
      | .bar4Size g => { s with host := { h with bar4 := g.val } }
      | .msixEnable on => ({ s with host := { h with msixOn := on } } : State).sendPending
      | .maxPayload n => { s with host := { h with mps := n.val } }
      | .maxReadRequest n => { s with host := { h with mrrs := n.val } }
      | .completionTimeout r => { s with host := { h with timeout := r } }
      | .msixEntry n addr data masked =>
        s.ifOpen 1 fun s =>
          ({ s with host := { h with
            msixTable := Sparse.put h.msixTable n.val (addr, data)
            unmasked := Sparse.upd h.unmasked n.val (if masked then none else some ()) } } : State).sendPending

end Sys2Proof.Machine
end

