-- ==== Sys2Proof/Machine/Mailbox.lean ====
section
/-! DEFINITION. The Clerk's mailboxes (R441-R448): the protocol, and what each command does (R278, R333, R361, R454-R473, R484,
R489, R490). -/

namespace Sys2Proof.Machine

/-! ### Slots (R441-R443) -/

/-- The Clerk owns a slot. -/
def MbSlot.owned (x : MbSlot) : Bool := x.header.getLsbD 0

/-- A header word (Table: Mailbox header). -/
def mbHeader (len : Nat) (status cmd : Byte) (seq : BitVec 16) (vec : BitVec 11) (own : Bool) : Word :=
  BitVec.ofNat 16 len ++ (status ++ (cmd ++ (seq ++ (vec ++ (0#4 ++ BitVec.ofBool own)))))

def State.updSlot (s : State) (i : Fin 8) (f : MbSlot → MbSlot) : State :=
  { s with clerk := { s.clerk with slots := vupd s.clerk.slots i f } }

def State.updClerk (s : State) (f : Clerk → Clerk) : State := { s with clerk := f s.clerk }

/-- What a served command answers: its status and reply bytes, what follows the reply, and the state. -/
structure Served where
  status : Byte
  reply : List Byte
  after : AfterReply
  st : State

/-- A command that changes nothing. [DEDUCED: log 68] -/
def refusedWith (s : State) (status : Byte) : Served := ⟨status, [], .none, s⟩

/-- A command that succeeds. -/
def okWith (s : State) (reply : List Byte) : Served := ⟨ST_OK, reply, .none, s⟩

/-- A command that moves bytes over the host port fails where a transfer fails (R435, R446). -/
def State.hostNeeded (s : State) (hostFail : Bool) (f : Served) : Served :=
  if hostFail ∨ s.host.linkUp = false then ⟨ST_HOST_FAIL, [], .none, s.hostFailed⟩ else f

/-! ### Identity, measurement, attestation (R446, R447, R461-R464) -/

/-- The running firmware version: bytes 4-7 of the running slot's header; no slot runs in recovery (R452). [DESIGN CHOICE:
log 16] -/
def State.fwVersion (s : State) : List Byte := if s.clerk.recovery then [0, 0, 0, 0] else s.running.bytes 4 4

def boolByte (b : Bool) : Byte := if b then 1 else 0

/-- The compute dies populated (R4). -/
def State.diesByte (s : State) : Byte := BitVec.ofNat 8 s.dieCount

/-- The PCI device ID (R431). -/
def State.deviceId (s : State) : Nat := s.configIdentity.2.2.1

/-- Table: Identity reply. [DEDUCED: log 68] -/
def State.identity (s : State) : List Byte :=
  s.fuses.part ++ natLe 8 s.fuses.serial.toNat ++ natLe 2 s.deviceId ++ [s.diesByte, s.fuses.stepping] ++ s.fwVersion ++
    [boolByte s.clerk.slot, boolByte s.clerk.trial] ++ natLe 2 s.fuses.svn ++ identityKey

/-- The eight measurement registers (R462). [DEDUCED: log 70] -/
def Clerk.measured (c : Clerk) : List Byte := c.meas.toList.flatMap fun m => natLe 32 m.toNat

/-- The service marks as a byte (R472). [DEDUCED: log 42] -/
def State.svcByte (s : State) : Byte :=
  (List.finRange 8).foldl (fun (m : Byte) i => if s.svc[i].isSome then m ||| (1 <<< i.val) else m) 0

/-- The body of an attestation report (R464). -/
def State.attestBody (s : State) (nonce : BitVec 256) : List Byte :=
  natLe 32 nonce.toNat ++ s.fuses.part ++ natLe 8 s.fuses.serial.toNat ++ s.fwVersion ++ natLe 2 s.fuses.svn ++
    [boolByte s.clerk.slot, boolByte s.clerk.trial] ++ s.clerk.measured ++ natLe 8 s.stepCtr.toNat ++ [s.svcByte] ++
    List.replicate 7 0 ++ List.replicate 16 0

/-- Bytes written to host memory. -/
def State.toHost (s : State) (a : Nat) (bs : List Byte) : State := { s with hostMem := Memory.setBytes s.hostMem a bs }

/-- MEASURE_EXTEND (R462). -/
def State.serveExtend (s : State) (reg : Byte) (digest : BitVec 256) : Served :=
  if h : 5 ≤ reg.toNat ∧ reg.toNat ≤ 7 then okWith (s.updClerk fun c => c.extend ⟨reg.toNat, by omega⟩ digest) []
  else refusedWith s ST_BAD_CMD

/-- CERT_READ (R463). -/
def State.serveCert (s : State) (haddr : Word) (bytes : BitVec 32) (hostFail : Bool) : Served :=
  if bytes.toNat < Config.certChain.length then refusedWith s ST_BAD_CMD
  else s.hostNeeded hostFail (okWith (s.toHost haddr.toNat Config.certChain) (natLe 4 Config.certChain.length))

/-- ATTEST (R464). -/
def State.serveAttest (s : State) (nonce : BitVec 256) (haddr : Word) (hostFail : Bool) : Served :=
  let body := s.attestBody nonce
  s.hostNeeded hostFail
    (okWith (s.toHost haddr.toNat (body ++ padTo 16224 (Config.slhSign identitySeeds body))) (natLe 4 16576))

/-! ### Queues and the event ring (R244, R447, R448) -/

/-- Instances in a class's numbering (Table: Engine classes). -/
def classSize (cls : Nat) : Nat := if cls = 1 then 64 else if cls = 2 then 128 else if cls = 4 then 4 else 1

/-- The lowest number that a rising list of queues leaves free. -/
def firstFree : Nat → List Nat → Nat
  | n, [] => n
  | n, q :: l => if q = n then firstFree (n + 1) l else n

/-- The interleave of a ring (R447): the stacks of the instance's die, or all stacks. -/
def State.ringMode (s : State) (cls inst : Nat) : Interleave :=
  let d := if cls = 1 then inst / 16 else if cls = 2 then inst / 32 else if cls = 4 then inst else 4
  if h : d < 4 then (if d < s.dieCount then .die ⟨d, h⟩ else .all) else .all

/-- QUEUE_ALLOC (R244, R447). -/
def State.serveAlloc (s : State) (cls inst log2n : Byte) (vector : BitVec 16) : Served :=
  if log2n.toNat < 4 ∨ 16 < log2n.toNat ∨ cls = 0 ∨ 5 < cls.toNat ∨ classSize cls.toNat ≤ inst.toNat ∨ 2048 ≤ vector.toNat then
    refusedWith s ST_BAD_CMD
  else
    let q := firstFree 0 s.queueNumbers
    if 65536 ≤ q then refusedWith s ST_NO_QUEUE
    else
      let blocks := (2 ^ log2n.toNat * 64 + 4095) / 4096
      match s.allocate (s.ringMode cls.toNat inst.toNat) blocks fun _ => 0 with
      | none => refusedWith s ST_NO_MEMORY
      | some (first, t) =>
        let t : State := { t with rings := Sparse.put t.rings q ⟨first, blocks⟩ }
        let t := t.updQueue q fun _ =>
          { Queue.disabled with
            base := 4096 * first, en := true, ecls := BitVec.ofNat 4 cls.toNat, inst := inst,
            vector := BitVec.ofNat 11 vector.toNat, log2n := BitVec.ofNat 5 log2n.toNat, qstate := .idle }
        okWith t (natLe 2 q ++ List.replicate 6 0 ++ natLe 8 (4096 * first))

/-- QUEUE_FREE (R249, R447). -/
def State.serveFree (s : State) (queue : BitVec 16) : Served :=
  let x := s.queue queue.toNat
  if x.qstate = .idle ∨ x.qstate = .halted then
    okWith { s with queues := Sparse.del s.queues queue.toNat, rings := Sparse.del s.rings queue.toNat } []
  else refusedWith s ST_BAD_CMD

/-- EVENT_RING (R446, R448): a new ring with indices 0 takes the records held, which the host port carries. [DEDUCED: log 68] -/
def State.serveRing (s : State) (haddr : Word) (log2 : Byte) (vector : BitVec 16) (hostFail : Bool) : Served :=
  if haddr.toNat % 4096 ≠ 0 ∨ log2.toNat < 6 ∨ 20 < log2.toNat ∨ 2048 ≤ vector.toNat then refusedWith s ST_BAD_CMD
  else
    let ev := s.events
    let s1 : State := { s with events := { ev with
      ring := some (haddr.toNat, log2.toNat, BitVec.ofNat 11 vector.toNat), evprod := 0, evcons := 0, held := [], dropped := 0 } }
    let s2 := ev.held.foldl (fun s r => s.ringPut r) s1
    let f := okWith { s2 with events := { s2.events with dropped := s2.events.dropped + ev.dropped } } []
    if ev.held.isEmpty then f else s.hostNeeded hostFail f

/-! ### Groups (R276-R279, R447) -/

/-- Member slots of the pool. -/
def slotMax : Nat := 262144

/-- Runs of member slots of the valid groups but one: group, base, length. -/
def State.runs (s : State) (but : Nat) : List (Nat × Nat × Nat) :=
  s.baton.groups.filterMap fun g =>
    if g.2.valid ∧ g.1 ≠ but then some (g.1, g.2.slotbase.toNat, g.2.nrankm1.toNat + 1) else none

/-- A run put into a list that rises by base. -/
def insertRun (r : Nat × Nat × Nat) : List (Nat × Nat × Nat) → List (Nat × Nat × Nat)
  | [] => [r]
  | x :: l => if r.2.1 ≤ x.2.1 then r :: x :: l else x :: insertRun r l

/-- The lowest gap of `n` slots between runs in rising order, from `pos` on. [DESIGN CHOICE: log 71] -/
def gapFor (n : Nat) : Nat → List (Nat × Nat × Nat) → Option Nat
  | pos, [] => if pos + n ≤ slotMax then some pos else none
  | pos, r :: l => if pos + n ≤ r.2.1 then some pos else gapFor n (r.2.1 + r.2.2) l

/-- A run moved down to a base: its members keep their contents, and `SLOTBASE` changes. -/
def Baton.moveRun (b : Baton) (r : Nat × Nat × Nat) (dst : Nat) : Baton :=
  let ms := (List.range r.2.2).map fun i => (Sparse.find b.members (r.2.1 + i)).getD Member.none
  let cleared := (List.range r.2.2).foldl (fun m i => Sparse.del m (r.2.1 + i)) b.members
  let put := (List.range r.2.2).foldl (fun m i => Sparse.put m (dst + i) (ms.getD i Member.none)) cleared
  { b with
    members := put
    groups := match Sparse.find b.groups r.1 with
      | some g => Sparse.put b.groups r.1 { g with slotbase := BitVec.ofNat 18 dst }
      | none => b.groups }

/-- Every run moved down in rising order, and the first slot after them. [DESIGN CHOICE: log 71] -/
def Baton.compact (b : Baton) : Nat → List (Nat × Nat × Nat) → Baton × Nat
  | pos, [] => (b, pos)
  | pos, r :: l => (b.moveRun r pos).compact (pos + r.2.2) l

/-- A group's slots freed. [DESIGN CHOICE: log 71] -/
def Baton.freeSlots (b : Baton) (g : Group) : Baton :=
  if g.valid then
    { b with members := (List.range g.ranks).foldl (fun m i => Sparse.del m (g.slotbase.toNat + i)) b.members }
  else b

/-- A Baton command that names a group is ACTIVE. -/
def State.groupActive (s : State) (g : Nat) : Bool :=
  s.queues.any fun e => e.2.isActive && e.2.ecls == 3 && (batonGroupTag (e.2.head.getD 0)).1 == g

/-- A group record of R279 as it lies in memory. -/
structure GroupRec where
  bytes : List Byte
  number : Nat
  naxm1 : Nat
  axm : List Nat
  grace : Nat
  members : List Member

/-- The record at a device address; none where it does not lie in HBM. -/
def State.groupRec (s : State) (a : Nat) : Option GroupRec :=
  let inHbm (n : Nat) : Bool := s.reachable a n && decide (s.place a = .hbm)
  if inHbm 15 = false then none
  else
    let n := s.rdDevNat (a + 2) 2 + 1
    if inHbm (15 + 6 * n) = false then none
    else
      some {
        bytes := s.rdDev a (15 + 6 * n), number := s.rdDevNat a 2, naxm1 := s.rdDevNat (a + 4) 1,
        axm := (List.range 4).map fun i => s.rdDevNat (a + 5 + 2 * i) 2, grace := s.rdDevNat (a + 13) 2,
        members := (List.range n).map fun r =>
          ⟨BitVec.ofNat 24 (s.rdDevNat (a + 15 + 6 * r) 3), BitVec.ofNat 24 (s.rdDevNat (a + 18 + 6 * r) 3)⟩ }

/-- The rank at which an endpoint stands in a list, as member, or as backup where the group uses backups (R309). -/
def GroupRec.rankOf (g : GroupRec) (ep : BitVec 24) : Nat :=
  (g.members.findIdx? fun m => m.ep == ep || (g.grace != 0 && m.backup == ep)).getD 0

/-- The record is refused (R278). With `GRACE` = 0 the group uses no backups: `BACKUP` is no appearance (R309). -/
def State.badGroup (s : State) (g : GroupRec) : Bool :=
  let me := s.dxt.myep
  let eps := g.members.map (·.ep)
  let backups := if g.grace = 0 then [] else g.members.map (·.backup)
  let used := g.axm.take (g.naxm1 + 1)
  decide (4095 < g.number) || decide (3 < g.naxm1) ||
    used.foldl (fun p x => p * (x + 1)) 1 != g.members.length || ((g.axm.drop (g.naxm1 + 1)).any fun x => x != 0) ||
    eps.contains noEp || eps.eraseDups.length != eps.length ||
    (eps.count me + backups.count me != 1 || me == noEp) ||
    (g.members.any fun m => m.backup == m.ep) || s.groupActive g.number

/-- A fabric context bound to a group that is written again: re-formed in place (R297). -/
def State.reformFabs (s : State) (g : Nat) : State :=
  (List.finRange 8).foldl (fun s j =>
    let f := s.fab j
    if f.valid ∧ f.group.toNat = g then (s.updFab j fun f => { f with kids := [], ekids := [], sent := false }).advanceFab j
    else s) s

/-- The old slots of the group freed, and a place for `n` new ones; none where the free slots, those of the old entry not counted, are too few
(R278). [DESIGN CHOICE: log 71] -/
def State.placeSlots (s : State) (g n : Nat) : Option (Baton × Nat) :=
  let runs := (s.runs g).foldl (fun l r => insertRun r l) []
  let old := s.group (BitVec.ofNat 12 g)
  let b := s.baton.freeSlots old
  if slotMax < (runs.foldl (fun m r => m + r.2.2) 0) + (if old.valid then old.ranks else 0) + n then none
  else
    match gapFor n 0 runs with
    | some p => some (b, p)
    | none => some (b.compact 0 runs)

/-- Handshakes kept for a group whose entry has been rewritten or cleared, refused where they no longer agree with it (R285);
its ended halves are forgotten, as its tags start again. [DEDUCED: log 53] -/
def State.refuseStale (t : State) (n : BitVec 12) : State :=
  let g := t.group n
  let stale := t.baton.waiting.filter fun h => h.group == n && (!g.valid || g.gfp != h.gfp)
  stale.foldl (fun t h =>
    let t : State := { t with baton := { t.baton with waiting := t.baton.waiting.erase h } }
    (t.sendMsg h.fromEp (.answer ⟨h.group, h.tag, h.key⟩ .refused)).countRefused)
    { t with baton := { t.baton with ended := t.baton.ended.filter fun e => e.name.group != n } }

/-- GROUP_WRITE (R278, R279). [DEDUCED: log 53, 68] -/
def State.serveGroup (s : State) (addr : Word) : Served :=
  match s.groupRec addr.toNat with
  | none => refusedWith s ST_BAD_CMD
  | some r =>
    if s.badGroup r then refusedWith s ST_BAD_CMD
    else
      match s.placeSlots r.number r.members.length with
      | none => refusedWith s ST_NO_MEMORY
      | some (b, base) =>
        let old := s.group (BitVec.ofNat 12 r.number)
        let rank := r.rankOf s.dxt.myep
        let g : Group :=
          { gfp := BitVec.ofNat 32 (leNat ((sha256 r.bytes).take 4)), grace := BitVec.ofNat 16 r.grace,
            axm := Vector.ofFn fun i => BitVec.ofNat 16 (r.axm.getD i.val 0), myrank := BitVec.ofNat 16 rank,
            nrankm1 := BitVec.ofNat 16 (r.members.length - 1), slotbase := BitVec.ofNat 18 base,
            naxm1 := BitVec.ofNat 2 r.naxm1, ggen := old.ggen + 1, valid := true }
        let members := (r.members.foldl (fun (a : Sparse Member × Nat) m => (Sparse.put a.1 a.2 m, a.2 + 1)) (b.members, base)).1
        let t : State := { s with baton := { b with members := members, groups := Sparse.put b.groups r.number g } }
        okWith ((t.refuseStale (BitVec.ofNat 12 r.number)).reformFabs r.number) (natLe 2 rank ++ [0, 0] ++ natLe 4 g.gfp.toNat ++ natLe 3 base)

/-- GROUP_CLEAR (R278). [DEDUCED: log 53, 68] -/
def State.serveClear (s : State) (group : BitVec 16) : Served :=
  if 4095 < group.toNat ∨ s.groupActive group.toNat = true then refusedWith s ST_BAD_CMD
  else
    let g := s.group (BitVec.ofNat 12 group.toNat)
    if g.valid then
      let b := s.baton.freeSlots g
      let t : State := { s with baton := { b with groups := Sparse.put b.groups group.toNat { g with valid := false } } }
      okWith (t.refuseStale (BitVec.ofNat 12 group.toNat)) []
    else okWith s []

/-! ### Queries (R23, R31, R426, R446) -/

/-- `STATE` of a physical core. -/
def PState.code : PState → Nat
  | .active => 0
  | .spare => 1
  | .parked => 2
  | .retired => 3

/-- `PCORE_STATE` (Table: `PCORE_STATE`). -/
def PCore.word (x : PCore) : BitVec 32 :=
  BitVec.ofNat 32 (x.rotations.toNat <<< 24 + x.pst.code <<< 16 + (if x.owed then 1 <<< 15 else 0) +
    (if x.fuseSpare then 1 <<< 14 else 0) + (if x.pst = .active then x.lcore.toNat else 0x7F))

/-- Every `PCORE_STATE`, 0 for absent dies. -/
def State.pcoreWords (s : State) : List Byte :=
  (List.finRange 4).flatMap fun d => (List.finRange 18).flatMap fun p =>
    if s.hasDie d then natLe 4 (s.pcore d p).word.toNat else [0, 0, 0, 0]

/-- PLACE_QUERY (R31, Table: Placement reply). No tensor is kept in a Basin between command lists. [DEDUCED: log 68] -/
def State.servePlace (s : State) (handle : BitVec 32) : Served :=
  match s.handle handle with
  | none => refusedWith s ST_BAD_HANDLE
  | some r =>
    let mode : Byte := match Sparse.find s.frames (r.first / frameBlocks) with
      | some f => if f.fmode then 0xFF else BitVec.ofNat 8 f.fdie.toNat
      | none => 0xFF
    okWith s ([mode] ++ List.replicate 7 0 ++ natLe 8 (4096 * r.first) ++ natLe 8 (4096 * (r.first + r.blocks) - 1) ++
      natLe 8 0 ++ s.pcoreWords)

/-- PEER_QUERY (R426). -/
def State.servePeer (s : State) (ep : BitVec 24) : Served :=
  let cap := ((s.peer ep).bind (·.cap)).getD (List.replicate 64 0)
  let mask := (s.reaching ep).foldl (fun (m : BitVec 24) p => m ||| (1 <<< p.val)) 0
  okWith s (padTo 64 cap ++ natLe 3 mask.toNat ++ [boolByte (s.peer ep).isSome])

/-! ### Guarding (R333, R334, R341, R428) -/

/-- A digest-list entry as its 16 bytes give it; none where it is refused (R334). -/
def State.digEntry (s : State) (e : BitVec 128) : Option DigEntry :=
  let alt := e.getLsbD 44
  if fld e 46 18 ≠ 0 ∨ fld e 96 32 ≠ 0 ∨ (alt = false ∧ fld e 64 32 ≠ 0) then none
  else
    match s.handle (e.extractLsb' 0 32) with
    | none => none
    | some r =>
      let slot : BitVec 12 := e.extractLsb' 32 12
      let sum (first : Nat) : Word := (List.range r.blocks).foldl (fun (a : Word) i =>
        a + digestTerm (slot.toNat * 2 ^ 20 + i) (bibCrc (s.hbmBib (first + i)))) 0
      if 2 ^ 20 < r.blocks then none
      else if alt then
        match s.handle (e.extractLsb' 64 32) with
        | none => none
        | some r2 =>
          if e.extractLsb' 0 32 = e.extractLsb' 64 32 ∨ r2.blocks ≠ r.blocks then none
          else some ⟨e.extractLsb' 0 32, slot, true, e.getLsbD 45, e.extractLsb' 64 32, r.first, r2.first, r.blocks, sum r.first,
            sum r2.first⟩
      else some ⟨e.extractLsb' 0 32, slot, false, false, 0, r.first, 0, r.blocks, sum r.first, 0⟩

/-- A digest list; none where an entry is refused or two name one slot. -/
def State.digList (s : State) (a : Nat) : Nat → Option (List DigEntry)
  | 0 => some []
  | n + 1 =>
    (s.digList a n).bind fun l =>
      (s.digEntry (BitVec.ofNat 128 (s.rdDevNat (a + 16 * n) 16))).bind fun e =>
        if l.any fun x => x.slot == e.slot then none else some (l ++ [e])

/-- The attached twin ports whose link partner is known and is not the twin, reported one by one (R429). -/
def State.tellTwinPorts (s : State) : State :=
  (List.finRange 24).foldl (fun s p =>
    if s.twinPort p && s.attached p && s.ports[p].lpep != 0xFFFFFF && s.ports[p].lpep != s.guard.twep then
      s.emitHub 0x26 0 (p.val + s.ports[p].lpep.toNat <<< 8)
    else s) s

/-- GUARD_SET (R333, R334, R428, R429). [DEDUCED: log 45] -/
def State.serveGuard (s : State) (addr : Word) : Served :=
  if s.reachable addr.toNat 64 = false then refusedWith s ST_BAD_CMD
  else
    let p : BitVec 512 := BitVec.ofNat 512 (s.rdDevNat addr.toNat 64)
    let dlist := fld p 0 48
    let dcount := fld p 64 13
    let dint := fld p 195 13
    let group : BitVec 12 := p.extractLsb' 212 12
    let repen := p.getLsbD 229
    let fden := p.getLsbD 230
    let twen := p.getLsbD 231
    let busy := s.queues.any fun e => e.2.qstate == .active && (e.2.ecls == 1 || e.2.ecls == 2 || e.2.ecls == 4)
    let reserved := decide (fld p 48 16 ≠ 0 ∨ fld p 77 118 ≠ 0 ∨ fld p 208 4 ≠ 0 ∨ fld p 224 5 ≠ 0 ∨ fld p 256 256 ≠ 0)
    if busy || reserved || (fden && (decide (dint = 0 ∨ 4096 < dint) || !(s.group group).valid)) || decide (4096 < dcount) ||
        (decide (0 < dcount) && (decide (dlist % 16 ≠ 0) || !s.reachable dlist (16 * dcount))) ||
        (twen && (!s.fuses.gy4 || !repen || !fden || decide ((s.group group).grace = 0))) then refusedWith s ST_BAD_CMD
    else
      match s.digList dlist dcount with
      | none => refusedWith s ST_BAD_CMD
      | some l =>
        let t : State := { s with
          guard := { Guard.reset with
            repen := repen, fden := fden, twen := twen, fdgroup := group, dint := dint, twep := p.extractLsb' 232 24, list := l,
            fdValue := s.guard.fdValue }
          dxt := { s.dxt with twmode := twen }
          fabs := s.fabs.map fun f => { f with log := [], replay := [] } }
        let t := t.tellTwinPorts
        okWith (if repen then t.saveStep else t) []

/-! ### Cooldown, rotation, shutdown (R19, R357, R361) -/

/-- CD_REQUEST (R357): the cores named become due. [DEDUCED: log 68] -/
def State.serveCdRequest (s : State) (masks : Vector (BitVec 32) 4) : Served :=
  let bad := (List.finRange 4).any fun d => masks[d].toNat ≥ 2 ^ 18 || (!s.hasDie d && masks[d] != 0)
  if bad then refusedWith s ST_BAD_CMD
  else
    okWith (s.allPCores.foldl (fun s x =>
      if masks[x.1].getLsbD x.2.val then s.makeDue x.1 x.2 5 else s) s) []

/-- ROTATE (R19). [DEDUCED: log 68] -/
def State.serveRotate (s : State) (lcore : Byte) : Served :=
  if h : lcore.toNat < 64 then
    let k : CoreId := ⟨lcore.toNat, h⟩
    if s.hasCore k = false then refusedWith s ST_ABSENT_ENGINE
    else if (s.core k).unavailable then refusedWith s ST_NO_SPARE
    else okWith { s with rotReq := if s.rotReq.contains k then s.rotReq else s.rotReq ++ [k] } []
  else refusedWith s ST_ABSENT_ENGINE

/-- SHUTDOWN (R361, R485): the floor falls to 0; with Cooldown every ACTIVE and PARKED core, and every due SPARE, is to be
tested. [DEDUCED: log 69] -/
def State.serveShutdown (s : State) (flags : Byte) : Served :=
  if 1 < flags.toNat then refusedWith s ST_BAD_CMD
  else
    let s := s.updClerk fun c => { c with shutdown := true }
    if flags = 0 ∨ s.cooldown.shutdown = true then okWith s []
    else
      let s := s.allPCores.foldl (fun s x => s.updPCore x.1 x.2 fun p =>
        if p.pst = .active ∨ p.pst = .parked ∨ (p.pst = .spare ∧ p.due.isSome) then { p with due := some 0 } else p) s
      okWith ({ s with cooldown := { s.cooldown with shutdown := true, shutHour := s.cooldown.phours } } : State).shutdownNext []

/-! ### Firmware (R457, R458, R460) -/

/-- The slot that FW_WRITE and FW_COMMIT act on outside recovery. -/
def Clerk.inactive (c : Clerk) : Bool := !c.slot

/-- FW_WRITE (R457, R459): the blocks are erased, and programmed by the time of the reply. -/
def State.serveFwWrite (s : State) (haddr : Word) (off bytes : BitVec 32) (slotNo : Byte) (hostFail : Bool) : Served :=
  let target := if s.clerk.recovery then slotNo == 1 else s.clerk.inactive
  if (if s.clerk.recovery then 1 < slotNo.toNat else slotNo ≠ 0) ∨ off.toNat % 4096 ≠ 0 ∨ bytes.toNat % 4096 ≠ 0 ∨
      2 ^ 24 < bytes.toNat ∨ 2 ^ 26 < off.toNat + bytes.toNat ∨ s.flash.bootRec.bpend = some target then refusedWith s ST_BAD_CMD
  else
    let data := Memory.bytes s.hostMem haddr.toNat bytes.toNat
    let f := s.flash.setSlot target ((s.flash.slot target).erase (off.toNat / 4096) (bytes.toNat / 4096))
    s.hostNeeded hostFail
      ⟨ST_OK, natLe 4 bytes.toNat, .program target (off.toNat / 4096) data,
        ({ s with flash := f } : State).updClerk fun c => { c with written := some target }⟩

/-- FW_COMMIT (R457, R459): the record is written by the time of the reply. [DEDUCED: log 76] -/
def State.serveFwCommit (s : State) : Served :=
  let target := if s.clerk.recovery then s.clerk.written else some s.clerk.inactive
  match target with
  | none => ⟨ST_BAD_CMD, [6], .none, s⟩
  | some b =>
    match slotFault s.fuses (s.flash.slot b) with
    | some r => ⟨ST_BAD_CMD, [BitVec.ofNat 8 r], .none, s⟩
    | none => ⟨ST_OK, [0], .commit b, s⟩

/-- `SVN` burned up to the running image's security version (R458). -/
def State.burnSvn (s : State) : State :=
  { s with fuses := { s.fuses with svn := max s.fuses.svn (min 64 (s.running.num 8 2)) } }

/-- FW_CONFIRM (R458). -/
def State.serveFwConfirm (s : State) : Served :=
  if s.clerk.trial = false then refusedWith s ST_BAD_CMD
  else
    okWith (({ s with flash := s.flash.writeRec s.clerk.slot none 0 } : State).burnSvn.updClerk fun c => { c with trial := false }) []

/-- The state of a slot in FW_STATUS: the manual gives no code, but one that does not verify shows so (R446, R459). [DESIGN
CHOICE: log 14] -/
def slotState (verified : Bool) : Byte :=
  if verified then Config.slotStateCode + BitVec.ofNat 8 (1 + Config.slotStateGap % 255) else Config.slotStateCode

/-- FW_STATUS (R446): the boot control record, the headers and the states of slots A and B. -/
def State.serveFwStatus (s : State) : Served :=
  okWith s (s.flash.bootRec.bytes ++ s.flash.slotA.bytes 0 624 ++ s.flash.slotB.bytes 0 624 ++
    [slotState (s.verifies false), slotState (s.verifies true)])

/-! ### Resets, sensors, power, service (R466, R467, R473, R484, R489, R490) -/

/-- RESET kind 1. [DEDUCED: log 69] -/
def State.serveReset (s : State) : Served := ⟨ST_OK, [], .moduleReset, s⟩

/-- RESET kind 2 (R467): a present die whose link is not FAILED. -/
def State.serveDieReset (s : State) (die : Byte) : Served :=
  if h : die.toNat < 4 then
    let d : DieId := ⟨die.toNat, h⟩
    if s.hasDie d = false ∨ (s.link d).hub.lstate = .failed ∨ (s.link d).die.lstate = .failed then refusedWith s ST_BAD_CMD
    else ⟨ST_OK, [], .dieReset d, s⟩
  else refusedWith s ST_BAD_CMD

/-- A signed quantity of 2 bytes. -/
def int2 (x : Int) : List Byte := natLe 2 (x % 65536).toNat

/-- The mean of what was measured over the last 1 ms (R479). [DEDUCED: log 77] -/
def mean (l : List Nat) : Nat := l.foldl (fun a b => a + b) 0 / l.length

/-- Input power, a rail's power and ballast power as reported: 1 ms averages (R479). -/
def Power.pinMean (p : Power) : Nat := mean (p.recent.map fun m => m.pin)
def Power.railMean (p : Power) (i : Nat) : Nat := mean (p.recent.map fun m => (m.rails.getD i (0, 0, 0)).2.2)

/-- The least issue duty over the cores (R489). -/
def Power.duty (p : Power) : Nat := p.duties.toList.foldl min 64

/-- Sensor page 0. -/
def Power.page0 (p : Power) : List Byte :=
  natLe 4 p.last.vin ++ natLe 4 p.last.iin ++ natLe 4 (p.pinMean / 10) ++ natLe 4 (p.target / 10) ++ natLe 4 (p.peak / 10) ++
    natLe 4 (mean p.recentBallast / 10) ++ natLe 8 (p.energy / 10000) ++ natLe 1 p.duty ++ List.replicate 31 0

/-- The boot step in progress, or the one that failed: before step 5 the limits of R485 are those of the start. -/
def Clerk.limitStage (c : Clerk) : Nat := if c.bstage = 255 then c.bfail else c.bstage

/-- One rail record: a rail of an absent die reads status 3, a die's rail that is not yet powered 2, and an unused rail 0 (R451, R478,
R480, R489). [DEDUCED: log 77] -/
def State.railRecord (s : State) (i : Nat) : List Byte :=
  let r := s.power.last.rails.getD i (0, 0, 0)
  if 13 ≤ i then List.replicate 8 0
  else if 5 ≤ i ∧ s.dieCount ≤ (i - 5) % 4 then [0, 0, 0, 0, 0, 0, 3, 0]
  else if 5 ≤ i ∧ s.power.diesOn ≤ (i - 5) % 4 then [0, 0, 0, 0, 0, 0, 2, 0]
  else natLe 2 r.1 ++ natLe 2 r.2.1 ++ natLe 2 (s.power.railMean i) ++ [boolByte (s.power.rails.getLsbD i), 0]

/-- Sensor page 2. -/
def State.page2 (s : State) : List Byte :=
  let p := s.power.last
  int2 p.inlet ++ int2 p.outlet ++ natLe 2 p.flow ++ natLe 2 p.dpres ++ int2 p.hubHot ++ (p.dieHot.toList.flatMap int2) ++
    (p.boards.toList.flatMap int2) ++
    ((List.finRange 32).map fun i => if i.val < s.stackCount then s.hbms[i].temp else 0) ++ List.replicate 6 0

/-- SENSOR_READ (R489); reading page 0 starts its largest input power again. -/
def State.serveSensor (s : State) (page : Byte) : Served :=
  if page = 0 then okWith { s with power := { s.power with peak := 0 } } s.power.page0
  else if page = 1 then okWith s ((List.range 16).flatMap fun i => s.railRecord i)
  else if page = 2 then okWith s s.page2
  else refusedWith s ST_BAD_CMD

/-- The grade's largest `CAP`, its largest `FLOOR` and its first-start limits (Table: Power control ranges). -/
def State.capMax (s : State) : Nat := if s.fuses.gy4 then 6000 else 3400
def State.capMin (s : State) : Nat := if s.fuses.gy4 then 1000 else 700
def State.floorMax (s : State) : Nat := if s.fuses.gy4 then 3900 else 2100
def State.firstLimits (s : State) : Limits := if s.fuses.gy4 then Limits.factory else ⟨3400, 0, 2000, 1200⟩

/-- The limits are in range. -/
def State.limitsOk (s : State) (l : Limits) : Bool :=
  decide (s.capMin ≤ l.cap.toNat ∧ l.cap.toNat ≤ s.capMax ∧ s.capMin ≤ l.ecap.toNat ∧ l.ecap.toNat ≤ s.capMax ∧
    l.floor.toNat ≤ s.floorMax ∧ 50 ≤ l.ramp.toNat ∧ l.ramp.toNat ≤ 2000)

/-- The limits as the 8 bytes of a reply (R490). -/
def Limits.bytes (l : Limits) : List Byte := natLe 2 l.cap.toNat ++ natLe 2 l.floor.toNat ++ natLe 2 l.ramp.toNat ++ natLe 2 l.ecap.toNat

/-- FLOOR_SHORT with a cause and a shortfall in W: at most one record per second, each with the largest shortfall since the
one
before it (R492). [DEDUCED: log 77] -/
def State.floorShort (s : State) (cause w : Nat) : State :=
  let most := max s.power.shortfall w
  if 100000 ≤ s.power.sinceShort then
    ({ s with power := { s.power with sinceShort := 0, shortfall := 0 } } : State).emitHub 0x2F 0 (cause + (most % 65536) <<< 16)
  else { s with power := { s.power with shortfall := most } }

/-- POWER_SET (R484, R490). [DEDUCED: log 77] -/
def State.servePowerSet (s : State) (cap floor ramp ecap : BitVec 16) (fields persist : Byte) : Served :=
  let o := s.power.limits
  let n : Limits :=
    ⟨if fields.getLsbD 0 then cap else o.cap, if fields.getLsbD 1 then floor else o.floor,
      if fields.getLsbD 2 then ramp else o.ramp, if fields.getLsbD 3 then ecap else o.ecap⟩
  let high := decide (n.cap.toNat < n.floor.toNat + 200)
  if 15 < fields.toNat ∨ 1 < persist.toNat ∨ s.limitsOk n = false ∨ (high = true ∧ fields.getLsbD 1 = true) then
    refusedWith s ST_BAD_CMD
  else
    let lower := high && fields.getLsbD 0
    let n : Limits := if lower then { n with floor := BitVec.ofNat 16 (n.cap.toNat - 200) } else n
    let t : State := { s with
      power := { s.power with limits := n }
      flash := if persist = 1 then { s.flash with limits := some n } else s.flash }
    let t := if lower then t.floorShort 2 (o.floor.toNat - n.floor.toNat) else t
    okWith t n.bytes

/-- SERVICE_STATUS (R446, R472). -/
def State.serveStatus (s : State) : Served :=
  okWith s ([s.svcByte] ++ List.replicate 7 0 ++ (s.svc.toList.flatMap fun m => natLe 3 (m.getD 0xFFFFFF).toNat))

/-- SERVICE_CLEAR (R473): the token must name every mark to clear. [DEDUCED: log 42] -/
def State.serveServiceClear (s : State) (haddr : Word) (marks : Byte) (hostFail : Bool) : Served :=
  let token := Memory.bytes s.hostMem haddr.toNat 16256
  let body := token.take 32
  let counter := leNat ((body.drop 12).take 4)
  let zeros := (body.drop 9).take 3 ++ body.drop 16
  let ok := Config.slhVerify (s.running.bytes 576 48) body (token.drop 32) && leNat (body.take 8) == s.fuses.serial.toNat &&
    decide (s.flash.tokens.toNat < counter) && (zeros.all fun b => b == 0) && (marks &&& ~~~(body.getD 8 0)) == 0
  let t : State := { s with
    svc := Vector.ofFn fun i => if marks.getLsbD i.val then none else s.svc[i]
    flash := { s.flash with tokens := BitVec.ofNat 32 counter } }
  s.hostNeeded hostFail (if ok then okWith t [] else refusedWith s ST_BAD_CMD)

/-! ### Service (R443, R444, R446, R452) -/

def mbEarly (c : Byte) : Bool := [0x01, 0x02, 0x04, 0x05, 0x3B, 0x40, 0x48, 0x50].contains c.toNat
def mbSerial (c : Byte) : Bool :=
  [0x03, 0x10, 0x11, 0x18, 0x20, 0x21, 0x30, 0x31, 0x32, 0x38, 0x39, 0x3A, 0x40, 0x41, 0x49, 0x51].contains c.toNat
def mbHeld (c : Byte) : Bool := [0x10, 0x11, 0x20, 0x21, 0x28, 0x29, 0x30, 0x31, 0x32, 0x41].contains c.toNat

/-- The codes of Table: Mailbox commands with the bytes of each request. -/
def mbCommands : List (Nat × Nat) :=
  [(0x01, 0), (0x02, 0), (0x03, 40), (0x04, 12), (0x05, 40), (0x10, 6), (0x11, 2), (0x18, 12), (0x20, 8), (0x21, 2), (0x28, 4),
   (0x29, 3), (0x30, 8)] ++
  [(0x31, 16), (0x32, 1), (0x38, 17), (0x39, 0), (0x3A, 0), (0x3B, 0), (0x40, 2), (0x41, 1), (0x48, 1), (0x49, 10), (0x50, 0),
   (0x51, 9)]

/-- The effect of a command. -/
def State.serveBody (s : State) (c : MbReq) : Served :=
  match c with
  | .identify => okWith s s.identity
  | .measureRead => okWith s s.clerk.measured
  | .measureExtend reg digest => s.serveExtend reg digest
  | .certRead haddr bytes hostFail => s.serveCert haddr bytes hostFail
  | .attest nonce haddr hostFail => s.serveAttest nonce haddr hostFail
  | .queueAlloc cls inst log2n vector => s.serveAlloc cls inst log2n vector
  | .queueFree queue => s.serveFree queue
  | .eventRing haddr log2 vector hostFail => s.serveRing haddr log2 vector hostFail
  | .groupWrite addr => s.serveGroup addr
  | .groupClear group => s.serveClear group
  | .placeQuery handle => s.servePlace handle
  | .peerQuery endpoint => s.servePeer endpoint
  | .guardSet addr => s.serveGuard addr
  | .cdRequest masks => s.serveCdRequest masks
  | .rotate lcore => s.serveRotate lcore
  | .fwWrite haddr off bytes slotNo hostFail => s.serveFwWrite haddr off bytes slotNo hostFail
  | .fwCommit => s.serveFwCommit
  | .fwConfirm => s.serveFwConfirm
  | .fwStatus => s.serveFwStatus
  | .resetModule => s.serveReset
  | .resetDie die => s.serveDieReset die
  | .shutdown flags => s.serveShutdown flags
  | .sensorRead page => s.serveSensor page
  | .powerSet cap floor ramp ecap fields persist => s.servePowerSet cap floor ramp ecap fields persist
  | .serviceStatus => s.serveStatus
  | .serviceClear haddr marks hostFail => s.serveServiceClear haddr marks hostFail
  | .unlisted => refusedWith s ST_BAD_CMD

/-- The start under way lets a command be served (R444, R446, R452, R465). A guard is not set while a step replays or closes.
[DEDUCED: log 67] -/
def State.stageServes (s : State) (r : Request) : Bool :=
  let c := s.clerk
  if c.recovery then r.slot == 0 && [0x01, 0x3B, 0x38, 0x39, 0x40].contains r.cmd.toNat
  else if c.bstage < 3 then false
  else if c.bstage = 255 ∨ c.foreign = true then mbEarly r.cmd
  else (!mbHeld r.cmd || s.host.ready) && (r.cmd != 0x30 || (s.guard.replaying.isNone && s.stepPhase == .idle))

/-- The Serial commands run one at a time, in the order of their header writes; a start that serves Early commands alone serves those
without the others (R444, R452). [DEDUCED: log 67] -/
def Clerk.keepsOrder (c : Clerk) : Bool := !c.recovery && c.bstage != 255 && !c.foreign

/-- Commands behind which a Serial one waits: another Serial one, an ATTEST, and a DIE reset under way (R444, R464, R469). -/
def Clerk.serialBusy (c : Clerk) : Bool := !c.dieResets.isEmpty || c.replies.any fun x => x.serial

/-- A waiting request can be served: a Serial one when none before it waits, and none is under way. [DEDUCED: log 67] -/
def State.mayServe (s : State) (r : Request) (behind : Bool) : Bool := s.stageServes r && !(mbSerial r.cmd && (behind || s.clerk.serialBusy))

/-- The first request that can be served, with the others; `behind` tells that a Serial one before them waits. [DEDUCED: log
67] -/
def State.takeServed (s : State) (behind : Bool) : List Request → Option (Request × List Request)
  | [] => none
  | r :: l =>
    if s.mayServe r behind then some (r, l)
    else (s.takeServed (behind || (mbSerial r.cmd && s.clerk.keepsOrder)) l).map fun x => (x.1, r :: x.2)

/-- A request served: its reply is owed. Serial commands wait behind an ATTEST too (R464). -/
def State.serveRequest (s : State) (r : Request) : State :=
  let x := s.serveBody r.body
  x.st.updClerk fun c => { c with
    replies := c.replies ++ [⟨r.slot, r.seq, r.vec, r.cmd, mbSerial r.cmd || r.cmd == 0x05, x.status, x.reply, x.after, false⟩] }

/-- Waiting requests served in the order of their arrival, as far as they can be. [DEDUCED: log 67] -/
def State.serveSome (s : State) : Nat → State
  | 0 => s
  | n + 1 =>
    match s.takeServed false s.clerk.waiting with
    | none => s
    | some (r, rest) => ((s.updClerk fun c => { c with waiting := rest }).serveRequest r).serveSome n

def State.serve (s : State) : State := s.serveSome s.clerk.waiting.length

/-- A header word that R443 refuses: an unlisted command, `MBSEQ` 0, a reserved field, or a length out of range. -/
def headerRefused (h : Word) : Bool :=
  match mbCommands.find? fun c => c.1 == fld h 32 8 with
  | none => true
  | some c => fld h 16 16 == 0 || fld h 1 4 != 0 || decide (4032 < fld h 48 16 ∨ fld h 48 16 < c.2)

/-- A command's header write, after its payload (R442): a slot that the Clerk owns keeps its bytes; a header that R443 refuses is answered
so. -/
def State.mailbox (s : State) (e : MbEnv) (cmd : Byte) (req : List Byte) (body : MbReq) : State :=
  if s.clerk.slots[e.slot].owned then s.updClerk fun c => { c with mberr := true }
  else
    let h := mbHeader e.len.toNat e.stat cmd e.seq e.vec true
    let s := s.updSlot e.slot fun x => ⟨h, Memory.setBytes x.payload 0 req⟩
    (s.updClerk fun c => { c with
      waiting := c.waiting ++ [⟨e.slot, e.seq, e.vec, cmd, if headerRefused h then .unlisted else body⟩] }).serve

/-- The outcome of a mailbox command: it comes through BAR2. -/
def atMailbox (e : MbEnv) (cmd : Byte) (req : List Byte) (body : MbReq) (s : State) : Host.Outcome State Fault Refusal :=
  always s fun s => s.ifOpen 1 fun s => s.mailbox e cmd req body

/-- A number of `n` bytes of a request. -/
def reqNum {w : Nat} (n : Nat) (v : BitVec w) : List Byte := natLe n v.toNat

/-- IDENTIFY (R446). -/
def execIdentify (e : MbEnv) (s : State) : Host.Outcome State Fault Refusal := atMailbox e 0x01 [] .identify s

/-- MEASURE_READ (R446). -/
def execMeasureRead (e : MbEnv) (s : State) : Host.Outcome State Fault Refusal := atMailbox e 0x02 [] .measureRead s

/-- MEASURE_EXTEND (R462). -/
def execMeasureExtend (e : MbEnv) (reg : Byte) (digest : BitVec 256) (s : State) : Host.Outcome State Fault Refusal :=
  atMailbox e 0x03 ([reg] ++ List.replicate 7 0 ++ reqNum 32 digest) (.measureExtend reg digest) s

/-- CERT_READ (R463). -/
def execCertRead (e : MbEnv) (haddr : Word) (bytes : BitVec 32) (hostFail : Bool) (s : State) : Host.Outcome State Fault Refusal :=
  atMailbox e 0x04 (reqNum 8 haddr ++ reqNum 4 bytes) (.certRead haddr bytes hostFail) s

/-- ATTEST (R464). -/
def execAttest (e : MbEnv) (nonce : BitVec 256) (haddr : Word) (hostFail : Bool) (s : State) : Host.Outcome State Fault Refusal :=
  atMailbox e 0x05 (reqNum 32 nonce ++ reqNum 8 haddr) (.attest nonce haddr hostFail) s

/-- QUEUE_ALLOC (R244, R447). -/
def execQueueAlloc (e : MbEnv) (cls inst log2n : Byte) (vector : BitVec 16) (s : State) : Host.Outcome State Fault Refusal :=
  atMailbox e 0x10 ([cls, inst, log2n, 0] ++ reqNum 2 vector) (.queueAlloc cls inst log2n vector) s

/-- QUEUE_FREE (R249, R447). -/
def execQueueFree (e : MbEnv) (queue : BitVec 16) (s : State) : Host.Outcome State Fault Refusal :=
  atMailbox e 0x11 (reqNum 2 queue) (.queueFree queue) s

/-- EVENT_RING (R448). -/
def execEventRing (e : MbEnv) (ring : HostRing) (log2 : Byte) (vector : BitVec 16) (s : State) :
    Host.Outcome State Fault Refusal :=
  atMailbox e 0x18 (reqNum 8 ring.haddr ++ [log2, 0] ++ reqNum 2 vector) (.eventRing ring.haddr log2 vector ring.fail) s

/-- GROUP_WRITE (R278, R447). -/
def execGroupWrite (e : MbEnv) (addr : Word) (s : State) : Host.Outcome State Fault Refusal :=
  atMailbox e 0x20 (reqNum 8 addr) (.groupWrite addr) s

/-- GROUP_CLEAR (R278). -/
def execGroupClear (e : MbEnv) (group : BitVec 16) (s : State) : Host.Outcome State Fault Refusal :=
  atMailbox e 0x21 (reqNum 2 group) (.groupClear group) s

/-- PLACE_QUERY (R31). -/
def execPlaceQuery (e : MbEnv) (handle : BitVec 32) (s : State) : Host.Outcome State Fault Refusal :=
  atMailbox e 0x28 (reqNum 4 handle) (.placeQuery handle) s

/-- PEER_QUERY (R426). -/
def execPeerQuery (e : MbEnv) (endpoint : BitVec 24) (s : State) : Host.Outcome State Fault Refusal :=
  atMailbox e 0x29 (reqNum 3 endpoint) (.peerQuery endpoint) s

/-- GUARD_SET (R333, R334). -/
def execGuardSet (e : MbEnv) (addr : Word) (s : State) : Host.Outcome State Fault Refusal :=
  atMailbox e 0x30 (reqNum 8 addr) (.guardSet addr) s

/-- CD_REQUEST (R357). -/
def execCdRequest (e : MbEnv) (masks : Vector (BitVec 32) 4) (s : State) : Host.Outcome State Fault Refusal :=
  atMailbox e 0x31 (masks.toList.flatMap fun m => reqNum 4 m) (.cdRequest masks) s

/-- ROTATE (R19). -/
def execRotate (e : MbEnv) (lcore : Byte) (s : State) : Host.Outcome State Fault Refusal :=
  atMailbox e 0x32 [lcore] (.rotate lcore) s

/-- FW_WRITE (R457). -/
def execFwWrite (e : MbEnv) (haddr : Word) (off bytes : BitVec 32) (slotNo : Byte) (hostFail : Bool) (s : State) :
    Host.Outcome State Fault Refusal :=
  atMailbox e 0x38 (reqNum 8 haddr ++ reqNum 4 off ++ reqNum 4 bytes ++ [slotNo]) (.fwWrite haddr off bytes slotNo hostFail) s

/-- FW_COMMIT (R457). -/
def execFwCommit (e : MbEnv) (s : State) : Host.Outcome State Fault Refusal := atMailbox e 0x39 [] .fwCommit s

/-- FW_CONFIRM (R458). -/
def execFwConfirm (e : MbEnv) (s : State) : Host.Outcome State Fault Refusal := atMailbox e 0x3A [] .fwConfirm s

/-- FW_STATUS (R446). -/
def execFwStatus (e : MbEnv) (s : State) : Host.Outcome State Fault Refusal := atMailbox e 0x3B [] .fwStatus s

/-- RESET kind 1 (R466). -/
def execResetModule (e : MbEnv) (s : State) : Host.Outcome State Fault Refusal := atMailbox e 0x40 [1, 0] .resetModule s

/-- RESET kind 2 (R467). -/
def execResetDie (e : MbEnv) (die : Byte) (s : State) : Host.Outcome State Fault Refusal :=
  atMailbox e 0x40 [2, die] (.resetDie die) s

/-- SHUTDOWN (R361). -/
def execShutdown (e : MbEnv) (flags : Byte) (s : State) : Host.Outcome State Fault Refusal :=
  atMailbox e 0x41 [flags] (.shutdown flags) s

/-- SENSOR_READ (R489). -/
def execSensorRead (e : MbEnv) (page : Byte) (s : State) : Host.Outcome State Fault Refusal :=
  atMailbox e 0x48 [page] (.sensorRead page) s

/-- POWER_SET (R484, R490). -/
def execPowerSet (e : MbEnv) (cap floor ramp ecap : BitVec 16) (fields persist : Byte) (s : State) :
    Host.Outcome State Fault Refusal :=
  atMailbox e 0x49 (reqNum 2 cap ++ reqNum 2 floor ++ reqNum 2 ramp ++ reqNum 2 ecap ++ [fields, persist])
    (.powerSet cap floor ramp ecap fields persist) s

/-- SERVICE_STATUS (R472). -/
def execServiceStatus (e : MbEnv) (s : State) : Host.Outcome State Fault Refusal := atMailbox e 0x50 [] .serviceStatus s

/-- SERVICE_CLEAR (R473). -/
def execServiceClear (e : MbEnv) (haddr : Word) (marks : Byte) (hostFail : Bool) (s : State) : Host.Outcome State Fault Refusal :=
  atMailbox e 0x51 (reqNum 8 haddr ++ [marks]) (.serviceClear haddr marks hostFail) s

/-- The header word as host software leaves it with `MBOWN` 0 (R441): its reserved bits read 0. -/
def heldHeader (h : Word) : Word := h &&& ~~~0x1F#64

/-- MAILBOX_UNLISTED_COMMAND (R441, R443): a header write that is refused without acting; one with `MBOWN` 0 only writes the header. -/
def execMailboxUnlistedCommand (slot : Fin 8) (header : Word) (s : State) : Host.Outcome State Fault Refusal :=
  always s fun s => s.ifOpen 1 fun s =>
    if s.clerk.slots[slot].owned then s.updClerk fun c => { c with mberr := true }
    else if header.getLsbD 0 = false then s.updSlot slot fun x => { x with header := heldHeader header }
    else if headerRefused header = false then s
    else
      let s := s.updSlot slot fun x => { x with header := header }
      (s.updClerk fun c => { c with waiting :=
        c.waiting ++ [⟨slot, header.extractLsb' 16 16, header.extractLsb' 5 11, header.extractLsb' 32 8,
          .unlisted⟩] }).serve

/-- Bytes written into a slot at an offset: header, reserved bytes, payload (R441). -/
def MbSlot.write (x : MbSlot) (off : Nat) (data : List Byte) : MbSlot :=
  { header :=
      if off < 8 then heldHeader (BitVec.ofNat 64 (leNat (splice (natLe 8 x.header.toNat) off (data.take (8 - off))))) else x.header
    payload := Memory.setBytes x.payload (off - 0x40) (data.drop (0x40 - off)) }

/-- MAILBOX_OWNED_WRITE (R441, R442): a write to a slot that the Clerk owns is discarded; one to a slot that it does not own is made, and
where it would set `MBOWN` it is its command's row. -/
def execMailboxOwnedWrite (slot : Fin 8) (off : BitVec 12) (data : List Byte) (s : State) : Host.Outcome State Fault Refusal :=
  always s fun s => s.ifOpen 1 fun s =>
    if s.clerk.slots[slot].owned then s.updClerk fun c => { c with mberr := true }
    else if 4096 < off.toNat + data.length ∨ (off = 0 ∧ (data.headD 0).getLsbD 0 = true) then s
    else s.updSlot slot fun x => x.write off.toNat data

/-- The reply of a slot's command is due: that of a shutdown with Cooldown once the shutdown is complete (R361). -/
def State.replyDue (s : State) (r : Reply) : Bool :=
  !(r.cmd == 0x41 && r.status == ST_OK && s.cooldown.shutdown && !s.cooldown.shutdownDone)

/-- A reply written (R443): payload, header, vector. -/
def State.putReply (s : State) (r : Reply) : State :=
  (s.updSlot r.slot fun x =>
    ⟨mbHeader r.reply.length r.status r.cmd r.seq r.vec false, Memory.setBytes x.payload 0 r.reply⟩).interrupt r.vec

end Sys2Proof.Machine
end

