-- ==== Sys2Proof/Machine/MatrixEvents.lean ====
section
/-! DEFINITION. The rows of the matrix array's own events: pass begins, row reads and writes, detection cycles, landings, ends of
holds (R70, R94-R99, R106, R107), and the Relay chain (R76-R78). -/

namespace Sys2Proof.Machine

/-! ### The next cycle of an event -/

/-- The first cycle from `t` on, among `n`, that satisfies a predicate. -/
def firstCycle (p : Nat → Bool) (t : Nat) : Nat → Option Nat
  | 0 => none
  | n + 1 => if p t then some t else firstCycle p (t + 1) n

/-- The first cycle in which the event can still happen on a core: the current one while its stage has not passed. -/
def Core.fromStage (c : Core) (stage : Nat) : Nat := if c.stage < stage then c.now else c.now + 1

/-- The next cycle in which an accepted operation satisfies a predicate. -/
def Core.nextOpCycle (c : Core) (stage : Nat) (p : MxOp → Nat → Bool) : Option Nat :=
  leastOf (c.mxq.filterMap fun o => firstCycle (p o) (c.fromStage stage) (o.land + 1 - c.fromStage stage))

/-- An operation writes a tile row in cycle `t`. -/
def MxOp.writesAt (o : MxOp) (t : Nat) : Bool := o.parts.any fun q => (o.writeAt q t).isSome

/-- An operand row is read in cycle `t` by a schedule. -/
def operandAt (t first unit step lim p : Nat) : Bool :=
  match schedAt t first unit step with
  | some (i, m) => decide (i < p ∧ m < lim)
  | none => false

/-- An operation reads a row in cycle `t` (R70). -/
def MxOp.readsAt (o : MxOp) (t : Nat) : Bool :=
  let unit := if o.df = 1 then 128 * o.r * (o.p + 1) else 128 * o.r
  let passes := if o.df = 1 then 1 else o.p
  o.parts.any fun q =>
    (o.entryAt q t).isSome ||
      (q.subs.any fun b =>
        let hs := if (b.heldOp o.df).turned then 8 else 0
        let ss := if (b.strmOp o.df).turned then 8 else 0
        (if o.df = 1 then operandAt (t + hs + 4) (o.b + q.delay) unit o.r b.k passes
         else operandAt (t + hs + 132) (o.b + q.delay) unit 1 128 passes) ||
          (q.delay == 0 && operandAt (t + ss + 4) o.b unit o.r (if o.df = 1 then b.k else o.rows) passes))

/-- MATRIX_PASS_BEGIN (R69, R90): the next operation whose first pass begins. -/
def execMatrixPassBegin (k : CoreId) (s : State) : Host.Outcome State Fault Refusal :=
  atCore k s fun s =>
    s.atCycle k (leastOf ((s.core k).mxq.filterMap fun o => if o.begun then none else some (max o.b (s.core k).now))) fun s =>
      s.toLand k none

/-- MATRIX_ROW_WRITE (R70, R103-R106): the next cycle in which tile rows are written, after their check lanes are compared. -/
def execMatrixRowWrite (k : CoreId) (faulty : Option FaultyRow) (s : State) : Host.Outcome State Fault Refusal :=
  atCore k s fun s => s.atCycle k ((s.core k).nextOpCycle 1 MxOp.writesAt) fun s => s.toLand k faulty

/-- MATRIX_PASS_END (R94-R96, R106, R108): the next cycle in which an operation is judged. [DESIGN CHOICE: log 12] -/
def execMatrixPassEnd (k : CoreId) (faulty : Option FaultyRow) (s : State) : Host.Outcome State Fault Refusal :=
  atCore k s fun s =>
    s.atCycle k ((s.core k).nextOpCycle 2 MxOp.judgedAt) fun s => s.toJudge k faulty

/-- MATRIX_LANDING (R70, R76, R87): the next landing cycle of an operation. -/
def execMatrixLanding (k : CoreId) (s : State) : Host.Outcome State Fault Refusal :=
  atCore k s fun s =>
    s.atCycle k (leastOf ((s.core k).mxq.map fun o => max o.land (s.core k).now)) fun s => s.settle k

/-! ### Ends of holds (R95, R99, R106, R107) -/

/-- A tile exponent set on its core. [DEDUCED: log 24] -/
def State.setTeo (s : State) (t : CoreId × Fin 64 × BitVec 8) : State :=
  s.updArch t.1 fun a => a.updTile t.2.1 fun m => { m with teo := t.2.2 }

/-- What a hold presents: the operations, bytes and tile exponents as its rerun left them (R95, R106). -/
def State.presentReplay (s : State) (k : CoreId) (h : Replay) : State :=
  let s := s.updCore k fun c => { c with hold := none, mxq := h.ops }
  let s := s.wrAll h.writes
  h.teo.foldl State.setTeo s

/-- A row of a pass that the rerun has made mismatches as a faulty array presents it. -/
def MxOp.rerunMismatch (o : MxOp) (p : Nat) (f : FaultyRow) : Bool :=
  match o.parts[f.part]? with
  | some q =>
    decide (f.row < o.rows) && (Sparse.find q.done (rowKey p f.row)).isSome && o.rowMismatch f.part q p f.row (faultyStates q f.lanes)
  | none => false

/-- A write of bytes of a tile row that an operation computes. -/
def MxOp.inRows (o : MxOp) (w : Nat × List Byte) : Bool :=
  o.parts.any fun q =>
    decide (tileAddr q.core q.layout q.tile.val 0 0 ≤ w.1 ∧ w.1 < tileAddr q.core q.layout q.tile.val o.rows 0)

/-- A rerun has reached row `m` of part `i` when the check of another row fails: its write is due no later (R70, R77). In OS every row is
compared before the drain. -/
def MxOp.reached (o : MxOp) (f : FaultyRow) (i m : Nat) : Bool :=
  o.df != 1 && (i != f.part || m != f.row) && decide (o.r * m + 4 * i ≤ o.r * f.row + 4 * f.part)

/-- The rows of an operation as the failed rerun of pass `p` leaves them (R107): those it has reached with its values; after an overflow
replay, the others as the pass before leaves them. -/
def MxOp.failedRows (o : MxOp) (rescaled : Bool) (p : Nat) (f : FaultyRow) : List (Nat × List Byte) :=
  (o.parts.zip (List.range o.parts.length)).flatMap fun (q, i) => (List.range o.rows).flatMap fun m =>
    if o.reached f i m then q.rowOut p m
    else if rescaled then
      [(tileAddr q.core q.layout q.tile.val m 0,
        codeBytes q.layout (if p = 0 then (Sparse.find q.entry (rowKey 0 m)).getD [] else q.rowCodes (p - 1) m))]
    else []

/-- The marks of an operation that leaves the array without landing are cleared, and its chain is released (R76, R161). -/
def State.dropOp (s : State) (k : CoreId) (o : MxOp) : State :=
  let s := s.updCore k fun c =>
    let rest := c.mxq.filter fun x => x.id != o.id
    { c with mxq := rest, lastBO := lastEnd rest }
  let s := if o.arm then
      o.parts.foldl (fun s q =>
        (s.updArch q.core fun a => a.updTile q.tile fun m => { m with armed := false }).updArch q.core fun a =>
          a.updTile (q.tile + 1) fun m => { m with image := false }) s
    else s
  s.releaseChain k o

/-- The core of a part of an operation on core k, and its tile. -/
def MxOp.partAt (o : MxOp) (k : CoreId) (i : Nat) : CoreId × Nat :=
  match o.parts[i]? with
  | some q => (q.core, q.tile.val)
  | none => (k, 0)

/-- A mismatch in a check replay's rerun (R107): the rows that the rerun has reached are written, the failing row and the others are not;
the core whose lanes failed stops as a core fault (R81). -/
def State.checkFailed (s : State) (k : CoreId) (h : Replay) (o : MxOp) (f : FaultyRow) : State :=
  let ws := (h.writes.filter fun w => !o.inRows w) ++ o.failedRows (!h.teo.isEmpty) h.pass f
  let j := (o.partAt k f.part).1
  (((s.presentReplay k { h with writes := ws }).dropOp k o).updCore j fun c => c.flag CFAULT).coreFault j 1

/-- A mismatch in a pass of an overflow replay's rerun: a check replay of that pass follows, whose hold is added (R106). -/
def State.recheck (s : State) (k : CoreId) (h : Replay) (o : MxOp) (p : Nat) (f : FaultyRow) : State :=
  let h' := { h with
    check := true, left := replayHold o true p, part := f.part, pass := p, row := f.row
    ops := replaceOp h.ops { o with chkrep := true } }
  let x := o.partAt k f.part
  (s.updCore k fun c => { c with hold := some h' }).checkReplayEvent x.1 x.2

/-- The end of a hold whose rerun has no mismatch left: the next overflow replay where the rerun has overflowed again, otherwise what the
hold presents (R95, R96). -/
def State.passHold (s : State) (k : CoreId) (h : Replay) (o : MxOp) : State :=
  match h.again with
  | some pd => s.overflowStep k o h.detect pd h.times
  | none => s.presentReplay k h

/-- A row is compared in the very cycle of the detection that finds the rerun's next overflow: its mismatch is not counted (R108). -/
def Replay.overflowFirst (h : Replay) (o : MxOp) (p : Nat) (f : FaultyRow) : Bool :=
  h.again == some p && f.part + 1 == o.parts.length && (o.df == 1 || f.row == 127)

/-- The end of the hold in force on core k: what the rerun's check lanes find in a pass (R106, R107). Each pass of an overflow replay's
rerun has one check replay; a check replay has had its own, and the rows of the next pass that it has made again have theirs. -/
def State.endHold (s : State) (k : CoreId) (faulty : Option (Nat × FaultyRow)) : State :=
  match (s.core k).hold with
  | none => s
  | some h =>
    match h.ops.find? fun o => o.id == h.op with
    | none => s.presentReplay k h
    | some o =>
      match faulty with
      | none => s.passHold k h o
      | some (p, f) =>
        if o.rerunMismatch p f = false ∨ h.overflowFirst o p f = true then s.passHold k h o
        else if h.check ∧ p = h.pass then s.checkFailed k h o f
        else if h.check = false ∨ h.pass < p then s.recheck k h o p f
        else s.passHold k h o

/-- REPLAY_HOLD_END (R99, R106, R107): with the pass and row that a faulty array presents in the rerun. -/
def execReplayHoldEnd (k : CoreId) (faulty : Option (Nat × FaultyRow)) (s : State) : Host.Outcome State Fault Refusal :=
  atCore k s fun s => s.endHold k faulty

/-! ### Relay (R75-R78) -/

/-- A member core is lent to lead k: its tile and descriptor. -/
def Core.lentTo (c : Core) (k : CoreId) : Option (BitVec 6 × List Byte) :=
  match c.relay with
  | .member lead tile desc _ => if lead = k ∧ c.mxq.isEmpty = true then some (tile, desc) else none
  | _ => none

/-- The other cores of a chain, in ascending die-local number (R75). -/
def chainMembers (k : CoreId) (mask : BitVec 16) : List CoreId :=
  ((chainCores mask).map fun j => coreAt (dieOf k) j).filter (· != k)

/-- The members of lead k's chain that are lent to it. -/
def State.lentMembers (s : State) (k : CoreId) (mask : BitVec 16) : List CoreId :=
  (chainMembers k mask).filter fun m => ((s.core m).lentTo k).isSome

/-- A Relay operation aborted (R78): BADMX on the lead and on every lent member, which are released; a member's own bits beside it (R34,
R47). [DEDUCED: log 25] -/
def State.relayAbort (s : State) (k : CoreId) (lent : List (CoreId × BitVec 9)) : State :=
  ((k, 0) :: lent).foldl (fun s m =>
    s.updCore m.1 fun c => ({ c with relay := .none } : Core).relayResume.flag (BADMX ||| m.2)) s

/-- Member `j` of the chain as a part of the operation: its columns of the split side, and the bits its record sets (R75, R77,
R78): BADFMT for a reserved format code or a coarse scale outside R47, BADMX for the rest. [DEDUCED: log 25] -/
def State.memberPart (s : State) (a : MxArgs) (d : MxDesc) (j : Nat) (m : CoreId) (tile : BitVec 6) (desc : List Byte) :
    MxPart × BitVec 9 :=
  let e := readDesc m (leNat desc)
  let split := if a.df = 2 then d.mExt else d.nExt
  let ext := min 256 (split - 256 * j)
  let sub : MxSub := if a.df = 2 then ⟨0, 128, 0, ext, d.k, e.x, d.w⟩ else ⟨0, 128, 0, ext, d.k, d.x, e.w⟩
  let lead : MxSub := ⟨0, 128, 0, min 256 split, d.k, d.x, d.w⟩
  let c := s.core m
  let bits := (if a.df = 2 then fmtBits_ e.x.fs ||| mxBad (!e.x.ok ext d.k) ||| mxBad (!e.xRsv)
      else fmtBits_ e.w.fs ||| mxBad (!e.w.ok d.k ext) ||| mxBad (!e.wRsv)) |||
    c.tileBits m tile.toNat a.start.toNat a.arm [sub.x.fs.coarse] [sub.w.fs.coarse] |||
    mxBad (tileWidth c.arch.layout != 256)
  (⟨m, tileIdx tile, c.arch.layout, 4 * j, [sub], [], [], [], [], false⟩, bits ||| mxBad (sub.slow != lead.slow))

/-- The chain of lead k is lent: the operation issues in the lead's current cycle, or is aborted (R76, R78). [DEDUCED: log
25] -/
def State.relayIssue (s : State) (k : CoreId) (a : MxArgs) (desc : List Byte) (bidx : BIdx) : State :=
  let d := readDesc k (leNat desc)
  let ms := chainMembers k d.relayMask
  let parts := (ms.zip (List.range ms.length)).filterMap fun (m, i) =>
    ((s.core m).lentTo k).map fun t => s.memberPart a d (i + 1) m t.1 t.2
  if parts.length ≠ ms.length then s
  else if (parts.any fun x => x.2 != 0) || tileWidth (s.core k).arch.layout != 256 then
    s.relayAbort k (ms.zip (parts.map (·.2)))
  else
    let ext := if a.df = 2 then d.mExt else d.nExt
    let own := s.ownPart k a.tile [⟨0, 128, 0, min 256 ext, d.k, d.x, d.w⟩]
    let s := s.acceptOp k a bidx (if a.df = 2 then d.nExt else d.mExt) false true (own :: parts.map (·.1))
    let s := s.updCore k fun c => ({ c with relay := .none } : Core).relayResume
    ms.foldl (fun s m => s.updCore m fun c => { c with relay := .running k }) s

/-- RELAY_CHAIN_LENT (R76). -/
def execRelayChainLent (k : CoreId) (s : State) : Host.Outcome State Fault Refusal :=
  atCore k s fun s =>
    match (s.core k).relay with
    | .lead a desc bidx => if (s.core k).mxq.isEmpty then s.relayIssue k a desc bidx else s
    | _ => s

/-- RELAY_LEND_TIMEOUT (R78): 2^20 cycles after the lead's hold began, a chain core is not lent. -/
def execRelayLendTimeout (k : CoreId) (s : State) : Host.Outcome State Fault Refusal :=
  atCore k s fun s =>
    match (s.core k).relay with
    | .lead _ desc _ =>
      let d := readDesc k (leNat desc)
      let lent := s.lentMembers k d.relayMask
      if (s.core k).mxq.isEmpty ∧ lent.length < (chainMembers k d.relayMask).length then
        s.relayAbort k (lent.map fun m => (m, 0))
      else s
    | _ => s

end Sys2Proof.Machine
end

