-- ==== Sys2Proof/Machine/Reset.lean ====
section
/-! DEFINITION. Starts, resets and the faults that stop the module: boot (R451, R452, R456, R458), reset kinds (R466-R470), the
supply (R475-R480), thermal stops (R487, R488), and the replies after which a reset follows. -/

namespace Sys2Proof.Machine

/-! ### What a reset keeps (R18, R362, R372, R404, R466) -/

/-- A physical core after a reset: its state and history from flash; a test that a reset cuts short does not count (R362). A
PARKED
core stays PARKED and owed, and is tested after the start. [DEDUCED: log 40, 73] -/
def PCore.afterReset (x : PCore) (phours : BitVec 24) : PCore :=
  let parked := x.pst == .parked
  { x with
    phase := 0, test := none, due := if parked then some 6 else none
    owed := x.owed || parked, owedAt := if parked && !x.owed then phours else x.owedAt }

/-- The cores whose tests a reset cuts short, with their tests. [DEDUCED: log 40] -/
def State.cutTests (s : State) (p : DieId → Bool) : List (DieId × PCoreNo × CdTest) :=
  s.allPCores.filterMap fun x => if p x.1 then (s.pcore x.1 x.2).test.map fun t => (x.1, x.2, t) else none

/-- The tests of die logic, and with `hub` of the hub, that a reset cuts short. -/
def State.cutAreas (s : State) (p : DieId → Bool) (hub : Bool) : List (Nat × RegionTest) :=
  let running (t : Option RegionTest) : Option RegionTest := t.filter fun t => t.phase != 0
  ((List.finRange 4).filterMap fun d => if p d then (running s.dies[d].logic).map fun t => (d.val, t) else none) ++
    (if hub then ((running s.cooldown.hub).map fun t => (0x10, t)).toList else [])

/-- A record of the ageing history has a correct CRC-32C (R365, R372). -/
def AgeRecord.valid (r : AgeRecord) : Bool :=
  let n := r.length - 4
  decide (4 ≤ r.length) && leNat (r.drop n) == (crc32c (r.take n)).toNat

/-- The newest valid Cooldown record of a core whose result code satisfies `p` (R365). -/
def newestTest (l : List AgeRecord) (d : DieId) (c : PCoreNo) (p : Nat → Bool) : Option AgeRecord :=
  l.find? fun r => AgeRecord.valid r && r.length == 32 && leNat ((r.drop 3).take 1) == d.val && leNat ((r.drop 4).take 1) == c.val &&
    p (leNat ((r.drop 5).take 1))

/-- What a start reads of a core from the ageing history (R362, R364, R365): the result of its newest record whose test counted, and the hour of
the newest one that passed; where the history holds none, what the core map holds stands. [DEDUCED: log 73] -/
def PCore.readHistory (x : PCore) (l : List AgeRecord) (d : DieId) (p : PCoreNo) : PCore :=
  { x with
    lastRes := match newestTest l d p fun c => c != 5 && c != 7 with
      | some r => BitVec.ofNat 4 (leNat ((r.drop 5).take 1))
      | none => x.lastRes
    lastPass := match newestTest l d p fun c => c == 1 with
      | some r => BitVec.ofNat 24 (leNat (r.take 3))
      | none => x.lastPass }

/-- A logical core with no ACTIVE physical core is mapped to a spare, which is no rotation; without one it is unavailable (R22, R361). -/
def State.mapCore (s : State) (k : CoreId) : State :=
  let d := dieOf k
  if s.hasCore k = false ∨ (s.core k).unavailable = true ∨ (s.servedBy k).isSome then s
  else
    match s.takeInto d with
    | some (p, s) => s.updPCore d p fun x => { x.serve k with due := none }
    | none => (s.updCore k fun c => { c with unavailable := true }).mark 0

/-- The newest valid plan record of a die (R372). -/
def newestPlan (l : List AgeRecord) (die : Nat) : Option AgeRecord :=
  l.find? fun r => AgeRecord.valid r && r.length == 96 && leNat ((r.drop 3).take 1) == die

/-- A Taper at a start (R369, R372): the newest valid plan of the die; without one the baseline, or offset 6 where the baseline record is
invalid. [DEDUCED: log 74] -/
def Taper.afterReset (t : Taper) (l : List AgeRecord) (die : Nat) : Taper :=
  let t0 : Taper := { Taper.reset with base := t.base, nobase := t.base.isNone, floor := t.floor }
  match newestPlan l die with
  | some r =>
    let m := leNat ((r.drop 7).take 1)
    let o := leNat ((r.drop 5).take 1)
    { t0 with
      planMin := BitVec.ofNat 8 m, offset := BitVec.ofNat 4 o, lastPlan := BitVec.ofNat 24 (leNat (r.take 3)), planned := true
      limit := decide (o = 12 ∧ m < 40) }
  | none => if t.base.isNone then { t0 with offset := 6 } else t0

/-- A stack at a start: what the lane-repair record holds. [DEDUCED: log 73] -/
def Stack.afterReset (x : Stack) : Stack := { Stack.reset with lrep := x.lrep }

/-- Cooldown at a start: its settings, hours and history from flash. -/
def Cooldown.afterReset (c : Cooldown) (cut : List (DieId × PCoreNo × CdTest)) (areas : List (Nat × RegionTest)) : Cooldown :=
  { Cooldown.reset with
    deadline := c.deadline, interval := c.interval, phours := c.phours, history := c.history, hubDue := c.hubDue
    cut := c.cut ++ cut, cutAreas := c.cutAreas ++ areas }

/-- An event latched for the next start. -/
def State.latch (s : State) (evt sev : Byte) (detail : Word) : State :=
  s.updClerk fun c => { c with late := c.late ++ [⟨evt, sev, detail⟩] }

/-- The module at boot step 1 after a reset of kind `kind` (1 POWER, 2 MODULE): everything reset but what both kinds keep. -/
def State.start (s : State) (kind src : Byte) : State :=
  let h := s.cooldown.history
  { State.reset with
    pending := s.pending, fresh := s.fresh, irqs := s.irqs, fuses := s.fuses, hostMem := s.hostMem
    cores := Vector.ofFn fun k => { Core.reset with unavailable := s.cores[k].unavailable }
    dies := Vector.ofFn fun d =>
      { Die.reset 0 with
        pcores := Vector.ofFn fun p => (s.dies[d].pcores[p].afterReset s.cooldown.phours).readHistory h d p }
    hbms := s.hbms.map Stack.afterReset
    events := { Events.reset with flashed := s.events.flashed }
    cooldown := s.cooldown.afterReset (s.cutTests fun _ => true) (s.cutAreas (fun _ => true) true)
    tapers := Vector.ofFn fun d => s.tapers[d].afterReset h (dieCode d)
    svc := s.svc
    flash := { s.flash with starts := s.flash.starts + 1 }
    power := { Power.reset with limits := s.firstLimits, pcap := s.power.pcap, last := s.power.last }
    clerk := { Clerk.reset with
      power := kind == 1, rkind := kind, rsrc := src, rdie := if kind = 2 then s.clerk.rdie else 0, late := s.clerk.late } }

/-- Pairs of an HBM map. -/
def hbmPart {α : Type} (m : Sparse α) (unit : Nat) : Sparse α := m.filter fun e => decide (e.1 * unit < 2 ^ 41)

/-- The coolant meets Table: Coolant requirements, by the last readings (R488): inlet, flow, and the pressure drop, which the table bounds
at 10 L/min. [DEDUCED: log 77] -/
def State.coolantMet (s : State) : Bool :=
  let p := s.power.last
  decide (1500 ≤ p.inlet ∧ p.inlet ≤ 4000 ∧ (if s.fuses.gy4 then 1000 else 570) ≤ p.flow ∧ p.flow ≤ 1600 ∧
    (1000 < p.flow ∨ p.dpres ≤ 600))

/-- A MODULE reset (R466): HBM data, bibs, poison marks, the reserved frames with their save images (R362) and the host link with its
configuration are kept; the fields of `HP_STAT` take their reset values (R439). A replay under way is abandoned (R468, R502). [DEDUCED: log 73] -/
def State.moduleReset (s : State) (src : Byte) : State :=
  let s := s.unabsorb
  let h := s.host
  let kept := s.frames.filter fun f => decide (s.frameCount - s.dieCount ≤ f.1)
  let s := s.setFrames kept
  { s.start 2 src with
    dies := Vector.ofFn fun d =>
      { (s.start 2 src).dies[d] with saves := s.dies[d].saves, barSave := s.dies[d].barSave, saveBase := s.dies[d].saveBase }
    mem := hbmPart s.mem 1, bibs := hbmPart s.bibs 4096, fills := s.fills, poison := s.poison
    frames := kept, shelf := s.shelf
    host := { h with aptb := 0, lspeed := 0, lwidth := 0, hfails := 0, ready := false, linkLost := false, aptErr := false }
    power := { (s.start 2 src).power with
      target := s.power.target, pstop := s.power.pstop && !s.coolantMet, energy := s.power.energy, peak := s.power.peak
      ticks := s.power.ticks
      rails := s.power.rails } }

/-- A POWER start (R466): only fuses and flash are kept; every HBM block is poisoned. [DESIGN CHOICE: log 1] [DEDUCED: log
73] -/
def State.powerStart (s : State) : State := s.start 1 4

/-! ### Boot (R451, R452, R456, R458, R462, R465, R485) -/

/-- A slot runs: the Clerk firmware starts (step 3). -/
def State.runSlot (s : State) (b trial : Bool) : State := s.updClerk fun c => { c with slot := b, trial := trial }

/-- A slot that is abandoned or bad, reported by the firmware once it runs. -/
def slotEvent (evt sev : Byte) (b : Bool) (reason : Nat) : LateEvent := ⟨evt, sev, BitVec.ofNat 64 ((if b then 1 else 0) + reason <<< 8)⟩

/-- Rules 3 and 4 of R456: `BACT`'s slot, or else the other. The answer tells whether a slot runs, with its events. [DEDUCED:
log 74] -/
def State.selectActive (s : State) : Option (State × List LateEvent) :=
  let a := s.flash.bootRec.bact
  match slotFault s.fuses (s.flash.slot a) with
  | none => some (s.runSlot a false, [])
  | some r =>
    if s.verifies (!a) then
      some ((({ s with flash := s.flash.writeRec (!a) s.flash.bootRec.bpend s.flash.bootRec.btrial } : State).runSlot (!a)
        false).mark 6, [slotEvent 0x29 2 a r])
    else none

/-- The slot that a start selects (R456); without one, what it has to report is kept for the next start. -/
def State.selectSlot (s : State) : State × Option (List LateEvent) :=
  let b := s.flash.bootRec
  let active (s : State) (ev : List LateEvent) : State × Option (List LateEvent) :=
    match s.selectActive with
    | some (t, l) => (t, some (ev ++ l))
    | none => (s.updClerk fun c => { c with late := c.late ++ ev }, none)
  let clear : State := { s with flash := s.flash.writeRec b.bact none 0 }
  match b.bpend with
  | none => active s []
  | some p =>
    if b.btrial < 2 then
      let t : State := { s with flash := s.flash.writeRec b.bact (some p) (b.btrial + 1) }
      match slotFault t.fuses (t.flash.slot p) with
      | none => (t.runSlot p true, some [])
      | some r => active { t with flash := t.flash.writeRec b.bact none 0 } [slotEvent 0x28 0 p r]
    else active clear [slotEvent 0x28 0 p 0x10]

/-- Digests 0 and 1 (R462). [DEDUCED: log 70] -/
def State.measureBoot (s : State) : State :=
  let fuse := natLe 55 (s.fuses.block >>> 332)
  s.updClerk fun c =>
    (c.extend 0 (digest256 (sha256 (Config.rom ++ fuse)))).extend 1 (digest256 (sha256 (s.running.bytes 0 624)))

/-- What the field state of the flash holds (R449): core states, lane history, limits, `CD_CFG`, service marks and the token
counter. [DESIGN CHOICE: log 14] -/
def State.fieldBytes (s : State) : List Byte :=
  s.pcoreWords ++ (s.flash.lanes.flatMap fun l => natLe 4 l.1 ++ natLe 4 l.2.1 ++ natLe 4 l.2.2) ++
    ((s.flash.limits.map Limits.bytes).getD []) ++ natLe 2 s.cooldown.deadline.toNat ++ natLe 2 s.cooldown.interval.toNat ++
    (s.svc.toList.flatMap fun m => natLe 3 (m.getD 0xFFFFFF).toNat) ++ natLe 4 s.flash.tokens.toNat

/-- Digests 2 to 4, the last of the field state as read in step 3 (R462). [DEDUCED: log 70] -/
def State.measureClerk (s : State) : State :=
  s.updClerk fun c => ((c.extend 2 s.patternDigest).extend 3 (digest256 (sha256 Config.factoryRecords))).extend 4 c.field

/-- FLASH_COPY for each record in a part of the flash whose copy on device 0 fails: it is read from device 1 (R449, R474).
[DEDUCED: log 74] -/
def State.tellCopies (s : State) (lo hi : Nat) : State :=
  s.flash.badCopies.foldl (fun s e =>
    if !e.2 && decide (lo ≤ e.1.toNat ∧ e.1.toNat < hi) then s.emitHub 0x2C 0 e.1.toNat else s) s

/-- The serial in the factory records of both flash devices compared with the fuses (R465). [DEDUCED: log 74] -/
def State.bindFlash (s : State) : State :=
  match s.flash.serials.toList.find? fun x => x != s.fuses.serial with
  | some x => (s.updClerk fun c => { c with foreign := true }).emitHub 0x2D 2 x.toNat
  | none => s

/-- The flash records of step 3 read: field state and ageing history, and the serials. [DEDUCED: log 70] -/
def State.readRecords (s : State) : State :=
  let s := (s.updClerk fun c => { c with field := Config.fieldDigest s.fieldBytes }).bindFlash
  (s.tellCopies 0x5000000 0x6000000).tellCopies 0x10000000 0x20000000

/-- A late event written as a record. [DEDUCED: log 73] -/
def State.emitLate (s : State) (e : LateEvent) : State := s.emitHub e.evt e.sev e.detail.toNat

/-- Step 2 ends: a slot runs, and MODULE_FAULT is the first record (R352); or recovery is served (R452). -/
def State.bootSelect (s : State) : State :=
  match s.selectSlot with
  | (t, none) => (t.updClerk fun c => { c with recovery := true }).serve
  | (t, some ev) =>
    let first := t.clerk.late.filter fun e => e.evt == 0x11
    let t := t.measureBoot.updClerk fun c => { c with bstage := 3, late := c.late.filter fun e => e.evt != 0x11 }
    ((first ++ ev).foldl (fun s e => s.emitLate e) t).serve

/-- The limits that a start takes: those made persistent, or the first-start values (R485). -/
def State.restoreLimits (s : State) : State :=
  { s with power := { s.power with limits := s.flash.limits.getD s.firstLimits } }

/-- A start fails in a step (R452). [DEDUCED: log 74] -/
def State.bootStops (s : State) : State := (s.updClerk fun c => { c with bfail := c.bstage, bstage := 255 }).serve

/-- The coolant that step 5 needs when its first die is due (R478): at least 4 L/min, at most 45 °C. [DEDUCED: log 74] -/
def State.coolantForBoot (s : State) : Bool := decide (400 ≤ s.power.last.flow ∧ s.power.last.inlet ≤ 4500)

/-- Every present link port has come to ACTIVE or FAILED, and whether one is ACTIVE. -/
def State.linksSettled (s : State) : Bool :=
  (List.finRange 4).all fun d => !s.hasDie d || (s.link d).up || (s.link d).hub.lstate == .failed
def State.someLink (s : State) : Bool := (List.finRange 4).any fun d => s.hasDie d && (s.link d).up

/-- Every stack still in training comes into service. -/
def State.stacksServe (s : State) : State :=
  { s with hbms := Vector.ofFn fun st =>
      if st.val < s.stackCount ∧ s.hbms[st].hstate = .training then { s.hbms[st] with hstate := .inService }
      else s.hbms[st] }

/-- The records of tests that a reset has cut short, with code 5, and CD_INCOMPLETE of each die with cores whose tests did not count (R362,
R365). [DEDUCED: log 73] -/
def State.emitIncomplete (s : State) : State :=
  let l := s.cooldown.cut
  let s := l.foldl (fun s x =>
    s.age (cdRecord s.cooldown.phours x.1.val x.2.1.val 5 x.2.2.reason.toNat x.2.2.sig2 x.2.2.sig3 x.2.2.fails)) s
  let s := s.cooldown.cutAreas.foldl (fun s x => s.age (cdRecord s.cooldown.phours x.1 0xFF 5 0 x.2.sig2 x.2.sig3 0)) s
  let s := (List.finRange 4).foldl (fun s d =>
    let mask := (l.filter fun x => x.1 == d).foldl (fun (m : BitVec 18) x => m ||| (1 <<< x.2.1.val)) 0
    if mask = 0 then s else s.emit 0x16 0 (BitVec.ofNat 8 d.val) 0x7F (BitVec.ofNat 64 mask.toNat) 0 false) s
  { s with cooldown := { s.cooldown with cut := [], cutAreas := [] } }

/-- Step 11 ends (R451): `READY`, the latched events, RESET_DONE, and the held mailbox commands. [DEDUCED: log 73] -/
def State.becomeReady (s : State) : State :=
  let s : State := { s with host := { s.host with ready := true } }
  let late := s.clerk.late
  let s := late.foldl (fun s e => s.emitLate e) (s.updClerk fun c => { c with bstage := 12, late := [] })
  let s := s.emitHub 0x2A 0 (s.clerk.rkind.toNat + s.clerk.rsrc.toNat <<< 8 + s.clerk.rdie.toNat <<< 16)
  s.emitIncomplete.serve

/-- The next boot step. [DEDUCED: log 74] -/
def State.nextStage (s : State) : State := s.updClerk fun c => { c with bstage := c.bstage + 1 }

/-- The die of a Taper is present. -/
def State.hasTaper (s : State) (d : Fin 5) : Bool := decide (d.val < s.dieCount) || d.val == 4

/-- The baseline record of a die fails its CRC-32C in step 5 (R369): without a valid plan the die runs at offset 6. [DEDUCED: log 74] -/
def State.baselineFails (s : State) (d : Fin 5) : State :=
  { s with tapers := vupd s.tapers d fun t => { t with base := none, nobase := true, offset := if t.planned then t.offset else 6 } }

/-- TAPER_NOBASE of each die that runs without a baseline and without a plan (R366, R369). -/
def State.tellNoBase (s : State) : State :=
  (List.finRange 5).foldl (fun s d =>
    if s.hasTaper d && s.tapers[d].base.isNone && !s.tapers[d].planned then
      s.emit 0x1A 0 (BitVec.ofNat 8 (dieCode d)) 0x7F 0 0 false
    else s) s

/-- Step 5 begins: its first die is due, and is powered where the coolant allows it (R478). [DEDUCED: log 74] -/
def State.powerDies (s : State) : State :=
  let s := s.nextStage
  if s.coolantForBoot then { s with power := { s.power with diesOn := 1, dieTicks := 0 } } else s.bootStops

/-- The end of the boot step in progress (R451). [DEDUCED: log 74] -/
def State.bootDone (s : State) : State :=
  match s.clerk.bstage with
  | 1 => s.nextStage
  | 2 => if s.clerk.recovery then s else s.bootSelect
  | 3 =>
    let s := s.readRecords.restoreLimits
    (if s.clerk.trial then s else s.burnSvn).nextStage.serve
  | 4 => (s.measureClerk.tellCopies 0x4010000 0x5000000).powerDies
  | 5 =>
    let s : State := { s with power := { s.power with diesOn := s.dieCount } }
    (List.finRange 4).foldl (fun s d => if s.hasDie d then s.trainBoth d else s) s.tellNoBase.nextStage
  | 6 => if s.linksSettled = false then s else if s.someLink then s.nextStage else s.bootStops
  | 7 => s.stacksServe.nextStage
  | 8 => ((List.finRange 64).foldl (fun s k => s.mapCore k) s).nextStage
  | 9 => s.reserveFrames.nextStage
  | 10 => s.nextStage
  | 11 => if s.clerk.foreign ∨ s.svc[3].isSome then s else s.becomeReady.tellCopies 0x6000000 0x10000000
  | _ => s

/-- BOOT_STEP_END (R451, R452, R465): a stack that fails in step 7 and a die's link that fails in step 6 do not stop the start. -/
def execBootStepEnd (o : BootOutcome) (s : State) : Host.Outcome State Fault Refusal :=
  always s fun s =>
    match o with
    | .done => s.bootDone
    | .failed =>
      let n := s.clerk.bstage
      if n = 1 ∨ n = 4 ∨ n = 5 ∨ n = 6 ∨ n = 10 then s.bootStops else s
    | .stackFailed st =>
      if s.clerk.bstage = 7 ∧ st.val < s.stackCount then s.stackFault st true 1 0x1F else s
    | .laneFailed st ch lane spare =>
      if s.clerk.bstage = 7 ∧ st.val < s.stackCount ∧ s.hbms[st].hstate = .training then s.stackLaneFails st ch lane spare else s
    | .linkFailed d => if s.clerk.bstage = 6 ∧ s.hasDie d = true then s.failLink d 4 else s
    | .baselineBad d => if s.clerk.bstage = 5 ∧ s.hasTaper d = true then s.baselineFails d else s
    | .flashSerial device serial =>
      if s.clerk.bstage ≤ 3 then
        { s with flash := { s.flash with serials := vupd s.flash.serials (if device then 1 else 0) fun _ => serial } }
      else s
    | .copyBad off device =>
      if s.flash.badCopies.contains (off, device) then s
      else { s with flash := { s.flash with badCopies := s.flash.badCopies ++ [(off, device)] } }

/-! ### DIE resets (R467, R468) -/

/-- A Baton command names the Basin or Cistern windows of a die. -/
def BatonCmd.namesDie (c : BatonCmd) (d : DieId) : Bool :=
  c.ranges.any fun b =>
    (List.finRange 16).any fun k =>
      let o := coreAt d k
      decide ((basinBase o ≤ b.addr ∧ b.addr < basinBase o + 0x2000000) ∨ (cisternBase o ≤ b.addr ∧ b.addr < cisternBase o + 0x800000))

/-- The ACTIVE Baton command of a queue, begun or about to begin, names the windows of a die. [DEDUCED: log 75] -/
def State.batonNamesDie (s : State) (q : Nat) (d : DieId) : Bool :=
  (s.queue q).isActive && (s.queue q).ecls == 3 &&
    (match s.baton? q with
     | some c => c.namesDie d
     | none =>
       match s.readBaton q (s.headCmd q) with
       | .inr c => c.namesDie d
       | .inl _ => false)

/-- A context on another die that names the reset die is cleared (R467 step 2): arrivals, messages, `GEN` and `BVALID`.
[DEDUCED: log 75] -/
def BarCtx.clearFor (b : BarCtx) (d : DieId) : BarCtx :=
  if b.dieMask && b.dmask.getLsbD d.val then
    { BarCtx.reset with dieMask := b.dieMask, dmask := b.dmask, cmask := b.cmask }
  else b

/-- Messages to the cores and the Starter of a die, or of its cores, are lost with it. -/
def Msgs.without (m : Msgs) (d : DieId) : Msgs :=
  { ctrs := m.ctrs.filter fun x => dieOf x.target != d, notes := m.notes.filter fun x => dieOf x.target != d,
    regs := m.regs.filter fun x => dieOf x.target != d, arrs := m.arrs.filter fun x => dieOf x.core != d,
    dies := m.dies.filter fun x => x.target != d && !x.dmask.getLsbD d.val }

/-- The cores of a die in reset state, with their memories and marks cleared (R467 step 3). [DEDUCED: log 75] -/
def State.clearDie (s : State) (d : DieId) : State :=
  let s : State := { s with
    cores := Vector.ofFn fun k =>
      if dieOf k = d then { Core.reset with unavailable := s.cores[k].unavailable, nextTag := s.cores[k].nextTag } else s.cores[k]
    runnels := Vector.ofFn fun r => if dieOf (coreOf r) = d then Runnel.reset else s.runnels[r]
    msgs := s.msgs.without d
    rotations := s.rotations.filter fun r => dieOf r.core != d }
  (List.finRange 16).foldl (fun s i =>
    { s with mem := outWindows s.mem 1 (coreAt d i), bibs := outWindows s.bibs 4096 (coreAt d i) }) s

/-- A shutdown that a DIE reset interrupts does not complete (R362): cores not yet tested keep their earlier results, and its reply tells
STOPPED. [DEDUCED: log 75] -/
def State.shutdownCut (s : State) : State :=
  if s.cooldown.shutdown = false then s
  else
    let s := s.allPCores.foldl (fun s x => s.updPCore x.1 x.2 fun p =>
      if p.due = some 0 then { p with due := if p.pst = .parked then some 6 else none } else p) s
    let s := if s.cooldown.shutdownDone then s
      else s.updClerk fun c => { c with replies := c.replies.map fun r =>
        if r.cmd = 0x41 ∧ r.status = ST_OK then { r with status := ST_STOPPED } else r }
    { s with cooldown := { s.cooldown with shutdown := false, shutdownDone := false } }

/-- A DIE reset (R467, R468): a step replay under way is abandoned. The die is ready once its link is ACTIVE again. [DEDUCED:
log 75] -/
def State.dieReset (s : State) (d : DieId) : State :=
  let s := s.unabsorb.shutdownCut
  let s := s.killAll fun x => x.onDie d
  let s := s.queueNumbers.foldl (fun s q => if s.batonNamesDie q d then s.stopQueue q else s) s
  let cut := s.cutTests fun e => e == d
  let areas := s.cutAreas (fun e => e == d) false
  let s : State := { s with
    dies := Vector.ofFn fun e =>
      if e = d then
        { s.dies[e] with
          bars := Vector.replicate 16 BarCtx.reset, str := StrStat.reset, logic := none
          pcores := Vector.ofFn fun p => (s.dies[e].pcores[p].afterReset s.cooldown.phours).readHistory s.cooldown.history e p }
      else { s.dies[e] with bars := s.dies[e].bars.map fun b => b.clearFor d }
    cooldown := { s.cooldown with cut := s.cooldown.cut ++ cut, cutAreas := s.cooldown.cutAreas ++ areas } }
  let s := (s.clearDie d).updClerk fun c =>
    { c with
      rkind := 3, rsrc := 1, rdie := BitVec.ofNat 4 d.val, deadDies := c.deadDies.filter fun e => e != d
      dieResets := c.dieResets ++ [d] }
  s.resetDieEnd d

/-- MAILBOX_REPLY (R443, R444, R446, R466): the reply of a slot's command and the next command; where a reset was asked for,
the
reply comes first, and the row's next occurrence for the slot starts the reset. [DEDUCED: log 69] -/
def execMailboxReply (slot : Fin 8) (s : State) : Host.Outcome State Fault Refusal :=
  always s fun s =>
    match takeFirst (fun (r : Reply) => r.slot == slot) s.clerk.replies with
    | none => s
    | some (r, rest) =>
      if s.replyDue r = false then s
      else
        let s := s.updClerk fun c => { c with replies := rest }
        match r.after, r.replied with
        | .none, _ => (s.putReply r).serve
        | .program b blk data, _ =>
          (({ s with flash := s.flash.setSlot b ((s.flash.slot b).program blk (data.length / 4096) data) } : State).putReply r).serve
        | .commit b, _ => (({ s with flash := s.flash.writeRec s.flash.bootRec.bact (some b) 0 } : State).putReply r).serve
        | .moduleReset, true => s.moduleReset 1
        | .dieReset d, true => (s.dieReset d).serve
        | _, false => (s.putReply r).updClerk fun c => { c with replies := { r with replied := true } :: c.replies }

/-! ### Faults of the module (R26, R470) -/

/-- CLERK_WATCHDOG_EXPIRY (R470): a MODULE reset; CLERK_WDOG is reported after the start. [DESIGN CHOICE: log 17] -/
def execClerkWatchdogExpiry (s : State) : Host.Outcome State Fault Refusal :=
  always s fun s => (s.latch 0x2B 2 0).moduleReset 2

/-- A module fault (R26, R470): the module stops, its host link drops, and the fault is latched. [DESIGN CHOICE: log 17] -/
def State.moduleFault (s : State) (cause : Nat) : State :=
  let s := s.latch 0x11 2 ((Config.moduleFaultCause cause).zeroExtend 64)
  { s with
    clerk := { s.clerk with modFault := true }
    host := { s.host with linkUp := false, linkLost := s.host.linkLost || s.host.linkUp } }

/-- PLL_LOCK_LOSS (R26): the reference clock or the hub's root PLL stops the module; a die's root PLL stops that die. [DESIGN
CHOICE: log 17] -/
def execPllLockLoss (p : Pll) (s : State) : Host.Outcome State Fault Refusal :=
  match p with
  | .reference => always s fun s => s.moduleFault 0
  | .hubRoot => always s fun s => s.moduleFault 1
  | .dieRoot d => always s fun s =>
      if s.hasDie d = false ∨ s.clerk.deadDies.contains d = true then s else (s.dieFault d).updClerk fun c => { c with deadDies := c.deadDies ++ [d] }

/-- MODULE_FAULT_RESET (R470): the clocks have locked again, and a MODULE reset follows. -/
def execModuleFaultReset (s : State) : Host.Outcome State Fault Refusal :=
  anyway s fun s => if s.clerk.modFault = true ∧ s.power.stage = .on then s.moduleReset 3 else s

/-! ### Supply (R475-R480) -/

/-- The power stage off (R475-R477): an unplugged module has nothing but its fuses, its flash and what the hub holds.
[DEDUCED: log 81] -/
def State.stageOff (s : State) : State :=
  { s with
    power := { s.power with stage := .off }
    host := { s.host with linkUp := false } }

/-- SUPPLY_EVENT latched: the input voltage of the record is as measured, and the manual gives no value. -/
def State.supplyEvent (s : State) (sev : Byte) (cause rail : Nat) : State :=
  let f := s.takeFresh
  f.2.latch 0x33 sev (BitVec.ofNat 64 (cause + rail <<< 4 + fld (Config.freeWord f.1) 0 16 <<< 16))

/-- PWREN_ASSERT (R476): the hot-swap sequence begins. -/
def execPwrenAssert (s : State) : Host.Outcome State Fault Refusal :=
  anyway s fun s =>
    if s.power.pwren then s
    else { s with power := { s.power with pwren := true, stage := .step 1 0, tries := 0, latchedOff := false } }

/-- The stage is in the hot-swap sequence, one that waits to try again among them (R476). -/
def Stage.starting : Stage → Bool
  | .step _ _ => true
  | .retry => true
  | _ => false

/-- HOT_SWAP_STEP_TIMEOUT (R476): the step in progress has overrun; the stage is off, until the sequence tries again after 1 s, up to
three times. -/
def execHotSwapStepTimeout (s : State) : Host.Outcome State Fault Refusal :=
  anyway s fun s =>
    if s.power.stage.starting then
      let s := s.supplyEvent 0 3 0
      let t := s.power.tries + 1
      { s with power := { s.power with tries := t, stage := if 3 ≤ t then .off else .retry, latchedOff := decide (3 ≤ t) } }
    else s

/-- POWER_GOOD (R451, R476): the end of the hot-swap sequence; a POWER start begins. [DEDUCED: log 81] -/
def execPowerGood (s : State) : Host.Outcome State Fault Refusal :=
  anyway s fun s => if s.power.stage.starting then s.powerStart else s

/-- PWREN_DEASSERT (R477). -/
def execPwrenDeassert (s : State) : Host.Outcome State Fault Refusal :=
  anyway s fun s =>
    let t := s.stageOff
    { t with power := { t.power with pwren := false, tries := 0, latchedOff := false } }

/-- The stage switched off by the supply, where it is on or starting. [DEDUCED: log 81] -/
def State.supplyStops (s : State) (cause rail : Nat) : State :=
  if s.power.stage = .off then s else (s.supplyEvent 2 cause rail).stageOff

/-- BROWN_OUT (R475). -/
def execBrownOut (s : State) : Host.Outcome State Fault Refusal := anyway s fun s => s.supplyStops 1 0

/-- OVERVOLTAGE (R475). -/
def execOvervoltage (s : State) : Host.Outcome State Fault Refusal := anyway s fun s => s.supplyStops 2 0

/-- INPUT_RESTORED (R475): the sequence to a POWER start begins, unless the stage is to stay off. -/
def execInputRestored (s : State) : Host.Outcome State Fault Refusal :=
  anyway s fun s =>
    if s.power.stage = .off ∧ s.power.pwren = true ∧ s.power.latchedOff = false then
      { s with power := { s.power with stage := .step 1 0 } }
    else s

/-- RAIL_FAULT (R480): a hub rail or `BUS12` switches the stage off; a die's rail is a die fault. [DEDUCED: log 75] -/
def execRailFault (rail : Fin 13) (s : State) : Host.Outcome State Fault Refusal :=
  if rail.val < 5 then anyway s fun s => s.supplyStops 4 rail.val
  else
    always s fun s =>
      let d : DieId := ⟨(rail.val - 5) % 4, by omega⟩
      if s.hasDie d = false then s
      else
      let f := s.takeFresh
      let s := f.2.emitHub 0x33 0 (4 + rail.val <<< 4 + fld (Config.freeWord f.1) 0 16 <<< 16)
      let s : State := { s with power := { s.power with rails := s.power.rails ||| (1 <<< rail.val) } }
      if s.clerk.deadDies.contains d then s else (s.dieFault d).updClerk fun c => { c with deadDies := c.deadDies ++ [d] }

/-! ### Thermal stops (R487, R488) -/

/-- The cause of a thermal stop and the die or stack it names (R492). -/
def thermalCode : ThermalCause → Nat × Nat
  | .inlet => (1, 0)
  | .flow => (2, 0)
  | .dieHotspot d => (3, d.val)
  | .stack st => (4, st.val)
  | .hub => (5, 0)

/-- The die or stack that a cause names is present. -/
def State.causePresent (s : State) : ThermalCause → Bool
  | .dieHotspot d => s.hasDie d
  | .stack st => decide (st.val < s.stackCount)
  | _ => true

/-- The cores, Runnels and arrays of every die in reset (R488): the stacks keep their contents. -/
def State.holdCores (s : State) : State :=
  { s with
    cores := Vector.ofFn fun k => { Core.reset with unavailable := s.cores[k].unavailable, nextTag := s.cores[k].nextTag }
    runnels := Vector.replicate 128 Runnel.reset }

/-- THERMAL_STOP (R488): every core, Runnel, Starter and Baton queue is stopped, and the dies' cores are held in reset. -/
def execThermalStop (c : ThermalCause) (s : State) : Host.Outcome State Fault Refusal :=
  always s fun s =>
    if s.power.pstop = true ∨ s.causePresent c = false then s
    else
      let s := (s.killAll fun x => x.ecls == 1 || x.ecls == 2 || x.ecls == 4).stopAll fun x => x.ecls == 3
      let s : State := { s.holdCores with power := { s.power with pstop := true } }
      let n := thermalCode c
      s.emitHub 0x32 2 (n.1 + n.2 <<< 8)

/-- The stage off for good: `MODULE_FAULT` is latched. -/
def State.trip (s : State) : State :=
  let t := (s.moduleFault 2).stageOff
  { t with power := { t.power with latchedOff := true } }

/-- POWER_STAGE_TRIP (R488): the stage is off until `PWREN` is cycled; MODULE_FAULT is latched. -/
def execPowerStageTrip (c : ThermalCause) (s : State) : Host.Outcome State Fault Refusal :=
  always s fun s =>
    match c with
    | .dieHotspot d => if s.hasDie d then s.trip else s
    | .hub => s.trip
    | _ => s

end Sys2Proof.Machine
end

