-- ==== Sys2Proof/Machine/Power.lean ====
section
/-! DEFINITION. Power control: the target, throttling and ballast (R481-R487), the cap input, and the events of power and cooling
(R492). Powers are in hundredths of a watt. -/

namespace Sys2Proof.Machine

/-- PCAP_CHANGE (R482, R484): the level of the cap input. -/
def execPcapChange (asserted : Bool) (s : State) : Host.Outcome State Fault Refusal :=
  anyway s fun s => { s with power := { s.power with pcap := asserted } }

/-- What bounds `U`: the limits of R492, in its numbers, in hundredths of a watt. -/
structure Bounds where
  /-- `CAP`, or `ECAP` while the cap input is asserted and `ECAP` is lower. -/
  cap : Nat
  ecapOn : Bool
  thermal : Nat
  flow : Nat
  deriving DecidableEq, Repr

/-- The smallest bound. -/
def Bounds.u (b : Bounds) : Nat := min b.cap (min b.thermal b.flow)

/-- The number of the limit that is the smallest: 1 `CAP`, 2 `ECAP`, 4 temperature, 5 flow. -/
def Bounds.which (b : Bounds) : Nat :=
  if b.cap ≤ b.thermal ∧ b.cap ≤ b.flow then (if b.ecapOn then 2 else 1) else if b.thermal ≤ b.flow then 4 else 5

/-- A present die whose hotspot is at 100 °C or more, or that has a stack at 95 °C or more, is throttled (R487). -/
def State.hotDie (s : State) (m : PowerReading) (d : DieId) : Bool :=
  s.hasDie d && (decide (1000 ≤ m.dieHot[d]) ||
    (List.finRange 32).any fun i => dieOfStack i == d && decide (i.val < s.stackCount ∧ 95 ≤ s.hbms[i].temp.toNat))

/-- A hotspot of a die or of the hub throttles (R487). [DEDUCED: log 77] -/
def State.hotspot (s : State) (m : PowerReading) : Bool :=
  ((List.finRange 4).any fun d => s.hotDie m d) || decide (1000 ≤ m.hubHot)

/-- `U` lowered for an inlet above 40 °C, by 150 W (GY2-1024-L: 85 W) per degree. [DEDUCED: log 77] -/
def State.inletLimit (s : State) (m : PowerReading) (cap : Nat) : Nat :=
  cap - (if s.fuses.gy4 then 150 else 85) * (m.inlet - 4000).toNat

/-- The bounds of `U` (R482, R486, R487). How far a hotspot lowers `U` the manual does not say: a free value `hot`. [DEDUCED:
log 77] -/
def State.bounds (s : State) (m : PowerReading) (hot : Nat) : Bounds :=
  let l := s.power.limits
  let ecap := s.power.pcap && decide (l.ecap.toNat < l.cap.toNat)
  let cap := 100 * (if ecap then l.ecap.toNat else l.cap.toNat)
  let inlet := s.inletLimit m cap
  { cap := cap, ecapOn := ecap, thermal := if s.hotspot m then min inlet hot else inlet, flow := 600 * m.flow }

/-- The new target of R482: `T`, ramp `rho` per tick, bound `u`, floor `l`, demand `d`. [DEDUCED: log 77] -/
def nextTarget (t rho u l d : Nat) : Nat :=
  let up := min u (t + rho)
  let dn := max (t - rho) (min l (t + rho))
  min up (max dn d)

/-- What ballast can add up to (Table: Power control ranges), less the share of each die that a DIE reset holds (R485).
[DEDUCED: log 77] -/
def State.ballastCeiling (s : State) : Nat :=
  let n := s.dieCount
  let ceiling := 100 * s.floorMax
  ceiling - ceiling / n * min n s.clerk.dieResets.length

/-- The readings of R479 as the registers and the sensor pages show them: powers as the means of the last 100 samples, one each 10 µs. -/
def Power.measure (p : Power) (m : PowerReading) : Power :=
  let recent := (m :: p.recent).take 100
  { p with last := m, recent := recent, peak := max p.peak (mean (recent.map fun m => m.pin)), energy := p.energy + m.pin, ticks := p.ticks + 1, sinceLimit := p.sinceLimit + 1,
           sinceShort := p.sinceShort + 1 }

/-- One tick more limited by limit `i` of R492. -/
def Power.addLimited (p : Power) (i : Nat) : Power :=
  if h : 1 ≤ i ∧ i ≤ 5 then { p with limited := vupd p.limited ⟨i - 1, by omega⟩ (· + 1) } else p

/-- PWR_LIMIT for limit `i`: at most one record per second, with the time that this limit held since its record before
(R492). [DEDUCED: log 72, 77] -/
def State.pwrLimit (s : State) (i : Nat) : State :=
  if h : 1 ≤ i ∧ i ≤ 5 then
    let j : Fin 5 := ⟨i - 1, by omega⟩
    if 100000 ≤ s.power.sinceLimit then
      ({ s with power := { s.power with sinceLimit := 0, limited := vupd s.power.limited j fun _ => 0 } } : State).emitHub 0x2E 0
        (i + (10 * s.power.limited[j] % 2 ^ 32) <<< 16)
    else s
  else s

/-- Boot steps 1-4: at most 150 W, and no limiter (R485). -/
def Power.unlimited (p : Power) (m : PowerReading) : Power :=
  { p with target := min m.demand 15000, duties := Vector.replicate 64 64, therm := false, flowlim := false, caplim := false, ramplim := false,
           ballast := false, fshort := false, ballastPower := 0, recentBallast := (0 :: p.recentBallast).take 100 }

/-- The draw that a shutdown may have (Table: Shutdown timing). [DEDUCED: log 77] -/
def State.shutdownDraw (s : State) : Nat := if s.fuses.gy4 then 180000 else 110000

/-- The issue duty of each core (R481, R487): all of the cycles, or where the module is throttled, or the core's die is, a
free part of
them. [DESIGN CHOICE: log 8] [DEDUCED: log 77] -/
def State.coreDuties (s : State) (m : PowerReading) (throttled : Bool) (duty : Nat → Nat) : Vector Nat 64 :=
  Vector.ofFn fun k =>
    if s.hasCore k && (throttled || decide (1000 ≤ m.hubHot) || s.hotDie m (dieOf k)) then duty k.val % 65 else 64

/-- The limiter from boot step 5 on. `hot` is the free limit of a hotspot and `duty` the free duty of each throttled core. COOLANT_HOT and
COOLANT_LOW are reported as the inlet and the flow come to bound the draw (R486, R487). [DEDUCED: log 74, 77] -/
def State.limiter (s : State) (m : PowerReading) (hot : Nat) (duty : Nat → Nat) : State :=
  let p := s.power
  let b := s.bounds m hot
  let rho := p.limits.ramp.toNat
  let floor := if s.clerk.bstage = 12 ∧ s.clerk.shutdown = false then 100 * p.limits.floor.toNat else 0
  let d := if s.clerk.shutdown then min m.demand s.shutdownDraw else m.demand
  let t := nextTarget p.target rho b.u floor d
  let wanted := max (max (p.target - rho) (min floor (p.target + rho))) d
  let bounded := decide (b.u < wanted ∧ b.u ≤ p.target + rho)
  let ramped := decide (t ≠ min b.u (max floor d))
  let therm := decide (b.thermal < b.cap ∧ b.thermal ≤ b.flow)
  let flowlim := decide (b.flow < b.cap ∧ b.flow < b.thermal)
  let hotInlet := decide (4000 < m.inlet)
  let lowFlow := decide (b.flow < max m.pin d)
  let add := min (t - d) (s.ballastCeiling - d)
  let short := decide (d + add < t)
  let limit := if ramped then 3 else if bounded then b.which else 0
  let s1 : State := { s with
    power := { p with
      target := t, duties := s.coreDuties m (decide (t < d)) duty, therm := therm, flowlim := flowlim
      hotInlet := hotInlet, lowFlow := lowFlow, recentBallast := (add :: p.recentBallast).take 100
      caplim := bounded && decide (b.which < 3), ramplim := ramped, ballast := decide (0 < add), fshort := short
      ballastPower := add }.addLimited limit }
  let s2 := s1.pwrLimit limit
  let s3 := if hotInlet ∧ p.hotInlet = false then s2.emitHub 0x31 0 ((m.inlet % 65536).toNat) else s2
  let s4 := if lowFlow ∧ p.lowFlow = false then s3.emitHub 0x30 0 (m.flow % 65536 + (6 * m.flow % 65536) <<< 16) else s3
  if short then s4.floorShort 1 ((t - d - add) / 100)
  else if b.u < floor then s4.floorShort 3 ((floor - b.u) / 100)
  else s4

/-- In boot step 5 the next die is powered 200 ms after the one before it (R478). -/
def State.nextDie (s : State) : State :=
  if s.clerk.bstage = 5 ∧ s.power.diesOn < s.dieCount then
    if s.power.dieTicks + 1 < 20000 then { s with power := { s.power with dieTicks := s.power.dieTicks + 1 } }
    else { s with power := { s.power with diesOn := s.power.diesOn + 1, dieTicks := 0 } }
  else s

/-- POWER_CONTROL_TICK (R482): every 10 µs. [DESIGN CHOICE: log 13] [DEDUCED: log 77] -/
def execPowerControlTick (m : PowerReading) (s : State) : Host.Outcome State Fault Refusal :=
  always s fun s =>
    let s : State := { s with power := s.power.measure m }
    if s.clerk.limitStage < 5 then { s with power := s.power.unlimited m }
    else
      let s := s.nextDie
      let n := s.fresh
      ({ s with fresh := n + 65 } : State).limiter m (Config.freeWord n).toNat fun k => (Config.freeWord (n + 1 + k)).toNat

end Sys2Proof.Machine
end

