-- ==== Sys2Proof/Machine/Registers.lean ====
section
/-! DEFINITION. Writes of host software to registers that have no row of their own, by their access codes (R9). A write names a
register by its offset in BAR0 (R27, R432); reserved and read-only fields keep their values. -/

namespace Sys2Proof.Machine

/-- A bit that writing 1 clears. [DEDUCED: log 18] -/
def w1c (b : Bool) (v : Word) (i : Nat) : Bool := b && !v.getLsbD i

/-- `Q_STAT` (R248): `DBERR`, and the bits that act, from the highest. [DEDUCED: log 32] -/
def State.writeQStat (s : State) (q : Nat) (v : Word) : State :=
  let s := if (Sparse.find s.queues q).isSome then s.updQueue q fun x => { x with dberr := w1c x.dberr v 33 } else s
  let s := if v.getLsbD 63 then s.stopQueue q else s
  let s := if v.getLsbD 62 then s.resumeQueue q else s
  let s := if v.getLsbD 61 then s.skipQueue q else s
  if v.getLsbD 60 then s.flushQueue q else s

/-- `BAT_STAT` (R300). -/
def Baton.writeStat (b : Baton) (v : Word) : Baton :=
  { b with
    refuse := v.extractLsb' 32 16, bibRetry := v.extractLsb' 16 16, gfpErr := w1c b.gfpErr v 1
    matchErr := w1c b.matchErr v 0 }

/-- `DXT_STAT` (R430). -/
def Dxt.writeStat (x : Dxt) (v : Word) : Dxt := { x with retx := v.extractLsb' 16 16, drops := v.extractLsb' 0 16 }

/-- `HP_STAT` (R439). -/
def HostPort.writeStat (h : HostPort) (v : Word) : HostPort :=
  { h with hfails := v.extractLsb' 16 16, linkLost := w1c h.linkLost v 1, aptErr := w1c h.aptErr v 0 }

/-- `STR_STAT` of a die (R239): bits [5:1]. -/
def StrStat.write (x : StrStat) (v : Word) : StrStat := { x with bits := x.bits &&& ~~~(v.extractLsb' 1 5) }

/-- `HBM_STAT` (R412). -/
def Stack.writeStat (x : Stack) (v : Word) : Stack := { x with duecnt := v.extractLsb' 16 16, cecnt := v.extractLsb' 0 16 }

/-- `FP_ERR` (R430). -/
def Port.writeErr (x : Port) (v : Word) : Port :=
  { x with fecce := v.extractLsb' 32 32, fecue := v.extractLsb' 16 16, fcserr := v.extractLsb' 0 16 }

/-- `FDL_ERR` (R392). -/
def LinkPort.writeErr (x : LinkPort) (v : Word) : LinkPort :=
  { x with
    bresend := v.extractLsb' 48 16, mresend := v.extractLsb' 32 16, recovers := v.extractLsb' 24 8
    retrains := v.extractLsb' 16 8, wchanges := v.extractLsb' 8 8, lrepairs := v.extractLsb' 0 8 }

/-- `FDL_CTL` (R392): not made with `CALPER` or `WINPER` out of range; `PRESET` and `RETRAIN` act after the fields are written. -/
def State.writeLinkCtl (s : State) (p : DieId) (e : LinkEnd) (v : Word) : State :=
  let calper := v.extractLsb' 32 16
  let winper := v.extractLsb' 16 16
  if calper.toNat < 20 ∨ 1000 < calper.toNat ∨ winper.toNat < 10 ∨ 1000 < winper.toNat then s
  else
    let s := s.updEnd p e fun x => { x with calper := calper, winper := winper, calen := v.getLsbD 0 }
    let s := if v.getLsbD 63 then s.presetWrite p e else s
    if v.getLsbD 62 && s.hasDie p then s.retrainWrite p else s

/-- A register of one end of a die link, by its offset from the end's first register (R392). The hub end of an unpopulated position has
its registers; its port stays DOWN (R378). [DEDUCED: log 18] -/
def State.writeLinkReg (s : State) (p : DieId) (e : LinkEnd) (off : Nat) (v : Word) : State :=
  if s.hasDie p = false && e == .die then s
  else if off = 0x18 then s.writeLinkCtl p e v
  else if off = 0x28 then s.updEnd p e fun x => x.writeErr v
  else s

/-- A register of a fabric port, by its offset from the port's first register (R430). [DEDUCED: log 18] -/
def State.writePortReg (s : State) (p : PortId) (off : Nat) (v : Word) : State :=
  if s.portCount ≤ p.val then s
  else if off = 8 then { s with ports := vupd s.ports p fun x => { x with planeErr := w1c x.planeErr v 15 } }
  else if off = 0x10 then { s with ports := vupd s.ports p fun x => x.writeErr v }
  else s

/-- A register of the hub block. [DEDUCED: log 18] -/
def State.writeHubReg (s : State) (off : Nat) (v : Word) : State :=
  if off = 0x20200 then { s with baton := { s.baton with vcWeight := v } }
  else if off = 0x20208 then { s with baton := { s.baton with vcMap := v.extractLsb' 0 12 } }
  else if off = 0x20300 then { s with baton := s.baton.writeStat v }
  else if off = 0x20800 then s.updClerk fun c => { c with mberr := w1c c.mberr v 1 }
  else if off = 0x20808 then { s with events := { s.events with evcons := v.extractLsb' 32 32 } }
  else if off = 0x700010 then { s with dxt := { s.dxt with pcpmap := v.extractLsb' 0 24 } }
  else if off = 0x700018 then { s with dxt := s.dxt.writeStat v }
  else if off = 0x780008 then { s with host := s.host.writeStat v }
  else if 0x30000 ≤ off ∧ off < 0x34000 then s.writeLinkReg ⟨(off - 0x30000) / 0x1000 % 4, by omega⟩ .hub ((off - 0x30000) % 0x1000) v
  else if 0x701000 ≤ off ∧ off < 0x701600 then s.writePortReg ⟨(off - 0x701000) / 0x40 % 24, by omega⟩ ((off - 0x701000) % 0x40) v
  else if 0x400000 ≤ off ∧ off < 0x600000 ∧ off % 0x20 = 0x18 then s.writeQStat ((off - 0x400000) / 0x20) v
  else s

/-- A register of a die block. [DEDUCED: log 18] -/
def State.writeDieReg (s : State) (d : DieId) (off : Nat) (v : Word) : State :=
  if s.hasDie d = false ∨ s.dieOut d = true then s
  else if off = 0x40200 then s.updDie d fun x => { x with str := x.str.write v }
  else if 0x70000 ≤ off ∧ off < 0x71000 then s.writeLinkReg d .die (off - 0x70000) v
  else if 0x80000 ≤ off ∧ off < 0x80200 ∧ off % 0x40 = 0 then
    { s with hbms := vupd s.hbms ⟨(8 * d.val + (off - 0x80000) / 0x40) % 32, by omega⟩ fun x => x.writeStat v }
  else s

/-- REGISTER_WRITE (R9, R432): offsets from 0x500_0000 on ignore writes. [DEDUCED: log 18] -/
def execRegisterWrite (off : BitVec 27) (v : Word) (s : State) : Host.Outcome State Fault Refusal :=
  always s fun s => s.ifOpen 0 fun s =>
    let n := off.toNat
    if n < 0x1000000 then s.writeHubReg n v
    else if n < 0x5000000 then s.writeDieReg ⟨(n - 0x1000000) / 0x1000000 % 4, by omega⟩ (n % 0x1000000) v
    else s

end Sys2Proof.Machine
end

