-- ==== Sys2Proof/Machine/SlotRows.lean ====
section
/-! DEFINITION. The rows of the scalar, vector, matrix, load, store and sync slots: each starts its operation in the current
program cycle of a core, as a bundle whose slot holds it does (R135). -/

namespace Sys2Proof.Machine

/-- A slot operation started in the current cycle of core k; a core in a hold starts nothing (R67). [DESIGN CHOICE: log 12] -/
def atSlot (k : CoreId) (s : State) (f : State → State) : Host.Outcome State Fault Refusal :=
  atCore k s fun s =>
    let s' := s.settle k
    if (s'.core k).held then s else f s'

/-- A scalar-slot row. -/
def scalarRow (k : CoreId) (o : ScalarOp) (s : State) : Host.Outcome State Fault Refusal :=
  atSlot k s fun s => s.updCore k fun c => c.startScalar o

/-- A vector-slot row. -/
def vectorRow (k : CoreId) (o : VecOp) (s : State) : Host.Outcome State Fault Refusal :=
  atSlot k s fun s => s.startVector k o

/-- A matrix-slot row. -/
def matrixRow (k : CoreId) (o : MatOp) (s : State) : Host.Outcome State Fault Refusal :=
  atSlot k s fun s => s.startMatrix k o

/-- A load-slot row. -/
def loadRow (k : CoreId) (o : LoadOp) (s : State) : Host.Outcome State Fault Refusal :=
  atSlot k s fun s => s.startLoad k o

/-- A store-slot row. -/
def storeRow (k : CoreId) (o : StoreOp) (s : State) : Host.Outcome State Fault Refusal :=
  atSlot k s fun s => s.startStore k o

/-- A sync-slot row. -/
def syncRow (k : CoreId) (o : SyncOp) (s : State) : Host.Outcome State Fault Refusal :=
  atSlot k s fun s => s.startSync k o

/-- ADD (R174). -/
def execAdd (k : CoreId) (sd sa sb : Reg) (s : State) : Host.Outcome State Fault Refusal :=
  scalarRow k (.alu .add sd sa (.reg sb)) s

/-- ADDI (R174). -/
def execAddi (k : CoreId) (sd sa : Reg) (imm : BitVec 32) (s : State) : Host.Outcome State Fault Refusal :=
  scalarRow k (.alu .add sd sa (.imm imm)) s

/-- SUB (R174). -/
def execSub (k : CoreId) (sd sa sb : Reg) (s : State) : Host.Outcome State Fault Refusal :=
  scalarRow k (.alu .sub sd sa (.reg sb)) s

/-- SUBI (R174). -/
def execSubi (k : CoreId) (sd sa : Reg) (imm : BitVec 32) (s : State) : Host.Outcome State Fault Refusal :=
  scalarRow k (.alu .sub sd sa (.imm imm)) s

/-- AND (R174). -/
def execAnd (k : CoreId) (sd sa sb : Reg) (s : State) : Host.Outcome State Fault Refusal :=
  scalarRow k (.alu .and sd sa (.reg sb)) s

/-- ANDI (R174). -/
def execAndi (k : CoreId) (sd sa : Reg) (imm : BitVec 32) (s : State) : Host.Outcome State Fault Refusal :=
  scalarRow k (.alu .and sd sa (.imm imm)) s

/-- OR (R174). -/
def execOr (k : CoreId) (sd sa sb : Reg) (s : State) : Host.Outcome State Fault Refusal :=
  scalarRow k (.alu .or sd sa (.reg sb)) s

/-- ORI (R174). -/
def execOri (k : CoreId) (sd sa : Reg) (imm : BitVec 32) (s : State) : Host.Outcome State Fault Refusal :=
  scalarRow k (.alu .or sd sa (.imm imm)) s

/-- XOR (R174). -/
def execXor (k : CoreId) (sd sa sb : Reg) (s : State) : Host.Outcome State Fault Refusal :=
  scalarRow k (.alu .xor sd sa (.reg sb)) s

/-- XORI (R174). -/
def execXori (k : CoreId) (sd sa : Reg) (imm : BitVec 32) (s : State) : Host.Outcome State Fault Refusal :=
  scalarRow k (.alu .xor sd sa (.imm imm)) s

/-- SHL (R174). -/
def execShl (k : CoreId) (sd sa sb : Reg) (s : State) : Host.Outcome State Fault Refusal :=
  scalarRow k (.alu .shl sd sa (.reg sb)) s

/-- SHLI (R174). -/
def execShli (k : CoreId) (sd sa : Reg) (imm : BitVec 32) (s : State) : Host.Outcome State Fault Refusal :=
  scalarRow k (.alu .shl sd sa (.imm imm)) s

/-- SHR (R174). -/
def execShr (k : CoreId) (sd sa sb : Reg) (s : State) : Host.Outcome State Fault Refusal :=
  scalarRow k (.alu .shr sd sa (.reg sb)) s

/-- SHRI (R174). -/
def execShri (k : CoreId) (sd sa : Reg) (imm : BitVec 32) (s : State) : Host.Outcome State Fault Refusal :=
  scalarRow k (.alu .shr sd sa (.imm imm)) s

/-- SAR (R174). -/
def execSar (k : CoreId) (sd sa sb : Reg) (s : State) : Host.Outcome State Fault Refusal :=
  scalarRow k (.alu .sar sd sa (.reg sb)) s

/-- SARI (R174). -/
def execSari (k : CoreId) (sd sa : Reg) (imm : BitVec 32) (s : State) : Host.Outcome State Fault Refusal :=
  scalarRow k (.alu .sar sd sa (.imm imm)) s

/-- MIN (R174). -/
def execMin (k : CoreId) (sd sa sb : Reg) (s : State) : Host.Outcome State Fault Refusal :=
  scalarRow k (.alu .min sd sa (.reg sb)) s

/-- MINI (R174). -/
def execMini (k : CoreId) (sd sa : Reg) (imm : BitVec 32) (s : State) : Host.Outcome State Fault Refusal :=
  scalarRow k (.alu .min sd sa (.imm imm)) s

/-- MAX (R174). -/
def execMax (k : CoreId) (sd sa sb : Reg) (s : State) : Host.Outcome State Fault Refusal :=
  scalarRow k (.alu .max sd sa (.reg sb)) s

/-- MAXI (R174). -/
def execMaxi (k : CoreId) (sd sa : Reg) (imm : BitVec 32) (s : State) : Host.Outcome State Fault Refusal :=
  scalarRow k (.alu .max sd sa (.imm imm)) s

/-- MINU (R174). -/
def execMinu (k : CoreId) (sd sa sb : Reg) (s : State) : Host.Outcome State Fault Refusal :=
  scalarRow k (.alu .minu sd sa (.reg sb)) s

/-- MINUI (R174). -/
def execMinui (k : CoreId) (sd sa : Reg) (imm : BitVec 32) (s : State) : Host.Outcome State Fault Refusal :=
  scalarRow k (.alu .minu sd sa (.imm imm)) s

/-- MAXU (R174). -/
def execMaxu (k : CoreId) (sd sa sb : Reg) (s : State) : Host.Outcome State Fault Refusal :=
  scalarRow k (.alu .maxu sd sa (.reg sb)) s

/-- MAXUI (R174). -/
def execMaxui (k : CoreId) (sd sa : Reg) (imm : BitVec 32) (s : State) : Host.Outcome State Fault Refusal :=
  scalarRow k (.alu .maxu sd sa (.imm imm)) s

/-- SEQ (R174). -/
def execSeq (k : CoreId) (sd sa sb : Reg) (s : State) : Host.Outcome State Fault Refusal :=
  scalarRow k (.alu .seq sd sa (.reg sb)) s

/-- SEQI (R174). -/
def execSeqi (k : CoreId) (sd sa : Reg) (imm : BitVec 32) (s : State) : Host.Outcome State Fault Refusal :=
  scalarRow k (.alu .seq sd sa (.imm imm)) s

/-- SLT (R174). -/
def execSlt (k : CoreId) (sd sa sb : Reg) (s : State) : Host.Outcome State Fault Refusal :=
  scalarRow k (.alu .slt sd sa (.reg sb)) s

/-- SLTI (R174). -/
def execSlti (k : CoreId) (sd sa : Reg) (imm : BitVec 32) (s : State) : Host.Outcome State Fault Refusal :=
  scalarRow k (.alu .slt sd sa (.imm imm)) s

/-- SLTU (R174). -/
def execSltu (k : CoreId) (sd sa sb : Reg) (s : State) : Host.Outcome State Fault Refusal :=
  scalarRow k (.alu .sltu sd sa (.reg sb)) s

/-- SLTUI (R174). -/
def execSltui (k : CoreId) (sd sa : Reg) (imm : BitVec 32) (s : State) : Host.Outcome State Fault Refusal :=
  scalarRow k (.alu .sltu sd sa (.imm imm)) s

/-- MOVI (R174). -/
def execMovi (k : CoreId) (sd : Reg) (imm : BitVec 32) (s : State) : Host.Outcome State Fault Refusal :=
  scalarRow k (.movi sd imm) s

/-- MOVHI (R174). -/
def execMovhi (k : CoreId) (sd sa : Reg) (imm : BitVec 32) (s : State) : Host.Outcome State Fault Refusal :=
  scalarRow k (.movhi sd sa imm) s

/-- SEL (R174). -/
def execSel (k : CoreId) (sd sa sb : Reg) (imm : BitVec 32) (s : State) : Host.Outcome State Fault Refusal :=
  scalarRow k (.sel sd sa sb imm) s

/-- MUL (R174). -/
def execMul (k : CoreId) (sd sa sb : Reg) (s : State) : Host.Outcome State Fault Refusal :=
  scalarRow k (.mul .mul sd sa sb) s

/-- MULH (R174). -/
def execMulh (k : CoreId) (sd sa sb : Reg) (s : State) : Host.Outcome State Fault Refusal :=
  scalarRow k (.mul .mulh sd sa sb) s

/-- MULHU (R174). -/
def execMulhu (k : CoreId) (sd sa sb : Reg) (s : State) : Host.Outcome State Fault Refusal :=
  scalarRow k (.mul .mulhu sd sa sb) s

/-- RDCR (R175). -/
def execRdcr (k : CoreId) (sd : Reg) (sx : BitVec 9) (s : State) : Host.Outcome State Fault Refusal :=
  scalarRow k (.rdcr sd sx) s

/-- WRCR (R175). -/
def execWrcr (k : CoreId) (sa : Reg) (sx : BitVec 9) (s : State) : Host.Outcome State Fault Refusal :=
  scalarRow k (.wrcr sa sx) s

/-- RDTM (R176). -/
def execRdtm (k : CoreId) (sd : Reg) (sx : BitVec 9) (s : State) : Host.Outcome State Fault Refusal :=
  scalarRow k (.rdtm sd sx) s

/-- WRTM (R176). -/
def execWrtm (k : CoreId) (sa : Reg) (sx : BitVec 9) (s : State) : Host.Outcome State Fault Refusal :=
  scalarRow k (.wrtm sa sx) s

/-- VADD (R181). -/
def execVadd (k : CoreId) (fmt : BitVec 4) (vd va : Reg) (b : VSrc) (s : State) : Host.Outcome State Fault Refusal :=
  vectorRow k (.bin .add fmt vd va b) s

/-- VSUB (R181). -/
def execVsub (k : CoreId) (fmt : BitVec 4) (vd va : Reg) (b : VSrc) (s : State) : Host.Outcome State Fault Refusal :=
  vectorRow k (.bin .sub fmt vd va b) s

/-- VMUL (R181). -/
def execVmul (k : CoreId) (fmt : BitVec 4) (vd va : Reg) (b : VSrc) (s : State) : Host.Outcome State Fault Refusal :=
  vectorRow k (.bin .mul fmt vd va b) s

/-- VMIN (R181). -/
def execVmin (k : CoreId) (fmt : BitVec 4) (vd va : Reg) (b : VSrc) (s : State) : Host.Outcome State Fault Refusal :=
  vectorRow k (.bin .min fmt vd va b) s

/-- VMAX (R181). -/
def execVmax (k : CoreId) (fmt : BitVec 4) (vd va : Reg) (b : VSrc) (s : State) : Host.Outcome State Fault Refusal :=
  vectorRow k (.bin .max fmt vd va b) s

/-- VMAXMAG (R181). -/
def execVmaxmag (k : CoreId) (fmt : BitVec 4) (vd va : Reg) (b : VSrc) (s : State) : Host.Outcome State Fault Refusal :=
  vectorRow k (.bin .maxmag fmt vd va b) s

/-- VABS (R181). -/
def execVabs (k : CoreId) (fmt : BitVec 4) (vd va : Reg) (s : State) : Host.Outcome State Fault Refusal :=
  vectorRow k (.un false fmt vd va) s

/-- VNEG (R181). -/
def execVneg (k : CoreId) (fmt : BitVec 4) (vd va : Reg) (s : State) : Host.Outcome State Fault Refusal :=
  vectorRow k (.un true fmt vd va) s

/-- VMOV (R181). -/
def execVmov (k : CoreId) (vd va : Reg) (s : State) : Host.Outcome State Fault Refusal :=
  vectorRow k (.mov vd va) s

/-- VCMP (R181, R182). -/
def execVcmp (k : CoreId) (fmt : BitVec 4) (cc : BitVec 3) (vd va : Reg) (b : VSrc) (s : State) : Host.Outcome State Fault Refusal :=
  vectorRow k (.cmp fmt cc vd va b) s

/-- VSEL (R181). -/
def execVsel (k : CoreId) (vd va vc : Reg) (b : VSrc) (s : State) : Host.Outcome State Fault Refusal :=
  vectorRow k (.sel vd va vc b) s

/-- VAND (R181). -/
def execVand (k : CoreId) (vd va : Reg) (b : VSrc) (s : State) : Host.Outcome State Fault Refusal :=
  vectorRow k (.bit .and vd va b) s

/-- VOR (R181). -/
def execVor (k : CoreId) (vd va : Reg) (b : VSrc) (s : State) : Host.Outcome State Fault Refusal :=
  vectorRow k (.bit .or vd va b) s

/-- VXOR (R181). -/
def execVxor (k : CoreId) (vd va : Reg) (b : VSrc) (s : State) : Host.Outcome State Fault Refusal :=
  vectorRow k (.bit .xor vd va b) s

/-- VSHL (R181). -/
def execVshl (k : CoreId) (vd va : Reg) (b : VSrc) (s : State) : Host.Outcome State Fault Refusal :=
  vectorRow k (.bit .shl vd va b) s

/-- VSHR (R181). -/
def execVshr (k : CoreId) (vd va : Reg) (b : VSrc) (s : State) : Host.Outcome State Fault Refusal :=
  vectorRow k (.bit .shr vd va b) s

/-- VBCAST (R181). -/
def execVbcast (k : CoreId) (vd sa : Reg) (s : State) : Host.Outcome State Fault Refusal :=
  vectorRow k (.bcast vd sa) s

/-- VIOTA (R181). -/
def execViota (k : CoreId) (vd sa : Reg) (s : State) : Host.Outcome State Fault Refusal :=
  vectorRow k (.iota vd sa) s

/-- VPERM (R181). -/
def execVperm (k : CoreId) (vd va vb : Reg) (s : State) : Host.Outcome State Fault Refusal :=
  vectorRow k (.perm vd va vb) s

/-- VDIV (R181). -/
def execVdiv (k : CoreId) (fmt : BitVec 4) (vd va : Reg) (vb : Reg) (s : State) : Host.Outcome State Fault Refusal :=
  vectorRow k (.div fmt vd va vb) s

/-- VSQRT (R181). -/
def execVsqrt (k : CoreId) (fmt : BitVec 4) (vd va : Reg) (s : State) : Host.Outcome State Fault Refusal :=
  vectorRow k (.sqrt fmt vd va) s

/-- VRSUM (R183). -/
def execVrsum (k : CoreId) (fmt : BitVec 4) (sa va : Reg) (s : State) : Host.Outcome State Fault Refusal :=
  vectorRow k (.red .sum fmt sa va) s

/-- VRMAX (R183). -/
def execVrmax (k : CoreId) (fmt : BitVec 4) (sa va : Reg) (s : State) : Host.Outcome State Fault Refusal :=
  vectorRow k (.red .max fmt sa va) s

/-- VRMIN (R183). -/
def execVrmin (k : CoreId) (fmt : BitVec 4) (sa va : Reg) (s : State) : Host.Outcome State Fault Refusal :=
  vectorRow k (.red .min fmt sa va) s

/-- VRMAXMAG (R183). -/
def execVrmaxmag (k : CoreId) (fmt : BitVec 4) (sa va : Reg) (s : State) : Host.Outcome State Fault Refusal :=
  vectorRow k (.red .maxmag fmt sa va) s

/-- VWIDL (R184). -/
def execVwidl (k : CoreId) (vd va : Reg) (s : State) : Host.Outcome State Fault Refusal :=
  vectorRow k (.wid false vd va) s

/-- VWIDH (R184). -/
def execVwidh (k : CoreId) (vd va : Reg) (s : State) : Host.Outcome State Fault Refusal :=
  vectorRow k (.wid true vd va) s

/-- VNAR (R184). -/
def execVnar (k : CoreId) (vd va vb : Reg) (s : State) : Host.Outcome State Fault Refusal :=
  vectorRow k (.nar vd va vb) s

/-- VENC (R184, R185). -/
def execVenc (k : CoreId) (vd va ss sf : Reg) (auto : Bool) (cnt : Option Reg) (s : State) : Host.Outcome State Fault Refusal :=
  vectorRow k (.enc vd va ss sf auto cnt) s

/-- VDEC (R184). -/
def execVdec (k : CoreId) (vd ss sf sa : Reg) (off : BitVec 24) (s : State) : Host.Outcome State Fault Refusal :=
  vectorRow k (.dec vd ss sf sa off) s

/-- VFEXP (R185). -/
def execVfexp (k : CoreId) (va ss sf : Reg) (s : State) : Host.Outcome State Fault Refusal :=
  vectorRow k (.fexp va ss sf) s

/-- VOUT (R101, R186). -/
def execVout (k : CoreId) (vd ss sf : Reg) (tile : BitVec 6) (trow : BitVec 7) (auto : Bool) (cnt : Option Reg) (s : State) : Host.Outcome State Fault Refusal :=
  vectorRow k (.out vd ss sf tile trow auto cnt) s

/-- VPACE (STEP) (R116, R187). -/
def execVpaceStep (k : CoreId) (ss scnt sa : Reg) (off : BitVec 24) (s : State) : Host.Outcome State Fault Refusal :=
  vectorRow k (.pace false ss scnt sa off) s

/-- VPACE (FIRST) (R121, R187). -/
def execVpaceFirst (k : CoreId) (ss scnt sa : Reg) (off : BitVec 24) (s : State) : Host.Outcome State Fault Refusal :=
  vectorRow k (.pace true ss scnt sa off) s

/-- VTAIL (R122, R188). -/
def execVtail (k : CoreId) (vd va vb vc : Reg) (cnt : Option Reg) (s : State) : Host.Outcome State Fault Refusal :=
  vectorRow k (.tail vd va vb vc cnt) s

/-- MMUL (R69, R189). -/
def execMmul (k : CoreId) (a : MxArgs) (s : State) : Host.Outcome State Fault Refusal :=
  matrixRow k (.mmul a) s

/-- MRELAY (R75, R76, R189). -/
def execMrelay (k : CoreId) (a : MxArgs) (s : State) : Host.Outcome State Fault Refusal :=
  matrixRow k (.mrelay a) s

/-- MLEND (R76, R190). -/
def execMlend (k : CoreId) (dreg : Reg) (doff : BitVec 19) (tile : BitVec 6) (lead : Fin 16) (s : State) : Host.Outcome State Fault Refusal :=
  matrixRow k (.mlend dreg doff tile lead) s

/-- LDB (R191). -/
def execLdb (k : CoreId) (dst areg : Reg) (ctr : BitVec 6) (off : BitVec 40) (s : State) : Host.Outcome State Fault Refusal :=
  loadRow k ⟨.b, dst, areg, ctr, 0, off⟩ s

/-- LDH (R191). -/
def execLdh (k : CoreId) (dst areg : Reg) (ctr : BitVec 6) (off : BitVec 40) (s : State) : Host.Outcome State Fault Refusal :=
  loadRow k ⟨.h, dst, areg, ctr, 0, off⟩ s

/-- LDW (R191). -/
def execLdw (k : CoreId) (dst areg : Reg) (ctr : BitVec 6) (off : BitVec 40) (s : State) : Host.Outcome State Fault Refusal :=
  loadRow k ⟨.w, dst, areg, ctr, 0, off⟩ s

/-- LDD (R191). -/
def execLdd (k : CoreId) (dst areg : Reg) (ctr : BitVec 6) (off : BitVec 40) (s : State) : Host.Outcome State Fault Refusal :=
  loadRow k ⟨.d, dst, areg, ctr, 0, off⟩ s

/-- LDV (R191). -/
def execLdv (k : CoreId) (dst areg : Reg) (ctr : BitVec 6) (size : BitVec 3) (off : BitVec 40) (s : State) : Host.Outcome State Fault Refusal :=
  loadRow k ⟨.v, dst, areg, ctr, size, off⟩ s

/-- LDVW (R191). -/
def execLdvw (k : CoreId) (dst areg : Reg) (ctr : BitVec 6) (size : BitVec 3) (off : BitVec 40) (s : State) : Host.Outcome State Fault Refusal :=
  loadRow k ⟨.vw, dst, areg, ctr, size, off⟩ s

/-- STB (R191). -/
def execStb (k : CoreId) (src areg : Reg) (ctr : BitVec 6) (off : BitVec 40) (s : State) : Host.Outcome State Fault Refusal :=
  storeRow k ⟨.b, src, areg, ctr, 0, off⟩ s

/-- STH (R191). -/
def execSth (k : CoreId) (src areg : Reg) (ctr : BitVec 6) (off : BitVec 40) (s : State) : Host.Outcome State Fault Refusal :=
  storeRow k ⟨.h, src, areg, ctr, 0, off⟩ s

/-- STW (R191). -/
def execStw (k : CoreId) (src areg : Reg) (ctr : BitVec 6) (off : BitVec 40) (s : State) : Host.Outcome State Fault Refusal :=
  storeRow k ⟨.w, src, areg, ctr, 0, off⟩ s

/-- STD (R191). -/
def execStd (k : CoreId) (src areg : Reg) (ctr : BitVec 6) (off : BitVec 40) (s : State) : Host.Outcome State Fault Refusal :=
  storeRow k ⟨.d, src, areg, ctr, 0, off⟩ s

/-- STV (R191). -/
def execStv (k : CoreId) (src areg : Reg) (ctr : BitVec 6) (size : BitVec 3) (off : BitVec 40) (s : State) : Host.Outcome State Fault Refusal :=
  storeRow k ⟨.v, src, areg, ctr, size, off⟩ s

/-- CINC (R194). -/
def execCinc (k : CoreId) (ctr : BitVec 6) (imm : BitVec 16) (s : State) : Host.Outcome State Fault Refusal :=
  syncRow k (.cinc ctr imm) s

/-- CSET (R194). -/
def execCset (k : CoreId) (ctr : BitVec 6) (imm : BitVec 16) (s : State) : Host.Outcome State Fault Refusal :=
  syncRow k (.cset ctr imm) s

/-- CADD (R194). -/
def execCadd (k : CoreId) (ctr : BitVec 6) (sreg : Reg) (s : State) : Host.Outcome State Fault Refusal :=
  syncRow k (.cadd ctr sreg) s

/-- CRD (R194). -/
def execCrd (k : CoreId) (ctr : BitVec 6) (sreg : Reg) (s : State) : Host.Outcome State Fault Refusal :=
  syncRow k (.crd ctr sreg) s

/-- CINCR (R194, R219). -/
def execCincr (k lcore : CoreId) (ctr : BitVec 6) (imm : BitVec 16) (s : State) : Host.Outcome State Fault Refusal :=
  syncRow k (.cincr lcore ctr imm) s

/-- WATCH (R194, R221). -/
def execWatch (k : CoreId) (wslot : Fin 16) (lcore : CoreId) (ctr : BitVec 6) (cond : BitVec 3)
    (imm : BitVec 16) (s : State) : Host.Outcome State Fault Refusal :=
  syncRow k (.watch wslot lcore ctr cond imm) s

/-- UNWATCH (R194, R221). -/
def execUnwatch (k : CoreId) (wslot : Fin 16) (s : State) : Host.Outcome State Fault Refusal :=
  syncRow k (.unwatch wslot) s

/-- BAR (R194, R228). -/
def execBar (k : CoreId) (wslot : Fin 16) (scope : BitVec 2) (imm : BitVec 16) (s : State) : Host.Outcome State Fault Refusal :=
  syncRow k (.bar wslot scope imm) s

end Sys2Proof.Machine
end

