-- ==== Sys2Proof/Machine/Upsets.lean ====
section
/-! DEFINITION. Reads of SRAM by a core's own work, with what the code of R332 finds in the words that they read: the fetch of a bundle,
the operation that lands, the matrix operation that lands. -/

namespace Sys2Proof.Machine

/-- BUNDLE_ISSUE (R135, R332): a bundle whose fetch meets a double-bit error does not issue. -/
def execBundleIssue (r : CoreRead) (s : State) : Host.Outcome State Fault Refusal :=
  atCore r.core s fun s => s.atIssue r.core fun s => s.readThrough r.core r.upset (fun s => s.issueAtPc r.core) id

/-- Operations of a slot that land in the current cycle leave without writing. -/
def Core.dropSlot (c : Core) (slot : BitVec 3) : Core :=
  { c with inflight := c.inflight.filter fun o => !(decide (o.land = c.now) && o.slot.code == slot.toNat) }

/-- An operation of a slot lands in the current cycle. -/
def Core.slotLands (c : Core) (slot : BitVec 3) : Bool := c.inflight.any fun o => decide (o.land = c.now) && o.slot.code == slot.toNat

/-- OPERATION_LANDING (R136, R332): the next landing cycle of core k, and what the operation of one slot that lands there has
read. [DESIGN CHOICE: log 12] -/
def execOperationLanding (r : SlotRead) (s : State) : Host.Outcome State Fault Refusal :=
  let k := r.core
  atCore k s fun s => s.atCycle k (leastOf ((s.core k).inflight.map (·.land))) fun s =>
    if (s.core k).slotLands r.slot then
      s.readThrough k r.upset (fun s => s.toLand k none) fun s => (s.updCore k fun c => c.dropSlot r.slot).toLand k none
    else s.toLand k none

/-- The matrix operations of core k that read rows in the current cycle leave the array: they write nothing more. -/
def State.dropReading (s : State) (k : CoreId) : State :=
  ((s.core k).mxq.filter fun o => o.readsAt (s.core k).now).foldl (fun s o => s.dropOp k o) s

/-- MATRIX_ROW_READ (R70, R93, R332, R348): the next cycle in which the array reads rows, and what the code finds in them. -/
def execMatrixRowRead (r : CoreRead) (s : State) : Host.Outcome State Fault Refusal :=
  let k := r.core
  atCore k s fun s => s.atCycle k ((s.core k).nextOpCycle 3 MxOp.readsAt) fun s =>
    s.readThrough k r.upset (fun s => s.settle k) fun s => ((s.toJudge k none).dropReading k).settle k

end Sys2Proof.Machine
end

