-- ==== Sys2Proof/Machine/Dispatch.lean ====
section
/-! DEFINITION. One arm per command: the meaning of each row of spec/opcode_table.json. -/

namespace Sys2Proof.Machine

/-- A command's effect on everything but the queue of waiting commands. -/
def exec (i : Instr) (s : State) : Host.Outcome State Fault Refusal :=
  match i with
  -- sequencer (R133-R161)
  | .bundleIssue r => Sys2Proof.Machine.execBundleIssue r s
  | .gapExpiry k => Sys2Proof.Machine.execGapExpiry k s
  | .prefixStop k => Sys2Proof.Machine.execPrefixStop k s
  | .operationLanding r => Sys2Proof.Machine.execOperationLanding r s
  | .flowNext k => Sys2Proof.Machine.execFlowNext k s
  | .br k target => Sys2Proof.Machine.execBr k target s
  | .brc k reg fmode cond bitn target => Sys2Proof.Machine.execBrc k reg fmode cond bitn target s
  | .loop k csrc cimm reg target => Sys2Proof.Machine.execLoop k csrc cimm reg target s
  | .call k target => Sys2Proof.Machine.execCall k target s
  | .ret k => Sys2Proof.Machine.execRet k s
  | .wait k wslot => Sys2Proof.Machine.execWait k wslot s
  | .fence k => Sys2Proof.Machine.execFence k s
  | .halt k => Sys2Proof.Machine.execHalt k s
  -- scalar slot (R173-R177)
  | .add k sd sa sb => Sys2Proof.Machine.execAdd k sd sa sb s
  | .addi k sd sa imm => Sys2Proof.Machine.execAddi k sd sa imm s
  | .sub k sd sa sb => Sys2Proof.Machine.execSub k sd sa sb s
  | .subi k sd sa imm => Sys2Proof.Machine.execSubi k sd sa imm s
  | .and k sd sa sb => Sys2Proof.Machine.execAnd k sd sa sb s
  | .andi k sd sa imm => Sys2Proof.Machine.execAndi k sd sa imm s
  | .or k sd sa sb => Sys2Proof.Machine.execOr k sd sa sb s
  | .ori k sd sa imm => Sys2Proof.Machine.execOri k sd sa imm s
  | .xor k sd sa sb => Sys2Proof.Machine.execXor k sd sa sb s
  | .xori k sd sa imm => Sys2Proof.Machine.execXori k sd sa imm s
  | .shl k sd sa sb => Sys2Proof.Machine.execShl k sd sa sb s
  | .shli k sd sa imm => Sys2Proof.Machine.execShli k sd sa imm s
  | .shr k sd sa sb => Sys2Proof.Machine.execShr k sd sa sb s
  | .shri k sd sa imm => Sys2Proof.Machine.execShri k sd sa imm s
  | .sar k sd sa sb => Sys2Proof.Machine.execSar k sd sa sb s
  | .sari k sd sa imm => Sys2Proof.Machine.execSari k sd sa imm s
  | .min k sd sa sb => Sys2Proof.Machine.execMin k sd sa sb s
  | .mini k sd sa imm => Sys2Proof.Machine.execMini k sd sa imm s
  | .max k sd sa sb => Sys2Proof.Machine.execMax k sd sa sb s
  | .maxi k sd sa imm => Sys2Proof.Machine.execMaxi k sd sa imm s
  | .minu k sd sa sb => Sys2Proof.Machine.execMinu k sd sa sb s
  | .minui k sd sa imm => Sys2Proof.Machine.execMinui k sd sa imm s
  | .maxu k sd sa sb => Sys2Proof.Machine.execMaxu k sd sa sb s
  | .maxui k sd sa imm => Sys2Proof.Machine.execMaxui k sd sa imm s
  | .seq k sd sa sb => Sys2Proof.Machine.execSeq k sd sa sb s
  | .seqi k sd sa imm => Sys2Proof.Machine.execSeqi k sd sa imm s
  | .slt k sd sa sb => Sys2Proof.Machine.execSlt k sd sa sb s
  | .slti k sd sa imm => Sys2Proof.Machine.execSlti k sd sa imm s
  | .sltu k sd sa sb => Sys2Proof.Machine.execSltu k sd sa sb s
  | .sltui k sd sa imm => Sys2Proof.Machine.execSltui k sd sa imm s
  | .movi k sd imm => Sys2Proof.Machine.execMovi k sd imm s
  | .movhi k sd sa imm => Sys2Proof.Machine.execMovhi k sd sa imm s
  | .sel k sd sa sb imm => Sys2Proof.Machine.execSel k sd sa sb imm s
  | .mul k sd sa sb => Sys2Proof.Machine.execMul k sd sa sb s
  | .mulh k sd sa sb => Sys2Proof.Machine.execMulh k sd sa sb s
  | .mulhu k sd sa sb => Sys2Proof.Machine.execMulhu k sd sa sb s
  | .rdcr k sd sx => Sys2Proof.Machine.execRdcr k sd sx s
  | .wrcr k sa sx => Sys2Proof.Machine.execWrcr k sa sx s
  | .rdtm k sd sx => Sys2Proof.Machine.execRdtm k sd sx s
  | .wrtm k sa sx => Sys2Proof.Machine.execWrtm k sa sx s
  -- vector slot (R178-R188)
  | .vadd k fmt vd va b => Sys2Proof.Machine.execVadd k fmt vd va b s
  | .vsub k fmt vd va b => Sys2Proof.Machine.execVsub k fmt vd va b s
  | .vmul k fmt vd va b => Sys2Proof.Machine.execVmul k fmt vd va b s
  | .vmin k fmt vd va b => Sys2Proof.Machine.execVmin k fmt vd va b s
  | .vmax k fmt vd va b => Sys2Proof.Machine.execVmax k fmt vd va b s
  | .vmaxmag k fmt vd va b => Sys2Proof.Machine.execVmaxmag k fmt vd va b s
  | .vabs k fmt vd va => Sys2Proof.Machine.execVabs k fmt vd va s
  | .vneg k fmt vd va => Sys2Proof.Machine.execVneg k fmt vd va s
  | .vmov k vd va => Sys2Proof.Machine.execVmov k vd va s
  | .vcmp k fmt cc vd va b => Sys2Proof.Machine.execVcmp k fmt cc vd va b s
  | .vsel k vd va vc b => Sys2Proof.Machine.execVsel k vd va vc b s
  | .vand k vd va b => Sys2Proof.Machine.execVand k vd va b s
  | .vor k vd va b => Sys2Proof.Machine.execVor k vd va b s
  | .vxor k vd va b => Sys2Proof.Machine.execVxor k vd va b s
  | .vshl k vd va b => Sys2Proof.Machine.execVshl k vd va b s
  | .vshr k vd va b => Sys2Proof.Machine.execVshr k vd va b s
  | .vbcast k vd sa => Sys2Proof.Machine.execVbcast k vd sa s
  | .viota k vd sa => Sys2Proof.Machine.execViota k vd sa s
  | .vperm k vd va vb => Sys2Proof.Machine.execVperm k vd va vb s
  | .vdiv k fmt vd va vb => Sys2Proof.Machine.execVdiv k fmt vd va vb s
  | .vsqrt k fmt vd va => Sys2Proof.Machine.execVsqrt k fmt vd va s
  | .vrsum k fmt sa va => Sys2Proof.Machine.execVrsum k fmt sa va s
  | .vrmax k fmt sa va => Sys2Proof.Machine.execVrmax k fmt sa va s
  | .vrmin k fmt sa va => Sys2Proof.Machine.execVrmin k fmt sa va s
  | .vrmaxmag k fmt sa va => Sys2Proof.Machine.execVrmaxmag k fmt sa va s
  | .vwidl k vd va => Sys2Proof.Machine.execVwidl k vd va s
  | .vwidh k vd va => Sys2Proof.Machine.execVwidh k vd va s
  | .vnar k vd va vb => Sys2Proof.Machine.execVnar k vd va vb s
  | .venc k vd va ss sf auto cnt => Sys2Proof.Machine.execVenc k vd va ss sf auto cnt s
  | .vdec k vd ss sf sa off => Sys2Proof.Machine.execVdec k vd ss sf sa off s
  | .vfexp k va ss sf => Sys2Proof.Machine.execVfexp k va ss sf s
  | .vout k vd ss sf tile trow auto cnt => Sys2Proof.Machine.execVout k vd ss sf tile trow auto cnt s
  | .vpaceStep k ss scnt sa off => Sys2Proof.Machine.execVpaceStep k ss scnt sa off s
  | .vpaceFirst k ss scnt sa off => Sys2Proof.Machine.execVpaceFirst k ss scnt sa off s
  | .vtail k vd va vb vc cnt => Sys2Proof.Machine.execVtail k vd va vb vc cnt s
  -- matrix slot and array (R57-R109, R189, R190)
  | .mmul k a => Sys2Proof.Machine.execMmul k a s
  | .mrelay k a => Sys2Proof.Machine.execMrelay k a s
  | .mlend k dreg doff tile lead => Sys2Proof.Machine.execMlend k dreg doff tile lead s
  | .matrixPassBegin k => Sys2Proof.Machine.execMatrixPassBegin k s
  | .relayChainLent k => Sys2Proof.Machine.execRelayChainLent k s
  | .relayLendTimeout k => Sys2Proof.Machine.execRelayLendTimeout k s
  | .matrixRowWrite k faulty => Sys2Proof.Machine.execMatrixRowWrite k faulty s
  | .matrixPassEnd k faulty => Sys2Proof.Machine.execMatrixPassEnd k faulty s
  | .replayHoldEnd k faulty => Sys2Proof.Machine.execReplayHoldEnd k faulty s
  | .matrixLanding r => Sys2Proof.Machine.execMatrixLanding r s
  -- load and store slots, far accesses (R169-R172, R191, R192, R200, R201)
  | .ldb k dst areg ctr off => Sys2Proof.Machine.execLdb k dst areg ctr off s
  | .ldh k dst areg ctr off => Sys2Proof.Machine.execLdh k dst areg ctr off s
  | .ldw k dst areg ctr off => Sys2Proof.Machine.execLdw k dst areg ctr off s
  | .ldd k dst areg ctr off => Sys2Proof.Machine.execLdd k dst areg ctr off s
  | .ldv k dst areg ctr size off => Sys2Proof.Machine.execLdv k dst areg ctr size off s
  | .ldvw k dst areg ctr size off => Sys2Proof.Machine.execLdvw k dst areg ctr size off s
  | .stb k src areg ctr off => Sys2Proof.Machine.execStb k src areg ctr off s
  | .sth k src areg ctr off => Sys2Proof.Machine.execSth k src areg ctr off s
  | .stw k src areg ctr off => Sys2Proof.Machine.execStw k src areg ctr off s
  | .std k src areg ctr off => Sys2Proof.Machine.execStd k src areg ctr off s
  | .stv k src areg ctr size off => Sys2Proof.Machine.execStv k src areg ctr size off s
  | .farAccessService k b => Sys2Proof.Machine.execFarAccessService k b s
  | .farAccessComplete k b corrupt => Sys2Proof.Machine.execFarAccessComplete k b corrupt s
  -- sync slot, watches, barriers (R193-R241, R296, R297)
  | .cinc k ctr imm => Sys2Proof.Machine.execCinc k ctr imm s
  | .cset k ctr imm => Sys2Proof.Machine.execCset k ctr imm s
  | .cadd k ctr sreg => Sys2Proof.Machine.execCadd k ctr sreg s
  | .crd k ctr sreg => Sys2Proof.Machine.execCrd k ctr sreg s
  | .cincr k lcore ctr imm => Sys2Proof.Machine.execCincr k lcore ctr imm s
  | .watch k wslot lcore ctr cond imm => Sys2Proof.Machine.execWatch k wslot lcore ctr cond imm s
  | .unwatch k wslot => Sys2Proof.Machine.execUnwatch k wslot s
  | .bar k wslot scope imm => Sys2Proof.Machine.execBar k wslot scope imm s
  | .counterDelivery k picks => Sys2Proof.Machine.execCounterDelivery k picks s
  | .watchRegistrationArrival k wslot => Sys2Proof.Machine.execWatchRegistrationArrival k wslot s
  | .watchNotification k wslot => Sys2Proof.Machine.execWatchNotification k wslot s
  | .barrierArrival k => Sys2Proof.Machine.execBarrierArrival k s
  | .dieBarrierMessage d n => Sys2Proof.Machine.execDieBarrierMessage d n s
  | .fabricBarrierMessage ctx m => Sys2Proof.Machine.execFabricBarrierMessage ctx m s
  | .fabricBarrierResend ctx => Sys2Proof.Machine.execFabricBarrierResend ctx s
  | .barCfgWrite d ctx v => Sys2Proof.Machine.execBarCfgWrite d ctx v s
  | .babort d ctx => Sys2Proof.Machine.execBabort d ctx s
  | .fbarCfgWrite ctx v => Sys2Proof.Machine.execFbarCfgWrite ctx v s
  | .fabort ctx => Sys2Proof.Machine.execFabort ctx s
  | .fbarBindWrite ctx v => Sys2Proof.Machine.execFbarBindWrite ctx v s
  -- queues (R242-R258, R504)
  | .doorbell q v whole => Sys2Proof.Machine.execDoorbell q v whole s
  | .stop q => Sys2Proof.Machine.execStop q s
  | .resume q => Sys2Proof.Machine.execResume q s
  | .skip q => Sys2Proof.Machine.execSkip q s
  | .flush q => Sys2Proof.Machine.execFlush q s
  | .dependencyMet q => Sys2Proof.Machine.execDependencyMet q s
  | .commandDispatch q => Sys2Proof.Machine.execCommandDispatch q s
  | .commandCompletion q => Sys2Proof.Machine.execCommandCompletion q s
  -- engine commands (R259-R272, R284, R288-R292)
  | .launch q => Sys2Proof.Machine.execLaunch q s
  | .mark q => Sys2Proof.Machine.execMark q s
  | .stream q => Sys2Proof.Machine.execStream q s
  | .ctrset q => Sys2Proof.Machine.execCtrset q s
  | .talloc q => Sys2Proof.Machine.execTalloc q s
  | .tfree q => Sys2Proof.Machine.execTfree q s
  | .hcopy q blocks hostFail => Sys2Proof.Machine.execHcopy q blocks hostFail s
  | .dump q blocks hostFail => Sys2Proof.Machine.execDump q blocks hostFail s
  | .stepclose q => Sys2Proof.Machine.execStepclose q s
  | .rotationCopyComplete k => Sys2Proof.Machine.execRotationCopyComplete k s
  | .ckptExport q m => Sys2Proof.Machine.execCkptExport q m s
  | .ckptImport q m => Sys2Proof.Machine.execCkptImport q m s
  | .shift q => Sys2Proof.Machine.execShift q s
  | .permt q => Sys2Proof.Machine.execPermt q s
  | .permi q => Sys2Proof.Machine.execPermi q s
  | .permr q => Sys2Proof.Machine.execPermr q s
  -- Baton events (R282-R292, R310-R316, R500)
  | .batonHandshake h => Sys2Proof.Machine.execBatonHandshake h s
  | .handshakeRetry q entry backup answer => Sys2Proof.Machine.execHandshakeRetry q entry backup answer s
  | .batonBlockArrival q entry blk data bib sender => Sys2Proof.Machine.execBatonBlockArrival q entry blk data bib sender s
  | .batonBlockAck q entry blks backup answer => Sys2Proof.Machine.execBatonBlockAck q entry blks backup answer s
  | .permiCountMessage q m => Sys2Proof.Machine.execPermiCountMessage q m s
  | .backupRequest q entry byBackup blks finished => Sys2Proof.Machine.execBackupRequest q entry byBackup blks finished s
  | .graceExpiry q entry backup => Sys2Proof.Machine.execGraceExpiry q entry backup s
  -- digests, twin pair, replay (R338, R342-R347)
  | .fdDigestArrival fromNext step digest => Sys2Proof.Machine.execFdDigestArrival fromNext step digest s
  | .twinBucketDigest q entry unitNo parts => Sys2Proof.Machine.execTwinBucketDigest q entry unitNo parts s
  | .twinStepDigest parts => Sys2Proof.Machine.execTwinStepDigest parts s
  | .twinSilence linkDown => Sys2Proof.Machine.execTwinSilence linkDown s
  | .stepRestoreComplete => Sys2Proof.Machine.execStepRestoreComplete s
  -- streams (R199-R215)
  | .streamStart q => Sys2Proof.Machine.execStreamStart q s
  | .strideEmit r => Sys2Proof.Machine.execStrideEmit r s
  | .strideAdd r => Sys2Proof.Machine.execStrideAdd r s
  | .strideLoop r => Sys2Proof.Machine.execStrideLoop r s
  | .strideSeta r => Sys2Proof.Machine.execStrideSeta r s
  | .strideMark r => Sys2Proof.Machine.execStrideMark r s
  | .strideBack r => Sys2Proof.Machine.execStrideBack r s
  | .strideEnd r => Sys2Proof.Machine.execStrideEnd r s
  | .indexRead r corrupt => Sys2Proof.Machine.execIndexRead r corrupt s
  | .tileFillStart r => Sys2Proof.Machine.execTileFillStart r s
  | .streamBlockArrival r tile blk corrupt => Sys2Proof.Machine.execStreamBlockArrival r tile blk corrupt s
  | .tileReady r => Sys2Proof.Machine.execTileReady r s
  | .outboundTileReady r => Sys2Proof.Machine.execOutboundTileReady r s
  | .tileDrainStart r corrupt => Sys2Proof.Machine.execTileDrainStart r corrupt s
  | .tileDrained r => Sys2Proof.Machine.execTileDrained r s
  | .tileDelivered t => Sys2Proof.Machine.execTileDelivered t s
  | .streamComplete r => Sys2Proof.Machine.execStreamComplete r s
  -- memory stacks and SRAM (R329-R332, R402-R407)
  | .hbmBlockRead addr errs => Sys2Proof.Machine.execHbmBlockRead addr errs s
  | .hbmBlockWrite addr data bib => Sys2Proof.Machine.execHbmBlockWrite addr data bib s
  | .hbmCodewordWrite addr data => Sys2Proof.Machine.execHbmCodewordWrite addr data s
  | .patrolScrub st errs => Sys2Proof.Machine.execPatrolScrub st errs s
  | .sramScrub k w u => Sys2Proof.Machine.execSramScrub k w u s
  | .hbmRefresh st => Sys2Proof.Machine.execHbmRefresh st s
  | .hbmTempPoll st temp => Sys2Proof.Machine.execHbmTempPoll st temp s
  | .hbmRecentreWindow st ch ok => Sys2Proof.Machine.execHbmRecentreWindow st ch ok s
  -- Cooldown and Taper (R353-R372)
  | .phoursTick => Sys2Proof.Machine.execPhoursTick s
  | .cooldownCoreTest d p => Sys2Proof.Machine.execCooldownCoreTest d p s
  | .cooldownPhaseEnd t sig fails => Sys2Proof.Machine.execCooldownPhaseEnd t sig fails s
  | .cooldownTestEnd t verified => Sys2Proof.Machine.execCooldownTestEnd t verified s
  | .patternStagingDone digest => Sys2Proof.Machine.execPatternStagingDone digest s
  | .taperSample d slack => Sys2Proof.Machine.execTaperSample d slack s
  | .cdCfgWrite v => Sys2Proof.Machine.execCdCfgWrite v s
  -- Florel Die Link (R373-R392)
  | .sidebandMessage p e m => Sys2Proof.Machine.execSidebandMessage p e m s
  | .sidebandTimeout p e => Sys2Proof.Machine.execSidebandTimeout p e s
  | .linkPhaseEnd p e lanes => Sys2Proof.Machine.execLinkPhaseEnd p e lanes s
  | .linkUnitArrival p e u => Sys2Proof.Machine.execLinkUnitArrival p e u s
  | .recoverTimeout p => Sys2Proof.Machine.execRecoverTimeout p s
  | .instrideCalStep p b dir mismatch healthy eye => Sys2Proof.Machine.execInstrideCalStep p b dir mismatch healthy eye s
  | .windowCalibration p b failed => Sys2Proof.Machine.execWindowCalibration p b failed s
  | .bundleServiceHandshake p b leave useq => Sys2Proof.Machine.execBundleServiceHandshake p b leave useq s
  | .preset p e => Sys2Proof.Machine.execPreset p e s
  | .retrain p e => Sys2Proof.Machine.execRetrain p e s
  -- DXT and fabric ports (R414-R430, R501)
  | .dxtBlockFrame p f => Sys2Proof.Machine.execDxtBlockFrame p f s
  | .dxtMessageFrame p f => Sys2Proof.Machine.execDxtMessageFrame p f s
  | .dxtAckFrame p f => Sys2Proof.Machine.execDxtAckFrame p f s
  | .dxtCapabilityFrame p f => Sys2Proof.Machine.execDxtCapabilityFrame p f s
  | .dxtAckTimer peer vc => Sys2Proof.Machine.execDxtAckTimer peer vc s
  | .dxtRetransmit peer vc psn => Sys2Proof.Machine.execDxtRetransmit peer vc psn s
  | .capabilityBeacon p => Sys2Proof.Machine.execCapabilityBeacon p s
  | .pathProbe p peer => Sys2Proof.Machine.execPathProbe p peer s
  | .pfcFrame p pcp pause => Sys2Proof.Machine.execPfcFrame p pcp pause s
  | .fportLinkChange p up cablem iloss lpan => Sys2Proof.Machine.execFportLinkChange p up cablem iloss lpan s
  | .dxtCfgWrite v => Sys2Proof.Machine.execDxtCfgWrite v s
  | .dxtMacWrite v => Sys2Proof.Machine.execDxtMacWrite v s
  | .fpCfgWrite p v => Sys2Proof.Machine.execFpCfgWrite p v s
  -- host port (R431-R439)
  | .apertureRead off n => Sys2Proof.Machine.execApertureRead off n s
  | .apertureWrite off data => Sys2Proof.Machine.execApertureWrite off data s
  | .hpAptWrite v => Sys2Proof.Machine.execHpAptWrite v s
  | .coreStateWindowAccess k off wr => Sys2Proof.Machine.execCoreStateWindowAccess k off wr s
  | .perstAssert => Sys2Proof.Machine.execPerstAssert s
  | .hostLinkLoss => Sys2Proof.Machine.execHostLinkLoss s
  -- Clerk mailboxes (R441-R448)
  | .identify e => Sys2Proof.Machine.execIdentify e s
  | .measureRead e => Sys2Proof.Machine.execMeasureRead e s
  | .measureExtend e reg digest => Sys2Proof.Machine.execMeasureExtend e reg digest s
  | .certRead e haddr bytes hostFail => Sys2Proof.Machine.execCertRead e haddr bytes hostFail s
  | .attest e nonce haddr hostFail => Sys2Proof.Machine.execAttest e nonce haddr hostFail s
  | .queueAlloc e cls inst log2n vector => Sys2Proof.Machine.execQueueAlloc e cls inst log2n vector s
  | .queueFree e queue => Sys2Proof.Machine.execQueueFree e queue s
  | .eventRing e haddr log2 vector => Sys2Proof.Machine.execEventRing e haddr log2 vector s
  | .groupWrite e addr => Sys2Proof.Machine.execGroupWrite e addr s
  | .groupClear e group => Sys2Proof.Machine.execGroupClear e group s
  | .placeQuery e handle => Sys2Proof.Machine.execPlaceQuery e handle s
  | .peerQuery e endpoint => Sys2Proof.Machine.execPeerQuery e endpoint s
  | .guardSet e addr => Sys2Proof.Machine.execGuardSet e addr s
  | .cdRequest e masks => Sys2Proof.Machine.execCdRequest e masks s
  | .rotate e lcore => Sys2Proof.Machine.execRotate e lcore s
  | .fwWrite e haddr off bytes slotNo hostFail => Sys2Proof.Machine.execFwWrite e haddr off bytes slotNo hostFail s
  | .fwCommit e => Sys2Proof.Machine.execFwCommit e s
  | .fwConfirm e => Sys2Proof.Machine.execFwConfirm e s
  | .fwStatus e => Sys2Proof.Machine.execFwStatus e s
  | .resetModule e => Sys2Proof.Machine.execResetModule e s
  | .resetDie e die => Sys2Proof.Machine.execResetDie e die s
  | .shutdown e flags => Sys2Proof.Machine.execShutdown e flags s
  | .sensorRead e page => Sys2Proof.Machine.execSensorRead e page s
  | .powerSet e cap floor ramp ecap fields persist => Sys2Proof.Machine.execPowerSet e cap floor ramp ecap fields persist s
  | .serviceStatus e => Sys2Proof.Machine.execServiceStatus e s
  | .serviceClear e haddr marks hostFail => Sys2Proof.Machine.execServiceClear e haddr marks hostFail s
  | .mailboxOwnedWrite slot off data => Sys2Proof.Machine.execMailboxOwnedWrite slot off data s
  -- boot, power and faults (R26, R451-R488)
  | .powerGood => Sys2Proof.Machine.execPowerGood s
  | .bootStepEnd o => Sys2Proof.Machine.execBootStepEnd o s
  | .clerkWatchdogExpiry => Sys2Proof.Machine.execClerkWatchdogExpiry s
  | .pllLockLoss p => Sys2Proof.Machine.execPllLockLoss p s
  | .moduleFaultReset => Sys2Proof.Machine.execModuleFaultReset s
  | .pwrenAssert => Sys2Proof.Machine.execPwrenAssert s
  | .hotSwapStepTimeout => Sys2Proof.Machine.execHotSwapStepTimeout s
  | .pwrenDeassert => Sys2Proof.Machine.execPwrenDeassert s
  | .brownOut => Sys2Proof.Machine.execBrownOut s
  | .overvoltage => Sys2Proof.Machine.execOvervoltage s
  | .inputRestored => Sys2Proof.Machine.execInputRestored s
  | .railFault rail => Sys2Proof.Machine.execRailFault rail s
  | .pcapChange asserted => Sys2Proof.Machine.execPcapChange asserted s
  | .powerControlTick m => Sys2Proof.Machine.execPowerControlTick m s
  | .thermalStop c => Sys2Proof.Machine.execThermalStop c s
  | .powerStageTrip c => Sys2Proof.Machine.execPowerStageTrip c s
  | .registerWrite off v => Sys2Proof.Machine.execRegisterWrite off v s
  | .matrixRowRead k => Sys2Proof.Machine.execMatrixRowRead k s
  | .mailboxReply slot => Sys2Proof.Machine.execMailboxReply slot s
  | .mailboxUnlistedCommand slot header => Sys2Proof.Machine.execMailboxUnlistedCommand slot header s
  | .hostLinkTrained speed width => Sys2Proof.Machine.execHostLinkTrained speed width s
  | .completionTimeout q => Sys2Proof.Machine.execCompletionTimeout q s
  | .capabilityFrameRepeat peer => Sys2Proof.Machine.execCapabilityFrameRepeat peer s
  | .peerEntryEviction peer => Sys2Proof.Machine.execPeerEntryEviction peer s
  | .fdlCapRepeat p e => Sys2Proof.Machine.execFdlCapRepeat p e s
  | .configWrite c => Sys2Proof.Machine.execConfigWrite c s

end Sys2Proof.Machine
end

