-- ==== Sys2Proof/Machine/Tick.lean ====
section
/-! DEFINITION. What passes on an empty queue: one cycle of ACLK in every core (R22, R67, R135, R140). -/

namespace Sys2Proof.Machine

/-- A bundle issues where one is due in the current cycle. -/
def State.issueIfDue (s : State) (k : CoreId) : State := if (s.core k).issueDue then s.issueAtPc k else s

/-- One ACLK cycle of a core. A hold cycle is no program cycle: in a replay's hold its count falls, for a bank port the wait
falls
(R67, R140). Otherwise the program cycle ends: its issue, a far access that has waited for a place, and its prefix stop. A bundle
without places for its far accesses is met again in the next cycle (R172). In every cycle the watches on the core's counters are judged
(R223). [DESIGN CHOICE: log 2] -/
def State.tickCore (s : State) (k : CoreId) : State :=
  let s := s.settle k
  let c := s.core k
  match c.hold with
  | some h =>
    (if h.left ≤ 1 then s.endHold k none else s.updCore k fun c => { c with hold := some { h with left := h.left - 1 } }).judge k
  | none =>
    if c.held then s.judge k
    else if 0 < c.bankHold then (s.updCore k fun c => { c with bankHold := c.bankHold - 1 }).judge k
    else
      let s := (s.startWaiting k).issueIfDue k
      let s := if (s.core k).prefixDue then s.prefixStop k else s
      let s := (if (s.core k).held then s else s.readSlots k).judge k
      if (s.core k).held ∨ 0 < (s.core k).bankHold then s else s.updCore k Core.endCycle

/-- A logical core at a rotation point while it rotates stands still until the map entry has switched (R19, R236). -/
def State.rotationHeld (s : State) (k : CoreId) : Bool := s.rotating k && s.rotationPoint k

/-- Throttling denies a core this cycle: of 64 cycles it issues in as many as its duty, spread evenly (R481). [DESIGN CHOICE: log 13] -/
def Power.denies (p : Power) (k : CoreId) : Bool := decide (p.duties[k] ≤ p.cycle * p.duties[k] % 64)

/-- A core's cycle: one that throttling denies is a hold cycle (R67, R481). -/
def State.coreCycle (s : State) (k : CoreId) : State := if s.power.denies k then (s.settle k).judge k else s.tickCore k

/-- The cycle ends for the copies of blocks that landed in it (R312). -/
def Baton.cycleEnd (b : Baton) : Baton :=
  { b with cmds := b.cmds.map fun c => { c with xfers := c.xfers.map fun x => { x with recent := [] } } }

/-- One ACLK cycle of every core that runs; dependencies are judged at its end (R252), a STEPCLOSE that waits goes on at the boundary, and the
Clerk serves what has waited. While the power stage is off or starting, the hot-swap sequence goes on instead. [DESIGN CHOICE: log 2, 13] -/
def State.tick (s : State) : State :=
  if s.power.stage ≠ .on then { s with power := { s.power with stage := s.power.stage.next } }
  else s.unlessDark fun s =>
    ((List.finRange 64).foldl (fun s k =>
      if s.hasCore k && !s.dieHeld (dieOf k) && !s.rotationHeld k then s.coreCycle k else s)
      ({ s with power := { s.power with cycle := (s.power.cycle + 1) % 64 }, baton := s.baton.cycleEnd } : State)).noteDeps.twinJudge.serve

end Sys2Proof.Machine
end

