-- ==== Sys2Proof/Laws/Memory.lean ====
section
/-! SUPPORT. Laws of sparse maps and of memory: what is read after a write, and that every operation keeps the canonical form. -/

namespace Sys2Proof.Machine

/-! ### Reads after writes -/

theorem Sparse.find_put_same {α : Type} (m : Sparse α) (a : Nat) (v : α) : Sparse.find (Sparse.put m a v) a = some v := by
  induction m with
  | nil => simp [Sparse.put, Sparse.find]
  | cons e m ih =>
    obtain ⟨k, w⟩ := e
    simp only [Sparse.put]
    split
    · simp [Sparse.find]
    · split
      · simp [Sparse.find]
      · rename_i h1 h2
        simp [Sparse.find, h1, h2, ih]

theorem Sparse.find_put_ne {α : Type} (m : Sparse α) (a b : Nat) (v : α) (h : b ≠ a) :
    Sparse.find (Sparse.put m a v) b = Sparse.find m b := by
  induction m with
  | nil =>
    simp only [Sparse.put, Sparse.find, if_neg h]
    split <;> rfl
  | cons e m ih =>
    obtain ⟨k, w⟩ := e
    simp only [Sparse.put]
    split
    · rename_i h1
      simp only [Sparse.find, if_neg h]
      by_cases h2 : b < a
      · have h3 : b ≠ k := by omega
        have h4 : b < k := by omega
        simp [h2, h3, h4]
      · simp [h2]
    · split
      · rename_i h1 h2
        subst h2
        simp [Sparse.find, h]
      · simp only [Sparse.find, ih]

/-- In a map whose numbers all lie above `k`, a number at or below `k` is not listed. -/
theorem Sparse.find_above {α : Type} (m : Sparse α) (k a : Nat) (h : Sparse.above k m = true) (ha : a ≤ k) :
    Sparse.find m a = none := by
  cases m with
  | nil => rfl
  | cons e m =>
    obtain ⟨j, w⟩ := e
    simp only [Sparse.above, Bool.and_eq_true, decide_eq_true_eq] at h
    have h1 : a ≠ j := by omega
    have h2 : a < j := by omega
    simp [Sparse.find, h1, h2]

theorem Sparse.above_sorted {α : Type} (m : Sparse α) (k : Nat) (h : Sparse.above k m = true) : Sparse.sorted m = true := by
  cases m with
  | nil => rfl
  | cons e m =>
    obtain ⟨j, w⟩ := e
    simp only [Sparse.above, Bool.and_eq_true] at h
    exact h.2

theorem Sparse.above_le {α : Type} (m : Sparse α) (j k : Nat) (h : Sparse.above k m = true) (hj : j ≤ k) :
    Sparse.above j m = true := by
  cases m with
  | nil => rfl
  | cons e m =>
    obtain ⟨i, w⟩ := e
    simp only [Sparse.above, Bool.and_eq_true, decide_eq_true_eq] at h ⊢
    exact ⟨by omega, h.2⟩

theorem Sparse.find_del_same {α : Type} (m : Sparse α) (a : Nat) (h : Sparse.sorted m = true) :
    Sparse.find (Sparse.del m a) a = none := by
  induction m with
  | nil => rfl
  | cons e m ih =>
    obtain ⟨k, w⟩ := e
    simp only [Sparse.sorted] at h
    simp only [Sparse.del]
    split
    · rename_i h1
      exact Sparse.find_above m k a h (by omega)
    · split
      · rename_i h1 h2
        simp [Sparse.find, h1, h2]
      · rename_i h1 h2
        simp only [Sparse.find, if_neg h1, if_neg h2]
        exact ih (Sparse.above_sorted m k h)

theorem Sparse.find_del_ne {α : Type} (m : Sparse α) (a b : Nat) (h : Sparse.sorted m = true) (hb : b ≠ a) :
    Sparse.find (Sparse.del m a) b = Sparse.find m b := by
  induction m with
  | nil => rfl
  | cons e m ih =>
    obtain ⟨k, w⟩ := e
    simp only [Sparse.sorted] at h
    simp only [Sparse.del]
    split
    · rename_i h1
      subst h1
      simp only [Sparse.find, if_neg hb]
      split
      · rename_i h2
        exact Sparse.find_above m a b h (by omega)
      · rfl
    · split
      · rfl
      · simp only [Sparse.find, ih (Sparse.above_sorted m k h)]

/-! ### The canonical form -/

theorem Sparse.above_put {α : Type} (m : Sparse α) (k a : Nat) (v : α) (h : Sparse.above k m = true) (ha : k < a) :
    Sparse.above k (Sparse.put m a v) = true := by
  induction m generalizing k with
  | nil => simp [Sparse.put, Sparse.above, ha]
  | cons e m ih =>
    obtain ⟨j, w⟩ := e
    simp only [Sparse.above, Bool.and_eq_true, decide_eq_true_eq] at h
    simp only [Sparse.put]
    split
    · simp [Sparse.above, h.2, *]
    · split
      · rename_i h1 h2
        subst h2
        simp [Sparse.above, ha, h.2]
      · simp only [Sparse.above, Bool.and_eq_true, decide_eq_true_eq]
        exact ⟨h.1, ih j h.2 (by omega)⟩

theorem Sparse.sorted_put {α : Type} (m : Sparse α) (a : Nat) (v : α) (h : Sparse.sorted m = true) :
    Sparse.sorted (Sparse.put m a v) = true := by
  cases m with
  | nil => rfl
  | cons e m =>
    obtain ⟨k, w⟩ := e
    simp only [Sparse.sorted] at h
    simp only [Sparse.put]
    split
    · simp [Sparse.sorted, Sparse.above, *]
    · split
      · rename_i h1 h2
        subst h2
        exact h
      · exact Sparse.above_put m k a v h (by omega)

theorem Sparse.above_del {α : Type} (m : Sparse α) (k a : Nat) (h : Sparse.above k m = true) :
    Sparse.above k (Sparse.del m a) = true := by
  induction m generalizing k with
  | nil => rfl
  | cons e m ih =>
    obtain ⟨j, w⟩ := e
    simp only [Sparse.above, Bool.and_eq_true, decide_eq_true_eq] at h
    simp only [Sparse.del]
    split
    · exact Sparse.above_le m k j h.2 (by omega)
    · split
      · simp [Sparse.above, h.1, h.2]
      · simp only [Sparse.above, Bool.and_eq_true, decide_eq_true_eq]
        exact ⟨h.1, ih j h.2⟩

theorem Sparse.sorted_del {α : Type} (m : Sparse α) (a : Nat) (h : Sparse.sorted m = true) :
    Sparse.sorted (Sparse.del m a) = true := by
  cases m with
  | nil => rfl
  | cons e m =>
    obtain ⟨k, w⟩ := e
    simp only [Sparse.sorted] at h
    simp only [Sparse.del]
    split
    · exact Sparse.above_sorted m k h
    · split
      · exact h
      · exact Sparse.above_del m k a h

theorem Sparse.all_put {α : Type} (p : Nat × α → Bool) (m : Sparse α) (a : Nat) (v : α) (h : m.all p = true)
    (hv : p (a, v) = true) : (Sparse.put m a v).all p = true := by
  induction m with
  | nil => simp [Sparse.put, hv]
  | cons e m ih =>
    obtain ⟨k, w⟩ := e
    simp only [List.all_cons, Bool.and_eq_true] at h
    simp only [Sparse.put]
    split
    · simp [hv, h.1, h.2]
    · split
      · simp [hv, h.2]
      · simp [h.1, ih h.2]

theorem Sparse.all_del {α : Type} (p : Nat × α → Bool) (m : Sparse α) (a : Nat) (h : m.all p = true) :
    (Sparse.del m a).all p = true := by
  induction m with
  | nil => rfl
  | cons e m ih =>
    obtain ⟨k, w⟩ := e
    simp only [List.all_cons, Bool.and_eq_true] at h
    simp only [Sparse.del]
    split
    · exact h.2
    · split
      · simp [h.1, h.2]
      · simp [h.1, ih h.2]

/-! ### Memory -/

theorem Memory.wf_nil : Memory.wf [] = true := rfl

theorem Memory.wf_sorted (m : Memory) (h : Memory.wf m = true) : Sparse.sorted m = true := by
  simp only [Memory.wf, Bool.and_eq_true] at h
  exact h.1

/-- A byte write keeps the canonical form. -/
theorem Memory.wf_setByte (m : Memory) (a : Nat) (b : Byte) (h : Memory.wf m = true) : Memory.wf (Memory.setByte m a b) = true := by
  simp only [Memory.wf, Bool.and_eq_true] at h
  simp only [Memory.setByte]
  split
  · simp only [Memory.wf, Bool.and_eq_true]
    exact ⟨Sparse.sorted_del m a h.1, Sparse.all_del _ m a h.2⟩
  · rename_i hb
    simp only [Memory.wf, Bool.and_eq_true]
    exact ⟨Sparse.sorted_put m a b h.1, Sparse.all_put _ m a b h.2 (by simpa using hb)⟩

/-- A write of several bytes keeps the canonical form. -/
theorem Memory.wf_setBytes (m : Memory) (a : Nat) (bs : List Byte) (h : Memory.wf m = true) :
    Memory.wf (Memory.setBytes m a bs) = true := by
  induction bs generalizing m a with
  | nil => exact h
  | cons b bs ih => exact ih _ _ (Memory.wf_setByte m a b h)

/-- A written byte reads as written. -/
theorem Memory.byte_setByte_same (m : Memory) (a : Nat) (b : Byte) (h : Memory.wf m = true) :
    Memory.byte (Memory.setByte m a b) a = b := by
  simp only [Memory.byte, Memory.setByte]
  split
  · rename_i hb
    rw [Sparse.find_del_same m a (Memory.wf_sorted m h)]
    simp [hb]
  · rw [Sparse.find_put_same]
    rfl

/-- A byte write leaves every other byte as it was. -/
theorem Memory.byte_setByte_ne (m : Memory) (a c : Nat) (b : Byte) (h : Memory.wf m = true) (hc : c ≠ a) :
    Memory.byte (Memory.setByte m a b) c = Memory.byte m c := by
  simp only [Memory.byte, Memory.setByte]
  split
  · rw [Sparse.find_del_ne m a c (Memory.wf_sorted m h) hc]
  · rw [Sparse.find_put_ne m a c b hc]

/-- Bytes outside a written range are as they were. -/
theorem Memory.byte_setBytes_out (m : Memory) (a c : Nat) (bs : List Byte) (h : Memory.wf m = true)
    (hc : c < a ∨ a + bs.length ≤ c) : Memory.byte (Memory.setBytes m a bs) c = Memory.byte m c := by
  induction bs generalizing m a with
  | nil => rfl
  | cons b bs ih =>
    simp only [List.length_cons] at hc
    simp only [Memory.setBytes]
    rw [ih _ _ (Memory.wf_setByte m a b h) (by omega), Memory.byte_setByte_ne m a c b h (by omega)]

/-- Bytes inside a written range are those written. -/
theorem Memory.byte_setBytes_in (m : Memory) (a i : Nat) (bs : List Byte) (h : Memory.wf m = true) (hi : i < bs.length) :
    Memory.byte (Memory.setBytes m a bs) (a + i) = bs[i] := by
  induction bs generalizing m a i with
  | nil => simp at hi
  | cons b bs ih =>
    simp only [Memory.setBytes]
    cases i with
    | zero =>
      rw [Memory.byte_setBytes_out _ _ _ _ (Memory.wf_setByte m a b h) (by omega)]
      exact Memory.byte_setByte_same m a b h
    | succ i =>
      have hi' : i < bs.length := by simpa using hi
      rw [show a + (i + 1) = a + 1 + i from by omega, ih _ _ i (Memory.wf_setByte m a b h) hi']
      rfl

end Sys2Proof.Machine
end

