-- ==== Sys2Proof/Laws/State.lean ====
section
/-! SUPPORT. What each update of the state leaves alone and what it changes: one lemma per field, true by `rfl`. -/

namespace Sys2Proof.Machine

variable (s : State)

/-! ### updCore -/

@[simp] theorem State.updCore_pending (k : CoreId) (f : Core → Core) : (s.updCore k f).pending = s.pending := rfl
@[simp] theorem State.updCore_fresh (k : CoreId) (f : Core → Core) : (s.updCore k f).fresh = s.fresh := rfl
@[simp] theorem State.updCore_irqs (k : CoreId) (f : Core → Core) : (s.updCore k f).irqs = s.irqs := rfl
@[simp] theorem State.updCore_fuses (k : CoreId) (f : Core → Core) : (s.updCore k f).fuses = s.fuses := rfl
@[simp] theorem State.updCore_cores (k : CoreId) (f : Core → Core) : (s.updCore k f).cores = vupd s.cores k f := rfl
@[simp] theorem State.updCore_dies (k : CoreId) (f : Core → Core) : (s.updCore k f).dies = s.dies := rfl
@[simp] theorem State.updCore_fabs (k : CoreId) (f : Core → Core) : (s.updCore k f).fabs = s.fabs := rfl
@[simp] theorem State.updCore_msgs (k : CoreId) (f : Core → Core) : (s.updCore k f).msgs = s.msgs := rfl
@[simp] theorem State.updCore_mem (k : CoreId) (f : Core → Core) : (s.updCore k f).mem = s.mem := rfl
@[simp] theorem State.updCore_bibs (k : CoreId) (f : Core → Core) : (s.updCore k f).bibs = s.bibs := rfl
@[simp] theorem State.updCore_fills (k : CoreId) (f : Core → Core) : (s.updCore k f).fills = s.fills := rfl
@[simp] theorem State.updCore_poison (k : CoreId) (f : Core → Core) : (s.updCore k f).poison = s.poison := rfl
@[simp] theorem State.updCore_frames (k : CoreId) (f : Core → Core) : (s.updCore k f).frames = s.frames := rfl
@[simp] theorem State.updCore_shelf (k : CoreId) (f : Core → Core) : (s.updCore k f).shelf = s.shelf := rfl
@[simp] theorem State.updCore_hbms (k : CoreId) (f : Core → Core) : (s.updCore k f).hbms = s.hbms := rfl
@[simp] theorem State.updCore_handles (k : CoreId) (f : Core → Core) : (s.updCore k f).handles = s.handles := rfl
@[simp] theorem State.updCore_rings (k : CoreId) (f : Core → Core) : (s.updCore k f).rings = s.rings := rfl
@[simp] theorem State.updCore_runnels (k : CoreId) (f : Core → Core) : (s.updCore k f).runnels = s.runnels := rfl
@[simp] theorem State.updCore_hostMem (k : CoreId) (f : Core → Core) : (s.updCore k f).hostMem = s.hostMem := rfl
@[simp] theorem State.updCore_queues (k : CoreId) (f : Core → Core) : (s.updCore k f).queues = s.queues := rfl
@[simp] theorem State.updCore_ready (k : CoreId) (f : Core → Core) : (s.updCore k f).ready = s.ready := rfl
@[simp] theorem State.updCore_active (k : CoreId) (f : Core → Core) : (s.updCore k f).active = s.active := rfl
@[simp] theorem State.updCore_events (k : CoreId) (f : Core → Core) : (s.updCore k f).events = s.events := rfl
@[simp] theorem State.updCore_stepCtr (k : CoreId) (f : Core → Core) : (s.updCore k f).stepCtr = s.stepCtr := rfl
@[simp] theorem State.updCore_skips (k : CoreId) (f : Core → Core) : (s.updCore k f).skips = s.skips := rfl
@[simp] theorem State.updCore_guard (k : CoreId) (f : Core → Core) : (s.updCore k f).guard = s.guard := rfl
@[simp] theorem State.updCore_baton (k : CoreId) (f : Core → Core) : (s.updCore k f).baton = s.baton := rfl
@[simp] theorem State.updCore_dxt (k : CoreId) (f : Core → Core) : (s.updCore k f).dxt = s.dxt := rfl
@[simp] theorem State.updCore_ports (k : CoreId) (f : Core → Core) : (s.updCore k f).ports = s.ports := rfl
@[simp] theorem State.updCore_host (k : CoreId) (f : Core → Core) : (s.updCore k f).host = s.host := rfl
@[simp] theorem State.updCore_rotations (k : CoreId) (f : Core → Core) : (s.updCore k f).rotations = s.rotations := rfl
@[simp] theorem State.updCore_stepPhase (k : CoreId) (f : Core → Core) : (s.updCore k f).stepPhase = s.stepPhase := rfl
@[simp] theorem State.updCore_rotReq (k : CoreId) (f : Core → Core) : (s.updCore k f).rotReq = s.rotReq := rfl
@[simp] theorem State.updCore_cooldown (k : CoreId) (f : Core → Core) : (s.updCore k f).cooldown = s.cooldown := rfl
@[simp] theorem State.updCore_tapers (k : CoreId) (f : Core → Core) : (s.updCore k f).tapers = s.tapers := rfl
@[simp] theorem State.updCore_svc (k : CoreId) (f : Core → Core) : (s.updCore k f).svc = s.svc := rfl
@[simp] theorem State.updCore_links (k : CoreId) (f : Core → Core) : (s.updCore k f).links = s.links := rfl
@[simp] theorem State.updCore_clerk (k : CoreId) (f : Core → Core) : (s.updCore k f).clerk = s.clerk := rfl
@[simp] theorem State.updCore_flash (k : CoreId) (f : Core → Core) : (s.updCore k f).flash = s.flash := rfl
@[simp] theorem State.updCore_power (k : CoreId) (f : Core → Core) : (s.updCore k f).power = s.power := rfl

/-! ### updArch -/

@[simp] theorem State.updArch_pending (k : CoreId) (f : CoreArch → CoreArch) : (s.updArch k f).pending = s.pending := rfl
@[simp] theorem State.updArch_fresh (k : CoreId) (f : CoreArch → CoreArch) : (s.updArch k f).fresh = s.fresh := rfl
@[simp] theorem State.updArch_irqs (k : CoreId) (f : CoreArch → CoreArch) : (s.updArch k f).irqs = s.irqs := rfl
@[simp] theorem State.updArch_fuses (k : CoreId) (f : CoreArch → CoreArch) : (s.updArch k f).fuses = s.fuses := rfl
@[simp] theorem State.updArch_dies (k : CoreId) (f : CoreArch → CoreArch) : (s.updArch k f).dies = s.dies := rfl
@[simp] theorem State.updArch_fabs (k : CoreId) (f : CoreArch → CoreArch) : (s.updArch k f).fabs = s.fabs := rfl
@[simp] theorem State.updArch_msgs (k : CoreId) (f : CoreArch → CoreArch) : (s.updArch k f).msgs = s.msgs := rfl
@[simp] theorem State.updArch_mem (k : CoreId) (f : CoreArch → CoreArch) : (s.updArch k f).mem = s.mem := rfl
@[simp] theorem State.updArch_bibs (k : CoreId) (f : CoreArch → CoreArch) : (s.updArch k f).bibs = s.bibs := rfl
@[simp] theorem State.updArch_fills (k : CoreId) (f : CoreArch → CoreArch) : (s.updArch k f).fills = s.fills := rfl
@[simp] theorem State.updArch_poison (k : CoreId) (f : CoreArch → CoreArch) : (s.updArch k f).poison = s.poison := rfl
@[simp] theorem State.updArch_frames (k : CoreId) (f : CoreArch → CoreArch) : (s.updArch k f).frames = s.frames := rfl
@[simp] theorem State.updArch_shelf (k : CoreId) (f : CoreArch → CoreArch) : (s.updArch k f).shelf = s.shelf := rfl
@[simp] theorem State.updArch_hbms (k : CoreId) (f : CoreArch → CoreArch) : (s.updArch k f).hbms = s.hbms := rfl
@[simp] theorem State.updArch_handles (k : CoreId) (f : CoreArch → CoreArch) : (s.updArch k f).handles = s.handles := rfl
@[simp] theorem State.updArch_rings (k : CoreId) (f : CoreArch → CoreArch) : (s.updArch k f).rings = s.rings := rfl
@[simp] theorem State.updArch_runnels (k : CoreId) (f : CoreArch → CoreArch) : (s.updArch k f).runnels = s.runnels := rfl
@[simp] theorem State.updArch_hostMem (k : CoreId) (f : CoreArch → CoreArch) : (s.updArch k f).hostMem = s.hostMem := rfl
@[simp] theorem State.updArch_queues (k : CoreId) (f : CoreArch → CoreArch) : (s.updArch k f).queues = s.queues := rfl
@[simp] theorem State.updArch_ready (k : CoreId) (f : CoreArch → CoreArch) : (s.updArch k f).ready = s.ready := rfl
@[simp] theorem State.updArch_active (k : CoreId) (f : CoreArch → CoreArch) : (s.updArch k f).active = s.active := rfl
@[simp] theorem State.updArch_events (k : CoreId) (f : CoreArch → CoreArch) : (s.updArch k f).events = s.events := rfl
@[simp] theorem State.updArch_stepCtr (k : CoreId) (f : CoreArch → CoreArch) : (s.updArch k f).stepCtr = s.stepCtr := rfl
@[simp] theorem State.updArch_skips (k : CoreId) (f : CoreArch → CoreArch) : (s.updArch k f).skips = s.skips := rfl
@[simp] theorem State.updArch_guard (k : CoreId) (f : CoreArch → CoreArch) : (s.updArch k f).guard = s.guard := rfl
@[simp] theorem State.updArch_baton (k : CoreId) (f : CoreArch → CoreArch) : (s.updArch k f).baton = s.baton := rfl
@[simp] theorem State.updArch_dxt (k : CoreId) (f : CoreArch → CoreArch) : (s.updArch k f).dxt = s.dxt := rfl
@[simp] theorem State.updArch_ports (k : CoreId) (f : CoreArch → CoreArch) : (s.updArch k f).ports = s.ports := rfl
@[simp] theorem State.updArch_host (k : CoreId) (f : CoreArch → CoreArch) : (s.updArch k f).host = s.host := rfl
@[simp] theorem State.updArch_rotations (k : CoreId) (f : CoreArch → CoreArch) : (s.updArch k f).rotations = s.rotations := rfl
@[simp] theorem State.updArch_stepPhase (k : CoreId) (f : CoreArch → CoreArch) : (s.updArch k f).stepPhase = s.stepPhase := rfl
@[simp] theorem State.updArch_rotReq (k : CoreId) (f : CoreArch → CoreArch) : (s.updArch k f).rotReq = s.rotReq := rfl
@[simp] theorem State.updArch_cooldown (k : CoreId) (f : CoreArch → CoreArch) : (s.updArch k f).cooldown = s.cooldown := rfl
@[simp] theorem State.updArch_tapers (k : CoreId) (f : CoreArch → CoreArch) : (s.updArch k f).tapers = s.tapers := rfl
@[simp] theorem State.updArch_svc (k : CoreId) (f : CoreArch → CoreArch) : (s.updArch k f).svc = s.svc := rfl
@[simp] theorem State.updArch_links (k : CoreId) (f : CoreArch → CoreArch) : (s.updArch k f).links = s.links := rfl
@[simp] theorem State.updArch_clerk (k : CoreId) (f : CoreArch → CoreArch) : (s.updArch k f).clerk = s.clerk := rfl
@[simp] theorem State.updArch_flash (k : CoreId) (f : CoreArch → CoreArch) : (s.updArch k f).flash = s.flash := rfl
@[simp] theorem State.updArch_power (k : CoreId) (f : CoreArch → CoreArch) : (s.updArch k f).power = s.power := rfl

/-! ### updDie -/

@[simp] theorem State.updDie_pending (d : DieId) (f : Die → Die) : (s.updDie d f).pending = s.pending := rfl
@[simp] theorem State.updDie_fresh (d : DieId) (f : Die → Die) : (s.updDie d f).fresh = s.fresh := rfl
@[simp] theorem State.updDie_irqs (d : DieId) (f : Die → Die) : (s.updDie d f).irqs = s.irqs := rfl
@[simp] theorem State.updDie_fuses (d : DieId) (f : Die → Die) : (s.updDie d f).fuses = s.fuses := rfl
@[simp] theorem State.updDie_cores (d : DieId) (f : Die → Die) : (s.updDie d f).cores = s.cores := rfl
@[simp] theorem State.updDie_dies (d : DieId) (f : Die → Die) : (s.updDie d f).dies = vupd s.dies d f := rfl
@[simp] theorem State.updDie_fabs (d : DieId) (f : Die → Die) : (s.updDie d f).fabs = s.fabs := rfl
@[simp] theorem State.updDie_msgs (d : DieId) (f : Die → Die) : (s.updDie d f).msgs = s.msgs := rfl
@[simp] theorem State.updDie_mem (d : DieId) (f : Die → Die) : (s.updDie d f).mem = s.mem := rfl
@[simp] theorem State.updDie_bibs (d : DieId) (f : Die → Die) : (s.updDie d f).bibs = s.bibs := rfl
@[simp] theorem State.updDie_fills (d : DieId) (f : Die → Die) : (s.updDie d f).fills = s.fills := rfl
@[simp] theorem State.updDie_poison (d : DieId) (f : Die → Die) : (s.updDie d f).poison = s.poison := rfl
@[simp] theorem State.updDie_frames (d : DieId) (f : Die → Die) : (s.updDie d f).frames = s.frames := rfl
@[simp] theorem State.updDie_shelf (d : DieId) (f : Die → Die) : (s.updDie d f).shelf = s.shelf := rfl
@[simp] theorem State.updDie_hbms (d : DieId) (f : Die → Die) : (s.updDie d f).hbms = s.hbms := rfl
@[simp] theorem State.updDie_handles (d : DieId) (f : Die → Die) : (s.updDie d f).handles = s.handles := rfl
@[simp] theorem State.updDie_rings (d : DieId) (f : Die → Die) : (s.updDie d f).rings = s.rings := rfl
@[simp] theorem State.updDie_runnels (d : DieId) (f : Die → Die) : (s.updDie d f).runnels = s.runnels := rfl
@[simp] theorem State.updDie_hostMem (d : DieId) (f : Die → Die) : (s.updDie d f).hostMem = s.hostMem := rfl
@[simp] theorem State.updDie_queues (d : DieId) (f : Die → Die) : (s.updDie d f).queues = s.queues := rfl
@[simp] theorem State.updDie_ready (d : DieId) (f : Die → Die) : (s.updDie d f).ready = s.ready := rfl
@[simp] theorem State.updDie_active (d : DieId) (f : Die → Die) : (s.updDie d f).active = s.active := rfl
@[simp] theorem State.updDie_events (d : DieId) (f : Die → Die) : (s.updDie d f).events = s.events := rfl
@[simp] theorem State.updDie_stepCtr (d : DieId) (f : Die → Die) : (s.updDie d f).stepCtr = s.stepCtr := rfl
@[simp] theorem State.updDie_skips (d : DieId) (f : Die → Die) : (s.updDie d f).skips = s.skips := rfl
@[simp] theorem State.updDie_guard (d : DieId) (f : Die → Die) : (s.updDie d f).guard = s.guard := rfl
@[simp] theorem State.updDie_baton (d : DieId) (f : Die → Die) : (s.updDie d f).baton = s.baton := rfl
@[simp] theorem State.updDie_dxt (d : DieId) (f : Die → Die) : (s.updDie d f).dxt = s.dxt := rfl
@[simp] theorem State.updDie_ports (d : DieId) (f : Die → Die) : (s.updDie d f).ports = s.ports := rfl
@[simp] theorem State.updDie_host (d : DieId) (f : Die → Die) : (s.updDie d f).host = s.host := rfl
@[simp] theorem State.updDie_rotations (d : DieId) (f : Die → Die) : (s.updDie d f).rotations = s.rotations := rfl
@[simp] theorem State.updDie_stepPhase (d : DieId) (f : Die → Die) : (s.updDie d f).stepPhase = s.stepPhase := rfl
@[simp] theorem State.updDie_rotReq (d : DieId) (f : Die → Die) : (s.updDie d f).rotReq = s.rotReq := rfl
@[simp] theorem State.updDie_cooldown (d : DieId) (f : Die → Die) : (s.updDie d f).cooldown = s.cooldown := rfl
@[simp] theorem State.updDie_tapers (d : DieId) (f : Die → Die) : (s.updDie d f).tapers = s.tapers := rfl
@[simp] theorem State.updDie_svc (d : DieId) (f : Die → Die) : (s.updDie d f).svc = s.svc := rfl
@[simp] theorem State.updDie_links (d : DieId) (f : Die → Die) : (s.updDie d f).links = s.links := rfl
@[simp] theorem State.updDie_clerk (d : DieId) (f : Die → Die) : (s.updDie d f).clerk = s.clerk := rfl
@[simp] theorem State.updDie_flash (d : DieId) (f : Die → Die) : (s.updDie d f).flash = s.flash := rfl
@[simp] theorem State.updDie_power (d : DieId) (f : Die → Die) : (s.updDie d f).power = s.power := rfl

/-! ### updFab -/

@[simp] theorem State.updFab_pending (j : Fin 8) (f : FabCtx → FabCtx) : (s.updFab j f).pending = s.pending := rfl
@[simp] theorem State.updFab_fresh (j : Fin 8) (f : FabCtx → FabCtx) : (s.updFab j f).fresh = s.fresh := rfl
@[simp] theorem State.updFab_irqs (j : Fin 8) (f : FabCtx → FabCtx) : (s.updFab j f).irqs = s.irqs := rfl
@[simp] theorem State.updFab_fuses (j : Fin 8) (f : FabCtx → FabCtx) : (s.updFab j f).fuses = s.fuses := rfl
@[simp] theorem State.updFab_cores (j : Fin 8) (f : FabCtx → FabCtx) : (s.updFab j f).cores = s.cores := rfl
@[simp] theorem State.updFab_dies (j : Fin 8) (f : FabCtx → FabCtx) : (s.updFab j f).dies = s.dies := rfl
@[simp] theorem State.updFab_fabs (j : Fin 8) (f : FabCtx → FabCtx) : (s.updFab j f).fabs = vupd s.fabs j f := rfl
@[simp] theorem State.updFab_msgs (j : Fin 8) (f : FabCtx → FabCtx) : (s.updFab j f).msgs = s.msgs := rfl
@[simp] theorem State.updFab_mem (j : Fin 8) (f : FabCtx → FabCtx) : (s.updFab j f).mem = s.mem := rfl
@[simp] theorem State.updFab_bibs (j : Fin 8) (f : FabCtx → FabCtx) : (s.updFab j f).bibs = s.bibs := rfl
@[simp] theorem State.updFab_fills (j : Fin 8) (f : FabCtx → FabCtx) : (s.updFab j f).fills = s.fills := rfl
@[simp] theorem State.updFab_poison (j : Fin 8) (f : FabCtx → FabCtx) : (s.updFab j f).poison = s.poison := rfl
@[simp] theorem State.updFab_frames (j : Fin 8) (f : FabCtx → FabCtx) : (s.updFab j f).frames = s.frames := rfl
@[simp] theorem State.updFab_shelf (j : Fin 8) (f : FabCtx → FabCtx) : (s.updFab j f).shelf = s.shelf := rfl
@[simp] theorem State.updFab_hbms (j : Fin 8) (f : FabCtx → FabCtx) : (s.updFab j f).hbms = s.hbms := rfl
@[simp] theorem State.updFab_handles (j : Fin 8) (f : FabCtx → FabCtx) : (s.updFab j f).handles = s.handles := rfl
@[simp] theorem State.updFab_rings (j : Fin 8) (f : FabCtx → FabCtx) : (s.updFab j f).rings = s.rings := rfl
@[simp] theorem State.updFab_runnels (j : Fin 8) (f : FabCtx → FabCtx) : (s.updFab j f).runnels = s.runnels := rfl
@[simp] theorem State.updFab_hostMem (j : Fin 8) (f : FabCtx → FabCtx) : (s.updFab j f).hostMem = s.hostMem := rfl
@[simp] theorem State.updFab_queues (j : Fin 8) (f : FabCtx → FabCtx) : (s.updFab j f).queues = s.queues := rfl
@[simp] theorem State.updFab_ready (j : Fin 8) (f : FabCtx → FabCtx) : (s.updFab j f).ready = s.ready := rfl
@[simp] theorem State.updFab_active (j : Fin 8) (f : FabCtx → FabCtx) : (s.updFab j f).active = s.active := rfl
@[simp] theorem State.updFab_events (j : Fin 8) (f : FabCtx → FabCtx) : (s.updFab j f).events = s.events := rfl
@[simp] theorem State.updFab_stepCtr (j : Fin 8) (f : FabCtx → FabCtx) : (s.updFab j f).stepCtr = s.stepCtr := rfl
@[simp] theorem State.updFab_skips (j : Fin 8) (f : FabCtx → FabCtx) : (s.updFab j f).skips = s.skips := rfl
@[simp] theorem State.updFab_guard (j : Fin 8) (f : FabCtx → FabCtx) : (s.updFab j f).guard = s.guard := rfl
@[simp] theorem State.updFab_baton (j : Fin 8) (f : FabCtx → FabCtx) : (s.updFab j f).baton = s.baton := rfl
@[simp] theorem State.updFab_dxt (j : Fin 8) (f : FabCtx → FabCtx) : (s.updFab j f).dxt = s.dxt := rfl
@[simp] theorem State.updFab_ports (j : Fin 8) (f : FabCtx → FabCtx) : (s.updFab j f).ports = s.ports := rfl
@[simp] theorem State.updFab_host (j : Fin 8) (f : FabCtx → FabCtx) : (s.updFab j f).host = s.host := rfl
@[simp] theorem State.updFab_rotations (j : Fin 8) (f : FabCtx → FabCtx) : (s.updFab j f).rotations = s.rotations := rfl
@[simp] theorem State.updFab_stepPhase (j : Fin 8) (f : FabCtx → FabCtx) : (s.updFab j f).stepPhase = s.stepPhase := rfl
@[simp] theorem State.updFab_rotReq (j : Fin 8) (f : FabCtx → FabCtx) : (s.updFab j f).rotReq = s.rotReq := rfl
@[simp] theorem State.updFab_cooldown (j : Fin 8) (f : FabCtx → FabCtx) : (s.updFab j f).cooldown = s.cooldown := rfl
@[simp] theorem State.updFab_tapers (j : Fin 8) (f : FabCtx → FabCtx) : (s.updFab j f).tapers = s.tapers := rfl
@[simp] theorem State.updFab_svc (j : Fin 8) (f : FabCtx → FabCtx) : (s.updFab j f).svc = s.svc := rfl
@[simp] theorem State.updFab_links (j : Fin 8) (f : FabCtx → FabCtx) : (s.updFab j f).links = s.links := rfl
@[simp] theorem State.updFab_clerk (j : Fin 8) (f : FabCtx → FabCtx) : (s.updFab j f).clerk = s.clerk := rfl
@[simp] theorem State.updFab_flash (j : Fin 8) (f : FabCtx → FabCtx) : (s.updFab j f).flash = s.flash := rfl
@[simp] theorem State.updFab_power (j : Fin 8) (f : FabCtx → FabCtx) : (s.updFab j f).power = s.power := rfl

/-! ### updQueue -/

@[simp] theorem State.updQueue_pending (q : Nat) (f : Queue → Queue) : (s.updQueue q f).pending = s.pending := rfl
@[simp] theorem State.updQueue_fresh (q : Nat) (f : Queue → Queue) : (s.updQueue q f).fresh = s.fresh := rfl
@[simp] theorem State.updQueue_irqs (q : Nat) (f : Queue → Queue) : (s.updQueue q f).irqs = s.irqs := rfl
@[simp] theorem State.updQueue_fuses (q : Nat) (f : Queue → Queue) : (s.updQueue q f).fuses = s.fuses := rfl
@[simp] theorem State.updQueue_cores (q : Nat) (f : Queue → Queue) : (s.updQueue q f).cores = s.cores := rfl
@[simp] theorem State.updQueue_dies (q : Nat) (f : Queue → Queue) : (s.updQueue q f).dies = s.dies := rfl
@[simp] theorem State.updQueue_fabs (q : Nat) (f : Queue → Queue) : (s.updQueue q f).fabs = s.fabs := rfl
@[simp] theorem State.updQueue_msgs (q : Nat) (f : Queue → Queue) : (s.updQueue q f).msgs = s.msgs := rfl
@[simp] theorem State.updQueue_mem (q : Nat) (f : Queue → Queue) : (s.updQueue q f).mem = s.mem := rfl
@[simp] theorem State.updQueue_bibs (q : Nat) (f : Queue → Queue) : (s.updQueue q f).bibs = s.bibs := rfl
@[simp] theorem State.updQueue_fills (q : Nat) (f : Queue → Queue) : (s.updQueue q f).fills = s.fills := rfl
@[simp] theorem State.updQueue_poison (q : Nat) (f : Queue → Queue) : (s.updQueue q f).poison = s.poison := rfl
@[simp] theorem State.updQueue_frames (q : Nat) (f : Queue → Queue) : (s.updQueue q f).frames = s.frames := rfl
@[simp] theorem State.updQueue_shelf (q : Nat) (f : Queue → Queue) : (s.updQueue q f).shelf = s.shelf := rfl
@[simp] theorem State.updQueue_hbms (q : Nat) (f : Queue → Queue) : (s.updQueue q f).hbms = s.hbms := rfl
@[simp] theorem State.updQueue_handles (q : Nat) (f : Queue → Queue) : (s.updQueue q f).handles = s.handles := rfl
@[simp] theorem State.updQueue_rings (q : Nat) (f : Queue → Queue) : (s.updQueue q f).rings = s.rings := rfl
@[simp] theorem State.updQueue_runnels (q : Nat) (f : Queue → Queue) : (s.updQueue q f).runnels = s.runnels := rfl
@[simp] theorem State.updQueue_hostMem (q : Nat) (f : Queue → Queue) : (s.updQueue q f).hostMem = s.hostMem := rfl
@[simp] theorem State.updQueue_queues (q : Nat) (f : Queue → Queue) : (s.updQueue q f).queues = Sparse.put s.queues q (f (s.queue q)) := rfl
@[simp] theorem State.updQueue_ready (q : Nat) (f : Queue → Queue) : (s.updQueue q f).ready = s.ready := rfl
@[simp] theorem State.updQueue_active (q : Nat) (f : Queue → Queue) : (s.updQueue q f).active = s.active := rfl
@[simp] theorem State.updQueue_events (q : Nat) (f : Queue → Queue) : (s.updQueue q f).events = s.events := rfl
@[simp] theorem State.updQueue_stepCtr (q : Nat) (f : Queue → Queue) : (s.updQueue q f).stepCtr = s.stepCtr := rfl
@[simp] theorem State.updQueue_skips (q : Nat) (f : Queue → Queue) : (s.updQueue q f).skips = s.skips := rfl
@[simp] theorem State.updQueue_guard (q : Nat) (f : Queue → Queue) : (s.updQueue q f).guard = s.guard := rfl
@[simp] theorem State.updQueue_baton (q : Nat) (f : Queue → Queue) : (s.updQueue q f).baton = s.baton := rfl
@[simp] theorem State.updQueue_dxt (q : Nat) (f : Queue → Queue) : (s.updQueue q f).dxt = s.dxt := rfl
@[simp] theorem State.updQueue_ports (q : Nat) (f : Queue → Queue) : (s.updQueue q f).ports = s.ports := rfl
@[simp] theorem State.updQueue_host (q : Nat) (f : Queue → Queue) : (s.updQueue q f).host = s.host := rfl
@[simp] theorem State.updQueue_rotations (q : Nat) (f : Queue → Queue) : (s.updQueue q f).rotations = s.rotations := rfl
@[simp] theorem State.updQueue_stepPhase (q : Nat) (f : Queue → Queue) : (s.updQueue q f).stepPhase = s.stepPhase := rfl
@[simp] theorem State.updQueue_rotReq (q : Nat) (f : Queue → Queue) : (s.updQueue q f).rotReq = s.rotReq := rfl
@[simp] theorem State.updQueue_cooldown (q : Nat) (f : Queue → Queue) : (s.updQueue q f).cooldown = s.cooldown := rfl
@[simp] theorem State.updQueue_tapers (q : Nat) (f : Queue → Queue) : (s.updQueue q f).tapers = s.tapers := rfl
@[simp] theorem State.updQueue_svc (q : Nat) (f : Queue → Queue) : (s.updQueue q f).svc = s.svc := rfl
@[simp] theorem State.updQueue_links (q : Nat) (f : Queue → Queue) : (s.updQueue q f).links = s.links := rfl
@[simp] theorem State.updQueue_clerk (q : Nat) (f : Queue → Queue) : (s.updQueue q f).clerk = s.clerk := rfl
@[simp] theorem State.updQueue_flash (q : Nat) (f : Queue → Queue) : (s.updQueue q f).flash = s.flash := rfl
@[simp] theorem State.updQueue_power (q : Nat) (f : Queue → Queue) : (s.updQueue q f).power = s.power := rfl

/-! ### wr -/

@[simp] theorem State.wr_pending (a : Nat) (bs : List Byte) : (s.wr a bs).pending = s.pending := rfl
@[simp] theorem State.wr_fresh (a : Nat) (bs : List Byte) : (s.wr a bs).fresh = s.fresh := rfl
@[simp] theorem State.wr_irqs (a : Nat) (bs : List Byte) : (s.wr a bs).irqs = s.irqs := rfl
@[simp] theorem State.wr_fuses (a : Nat) (bs : List Byte) : (s.wr a bs).fuses = s.fuses := rfl
@[simp] theorem State.wr_cores (a : Nat) (bs : List Byte) : (s.wr a bs).cores = s.cores := rfl
@[simp] theorem State.wr_dies (a : Nat) (bs : List Byte) : (s.wr a bs).dies = s.dies := rfl
@[simp] theorem State.wr_fabs (a : Nat) (bs : List Byte) : (s.wr a bs).fabs = s.fabs := rfl
@[simp] theorem State.wr_msgs (a : Nat) (bs : List Byte) : (s.wr a bs).msgs = s.msgs := rfl
@[simp] theorem State.wr_mem (a : Nat) (bs : List Byte) : (s.wr a bs).mem = Memory.setBytes s.mem a bs := rfl
@[simp] theorem State.wr_bibs (a : Nat) (bs : List Byte) : (s.wr a bs).bibs = s.bibs := rfl
@[simp] theorem State.wr_fills (a : Nat) (bs : List Byte) : (s.wr a bs).fills = s.fills := rfl
@[simp] theorem State.wr_poison (a : Nat) (bs : List Byte) : (s.wr a bs).poison = s.poison := rfl
@[simp] theorem State.wr_frames (a : Nat) (bs : List Byte) : (s.wr a bs).frames = s.frames := rfl
@[simp] theorem State.wr_shelf (a : Nat) (bs : List Byte) : (s.wr a bs).shelf = s.shelf := rfl
@[simp] theorem State.wr_hbms (a : Nat) (bs : List Byte) : (s.wr a bs).hbms = s.hbms := rfl
@[simp] theorem State.wr_handles (a : Nat) (bs : List Byte) : (s.wr a bs).handles = s.handles := rfl
@[simp] theorem State.wr_rings (a : Nat) (bs : List Byte) : (s.wr a bs).rings = s.rings := rfl
@[simp] theorem State.wr_runnels (a : Nat) (bs : List Byte) : (s.wr a bs).runnels = s.runnels := rfl
@[simp] theorem State.wr_hostMem (a : Nat) (bs : List Byte) : (s.wr a bs).hostMem = s.hostMem := rfl
@[simp] theorem State.wr_queues (a : Nat) (bs : List Byte) : (s.wr a bs).queues = s.queues := rfl
@[simp] theorem State.wr_ready (a : Nat) (bs : List Byte) : (s.wr a bs).ready = s.ready := rfl
@[simp] theorem State.wr_active (a : Nat) (bs : List Byte) : (s.wr a bs).active = s.active := rfl
@[simp] theorem State.wr_events (a : Nat) (bs : List Byte) : (s.wr a bs).events = s.events := rfl
@[simp] theorem State.wr_stepCtr (a : Nat) (bs : List Byte) : (s.wr a bs).stepCtr = s.stepCtr := rfl
@[simp] theorem State.wr_skips (a : Nat) (bs : List Byte) : (s.wr a bs).skips = s.skips := rfl
@[simp] theorem State.wr_guard (a : Nat) (bs : List Byte) : (s.wr a bs).guard = s.guard := rfl
@[simp] theorem State.wr_baton (a : Nat) (bs : List Byte) : (s.wr a bs).baton = s.baton := rfl
@[simp] theorem State.wr_dxt (a : Nat) (bs : List Byte) : (s.wr a bs).dxt = s.dxt := rfl
@[simp] theorem State.wr_ports (a : Nat) (bs : List Byte) : (s.wr a bs).ports = s.ports := rfl
@[simp] theorem State.wr_host (a : Nat) (bs : List Byte) : (s.wr a bs).host = s.host := rfl
@[simp] theorem State.wr_rotations (a : Nat) (bs : List Byte) : (s.wr a bs).rotations = s.rotations := rfl
@[simp] theorem State.wr_stepPhase (a : Nat) (bs : List Byte) : (s.wr a bs).stepPhase = s.stepPhase := rfl
@[simp] theorem State.wr_rotReq (a : Nat) (bs : List Byte) : (s.wr a bs).rotReq = s.rotReq := rfl
@[simp] theorem State.wr_cooldown (a : Nat) (bs : List Byte) : (s.wr a bs).cooldown = s.cooldown := rfl
@[simp] theorem State.wr_tapers (a : Nat) (bs : List Byte) : (s.wr a bs).tapers = s.tapers := rfl
@[simp] theorem State.wr_svc (a : Nat) (bs : List Byte) : (s.wr a bs).svc = s.svc := rfl
@[simp] theorem State.wr_links (a : Nat) (bs : List Byte) : (s.wr a bs).links = s.links := rfl
@[simp] theorem State.wr_clerk (a : Nat) (bs : List Byte) : (s.wr a bs).clerk = s.clerk := rfl
@[simp] theorem State.wr_flash (a : Nat) (bs : List Byte) : (s.wr a bs).flash = s.flash := rfl
@[simp] theorem State.wr_power (a : Nat) (bs : List Byte) : (s.wr a bs).power = s.power := rfl

/-! ### sendCtr -/

@[simp] theorem State.sendCtr_pending (m : CtrMsg) : (s.sendCtr m).pending = s.pending := rfl
@[simp] theorem State.sendCtr_fresh (m : CtrMsg) : (s.sendCtr m).fresh = s.fresh := rfl
@[simp] theorem State.sendCtr_irqs (m : CtrMsg) : (s.sendCtr m).irqs = s.irqs := rfl
@[simp] theorem State.sendCtr_fuses (m : CtrMsg) : (s.sendCtr m).fuses = s.fuses := rfl
@[simp] theorem State.sendCtr_cores (m : CtrMsg) : (s.sendCtr m).cores = s.cores := rfl
@[simp] theorem State.sendCtr_dies (m : CtrMsg) : (s.sendCtr m).dies = s.dies := rfl
@[simp] theorem State.sendCtr_fabs (m : CtrMsg) : (s.sendCtr m).fabs = s.fabs := rfl
@[simp] theorem State.sendCtr_mem (m : CtrMsg) : (s.sendCtr m).mem = s.mem := rfl
@[simp] theorem State.sendCtr_bibs (m : CtrMsg) : (s.sendCtr m).bibs = s.bibs := rfl
@[simp] theorem State.sendCtr_fills (m : CtrMsg) : (s.sendCtr m).fills = s.fills := rfl
@[simp] theorem State.sendCtr_poison (m : CtrMsg) : (s.sendCtr m).poison = s.poison := rfl
@[simp] theorem State.sendCtr_frames (m : CtrMsg) : (s.sendCtr m).frames = s.frames := rfl
@[simp] theorem State.sendCtr_shelf (m : CtrMsg) : (s.sendCtr m).shelf = s.shelf := rfl
@[simp] theorem State.sendCtr_hbms (m : CtrMsg) : (s.sendCtr m).hbms = s.hbms := rfl
@[simp] theorem State.sendCtr_handles (m : CtrMsg) : (s.sendCtr m).handles = s.handles := rfl
@[simp] theorem State.sendCtr_rings (m : CtrMsg) : (s.sendCtr m).rings = s.rings := rfl
@[simp] theorem State.sendCtr_runnels (m : CtrMsg) : (s.sendCtr m).runnels = s.runnels := rfl
@[simp] theorem State.sendCtr_hostMem (m : CtrMsg) : (s.sendCtr m).hostMem = s.hostMem := rfl
@[simp] theorem State.sendCtr_queues (m : CtrMsg) : (s.sendCtr m).queues = s.queues := rfl
@[simp] theorem State.sendCtr_ready (m : CtrMsg) : (s.sendCtr m).ready = s.ready := rfl
@[simp] theorem State.sendCtr_active (m : CtrMsg) : (s.sendCtr m).active = s.active := rfl
@[simp] theorem State.sendCtr_events (m : CtrMsg) : (s.sendCtr m).events = s.events := rfl
@[simp] theorem State.sendCtr_stepCtr (m : CtrMsg) : (s.sendCtr m).stepCtr = s.stepCtr := rfl
@[simp] theorem State.sendCtr_skips (m : CtrMsg) : (s.sendCtr m).skips = s.skips := rfl
@[simp] theorem State.sendCtr_guard (m : CtrMsg) : (s.sendCtr m).guard = s.guard := rfl
@[simp] theorem State.sendCtr_baton (m : CtrMsg) : (s.sendCtr m).baton = s.baton := rfl
@[simp] theorem State.sendCtr_dxt (m : CtrMsg) : (s.sendCtr m).dxt = s.dxt := rfl
@[simp] theorem State.sendCtr_ports (m : CtrMsg) : (s.sendCtr m).ports = s.ports := rfl
@[simp] theorem State.sendCtr_host (m : CtrMsg) : (s.sendCtr m).host = s.host := rfl
@[simp] theorem State.sendCtr_rotations (m : CtrMsg) : (s.sendCtr m).rotations = s.rotations := rfl
@[simp] theorem State.sendCtr_stepPhase (m : CtrMsg) : (s.sendCtr m).stepPhase = s.stepPhase := rfl
@[simp] theorem State.sendCtr_rotReq (m : CtrMsg) : (s.sendCtr m).rotReq = s.rotReq := rfl
@[simp] theorem State.sendCtr_cooldown (m : CtrMsg) : (s.sendCtr m).cooldown = s.cooldown := rfl
@[simp] theorem State.sendCtr_tapers (m : CtrMsg) : (s.sendCtr m).tapers = s.tapers := rfl
@[simp] theorem State.sendCtr_svc (m : CtrMsg) : (s.sendCtr m).svc = s.svc := rfl
@[simp] theorem State.sendCtr_links (m : CtrMsg) : (s.sendCtr m).links = s.links := rfl
@[simp] theorem State.sendCtr_clerk (m : CtrMsg) : (s.sendCtr m).clerk = s.clerk := rfl
@[simp] theorem State.sendCtr_flash (m : CtrMsg) : (s.sendCtr m).flash = s.flash := rfl
@[simp] theorem State.sendCtr_power (m : CtrMsg) : (s.sendCtr m).power = s.power := rfl

/-! ### mark -/

@[simp] theorem State.mark_pending (i : Fin 8) : (s.mark i).pending = s.pending := rfl
@[simp] theorem State.mark_fresh (i : Fin 8) : (s.mark i).fresh = s.fresh := rfl
@[simp] theorem State.mark_irqs (i : Fin 8) : (s.mark i).irqs = s.irqs := rfl
@[simp] theorem State.mark_fuses (i : Fin 8) : (s.mark i).fuses = s.fuses := rfl
@[simp] theorem State.mark_cores (i : Fin 8) : (s.mark i).cores = s.cores := rfl
@[simp] theorem State.mark_dies (i : Fin 8) : (s.mark i).dies = s.dies := rfl
@[simp] theorem State.mark_fabs (i : Fin 8) : (s.mark i).fabs = s.fabs := rfl
@[simp] theorem State.mark_msgs (i : Fin 8) : (s.mark i).msgs = s.msgs := rfl
@[simp] theorem State.mark_mem (i : Fin 8) : (s.mark i).mem = s.mem := rfl
@[simp] theorem State.mark_bibs (i : Fin 8) : (s.mark i).bibs = s.bibs := rfl
@[simp] theorem State.mark_fills (i : Fin 8) : (s.mark i).fills = s.fills := rfl
@[simp] theorem State.mark_poison (i : Fin 8) : (s.mark i).poison = s.poison := rfl
@[simp] theorem State.mark_frames (i : Fin 8) : (s.mark i).frames = s.frames := rfl
@[simp] theorem State.mark_shelf (i : Fin 8) : (s.mark i).shelf = s.shelf := rfl
@[simp] theorem State.mark_hbms (i : Fin 8) : (s.mark i).hbms = s.hbms := rfl
@[simp] theorem State.mark_handles (i : Fin 8) : (s.mark i).handles = s.handles := rfl
@[simp] theorem State.mark_rings (i : Fin 8) : (s.mark i).rings = s.rings := rfl
@[simp] theorem State.mark_runnels (i : Fin 8) : (s.mark i).runnels = s.runnels := rfl
@[simp] theorem State.mark_hostMem (i : Fin 8) : (s.mark i).hostMem = s.hostMem := rfl
@[simp] theorem State.mark_queues (i : Fin 8) : (s.mark i).queues = s.queues := rfl
@[simp] theorem State.mark_ready (i : Fin 8) : (s.mark i).ready = s.ready := rfl
@[simp] theorem State.mark_active (i : Fin 8) : (s.mark i).active = s.active := rfl
@[simp] theorem State.mark_events (i : Fin 8) : (s.mark i).events = s.events := rfl
@[simp] theorem State.mark_stepCtr (i : Fin 8) : (s.mark i).stepCtr = s.stepCtr := rfl
@[simp] theorem State.mark_skips (i : Fin 8) : (s.mark i).skips = s.skips := rfl
@[simp] theorem State.mark_guard (i : Fin 8) : (s.mark i).guard = s.guard := rfl
@[simp] theorem State.mark_baton (i : Fin 8) : (s.mark i).baton = s.baton := rfl
@[simp] theorem State.mark_dxt (i : Fin 8) : (s.mark i).dxt = s.dxt := rfl
@[simp] theorem State.mark_ports (i : Fin 8) : (s.mark i).ports = s.ports := rfl
@[simp] theorem State.mark_host (i : Fin 8) : (s.mark i).host = s.host := rfl
@[simp] theorem State.mark_rotations (i : Fin 8) : (s.mark i).rotations = s.rotations := rfl
@[simp] theorem State.mark_stepPhase (i : Fin 8) : (s.mark i).stepPhase = s.stepPhase := rfl
@[simp] theorem State.mark_rotReq (i : Fin 8) : (s.mark i).rotReq = s.rotReq := rfl
@[simp] theorem State.mark_cooldown (i : Fin 8) : (s.mark i).cooldown = s.cooldown := rfl
@[simp] theorem State.mark_tapers (i : Fin 8) : (s.mark i).tapers = s.tapers := rfl
@[simp] theorem State.mark_links (i : Fin 8) : (s.mark i).links = s.links := rfl
@[simp] theorem State.mark_clerk (i : Fin 8) : (s.mark i).clerk = s.clerk := rfl
@[simp] theorem State.mark_flash (i : Fin 8) : (s.mark i).flash = s.flash := rfl
@[simp] theorem State.mark_power (i : Fin 8) : (s.mark i).power = s.power := rfl

/-! ### updPCore -/

@[simp] theorem State.updPCore_pending (d : DieId) (p : PCoreNo) (f : PCore → PCore) : (s.updPCore d p f).pending = s.pending := rfl
@[simp] theorem State.updPCore_fresh (d : DieId) (p : PCoreNo) (f : PCore → PCore) : (s.updPCore d p f).fresh = s.fresh := rfl
@[simp] theorem State.updPCore_irqs (d : DieId) (p : PCoreNo) (f : PCore → PCore) : (s.updPCore d p f).irqs = s.irqs := rfl
@[simp] theorem State.updPCore_fuses (d : DieId) (p : PCoreNo) (f : PCore → PCore) : (s.updPCore d p f).fuses = s.fuses := rfl
@[simp] theorem State.updPCore_cores (d : DieId) (p : PCoreNo) (f : PCore → PCore) : (s.updPCore d p f).cores = s.cores := rfl
@[simp] theorem State.updPCore_fabs (d : DieId) (p : PCoreNo) (f : PCore → PCore) : (s.updPCore d p f).fabs = s.fabs := rfl
@[simp] theorem State.updPCore_msgs (d : DieId) (p : PCoreNo) (f : PCore → PCore) : (s.updPCore d p f).msgs = s.msgs := rfl
@[simp] theorem State.updPCore_mem (d : DieId) (p : PCoreNo) (f : PCore → PCore) : (s.updPCore d p f).mem = s.mem := rfl
@[simp] theorem State.updPCore_bibs (d : DieId) (p : PCoreNo) (f : PCore → PCore) : (s.updPCore d p f).bibs = s.bibs := rfl
@[simp] theorem State.updPCore_fills (d : DieId) (p : PCoreNo) (f : PCore → PCore) : (s.updPCore d p f).fills = s.fills := rfl
@[simp] theorem State.updPCore_poison (d : DieId) (p : PCoreNo) (f : PCore → PCore) : (s.updPCore d p f).poison = s.poison := rfl
@[simp] theorem State.updPCore_frames (d : DieId) (p : PCoreNo) (f : PCore → PCore) : (s.updPCore d p f).frames = s.frames := rfl
@[simp] theorem State.updPCore_shelf (d : DieId) (p : PCoreNo) (f : PCore → PCore) : (s.updPCore d p f).shelf = s.shelf := rfl
@[simp] theorem State.updPCore_hbms (d : DieId) (p : PCoreNo) (f : PCore → PCore) : (s.updPCore d p f).hbms = s.hbms := rfl
@[simp] theorem State.updPCore_handles (d : DieId) (p : PCoreNo) (f : PCore → PCore) : (s.updPCore d p f).handles = s.handles := rfl
@[simp] theorem State.updPCore_rings (d : DieId) (p : PCoreNo) (f : PCore → PCore) : (s.updPCore d p f).rings = s.rings := rfl
@[simp] theorem State.updPCore_runnels (d : DieId) (p : PCoreNo) (f : PCore → PCore) : (s.updPCore d p f).runnels = s.runnels := rfl
@[simp] theorem State.updPCore_hostMem (d : DieId) (p : PCoreNo) (f : PCore → PCore) : (s.updPCore d p f).hostMem = s.hostMem := rfl
@[simp] theorem State.updPCore_queues (d : DieId) (p : PCoreNo) (f : PCore → PCore) : (s.updPCore d p f).queues = s.queues := rfl
@[simp] theorem State.updPCore_ready (d : DieId) (p : PCoreNo) (f : PCore → PCore) : (s.updPCore d p f).ready = s.ready := rfl
@[simp] theorem State.updPCore_active (d : DieId) (p : PCoreNo) (f : PCore → PCore) : (s.updPCore d p f).active = s.active := rfl
@[simp] theorem State.updPCore_events (d : DieId) (p : PCoreNo) (f : PCore → PCore) : (s.updPCore d p f).events = s.events := rfl
@[simp] theorem State.updPCore_stepCtr (d : DieId) (p : PCoreNo) (f : PCore → PCore) : (s.updPCore d p f).stepCtr = s.stepCtr := rfl
@[simp] theorem State.updPCore_skips (d : DieId) (p : PCoreNo) (f : PCore → PCore) : (s.updPCore d p f).skips = s.skips := rfl
@[simp] theorem State.updPCore_guard (d : DieId) (p : PCoreNo) (f : PCore → PCore) : (s.updPCore d p f).guard = s.guard := rfl
@[simp] theorem State.updPCore_baton (d : DieId) (p : PCoreNo) (f : PCore → PCore) : (s.updPCore d p f).baton = s.baton := rfl
@[simp] theorem State.updPCore_dxt (d : DieId) (p : PCoreNo) (f : PCore → PCore) : (s.updPCore d p f).dxt = s.dxt := rfl
@[simp] theorem State.updPCore_ports (d : DieId) (p : PCoreNo) (f : PCore → PCore) : (s.updPCore d p f).ports = s.ports := rfl
@[simp] theorem State.updPCore_host (d : DieId) (p : PCoreNo) (f : PCore → PCore) : (s.updPCore d p f).host = s.host := rfl
@[simp] theorem State.updPCore_rotations (d : DieId) (p : PCoreNo) (f : PCore → PCore) : (s.updPCore d p f).rotations = s.rotations := rfl
@[simp] theorem State.updPCore_stepPhase (d : DieId) (p : PCoreNo) (f : PCore → PCore) : (s.updPCore d p f).stepPhase = s.stepPhase := rfl
@[simp] theorem State.updPCore_rotReq (d : DieId) (p : PCoreNo) (f : PCore → PCore) : (s.updPCore d p f).rotReq = s.rotReq := rfl
@[simp] theorem State.updPCore_cooldown (d : DieId) (p : PCoreNo) (f : PCore → PCore) : (s.updPCore d p f).cooldown = s.cooldown := rfl
@[simp] theorem State.updPCore_tapers (d : DieId) (p : PCoreNo) (f : PCore → PCore) : (s.updPCore d p f).tapers = s.tapers := rfl
@[simp] theorem State.updPCore_svc (d : DieId) (p : PCoreNo) (f : PCore → PCore) : (s.updPCore d p f).svc = s.svc := rfl
@[simp] theorem State.updPCore_links (d : DieId) (p : PCoreNo) (f : PCore → PCore) : (s.updPCore d p f).links = s.links := rfl
@[simp] theorem State.updPCore_clerk (d : DieId) (p : PCoreNo) (f : PCore → PCore) : (s.updPCore d p f).clerk = s.clerk := rfl
@[simp] theorem State.updPCore_flash (d : DieId) (p : PCoreNo) (f : PCore → PCore) : (s.updPCore d p f).flash = s.flash := rfl
@[simp] theorem State.updPCore_power (d : DieId) (p : PCoreNo) (f : PCore → PCore) : (s.updPCore d p f).power = s.power := rfl

/-! ### updBar -/

@[simp] theorem State.updBar_pending (d : DieId) (j : Fin 16) (f : BarCtx → BarCtx) : (s.updBar d j f).pending = s.pending := rfl
@[simp] theorem State.updBar_fresh (d : DieId) (j : Fin 16) (f : BarCtx → BarCtx) : (s.updBar d j f).fresh = s.fresh := rfl
@[simp] theorem State.updBar_irqs (d : DieId) (j : Fin 16) (f : BarCtx → BarCtx) : (s.updBar d j f).irqs = s.irqs := rfl
@[simp] theorem State.updBar_fuses (d : DieId) (j : Fin 16) (f : BarCtx → BarCtx) : (s.updBar d j f).fuses = s.fuses := rfl
@[simp] theorem State.updBar_cores (d : DieId) (j : Fin 16) (f : BarCtx → BarCtx) : (s.updBar d j f).cores = s.cores := rfl
@[simp] theorem State.updBar_fabs (d : DieId) (j : Fin 16) (f : BarCtx → BarCtx) : (s.updBar d j f).fabs = s.fabs := rfl
@[simp] theorem State.updBar_msgs (d : DieId) (j : Fin 16) (f : BarCtx → BarCtx) : (s.updBar d j f).msgs = s.msgs := rfl
@[simp] theorem State.updBar_mem (d : DieId) (j : Fin 16) (f : BarCtx → BarCtx) : (s.updBar d j f).mem = s.mem := rfl
@[simp] theorem State.updBar_bibs (d : DieId) (j : Fin 16) (f : BarCtx → BarCtx) : (s.updBar d j f).bibs = s.bibs := rfl
@[simp] theorem State.updBar_fills (d : DieId) (j : Fin 16) (f : BarCtx → BarCtx) : (s.updBar d j f).fills = s.fills := rfl
@[simp] theorem State.updBar_poison (d : DieId) (j : Fin 16) (f : BarCtx → BarCtx) : (s.updBar d j f).poison = s.poison := rfl
@[simp] theorem State.updBar_frames (d : DieId) (j : Fin 16) (f : BarCtx → BarCtx) : (s.updBar d j f).frames = s.frames := rfl
@[simp] theorem State.updBar_shelf (d : DieId) (j : Fin 16) (f : BarCtx → BarCtx) : (s.updBar d j f).shelf = s.shelf := rfl
@[simp] theorem State.updBar_hbms (d : DieId) (j : Fin 16) (f : BarCtx → BarCtx) : (s.updBar d j f).hbms = s.hbms := rfl
@[simp] theorem State.updBar_handles (d : DieId) (j : Fin 16) (f : BarCtx → BarCtx) : (s.updBar d j f).handles = s.handles := rfl
@[simp] theorem State.updBar_rings (d : DieId) (j : Fin 16) (f : BarCtx → BarCtx) : (s.updBar d j f).rings = s.rings := rfl
@[simp] theorem State.updBar_runnels (d : DieId) (j : Fin 16) (f : BarCtx → BarCtx) : (s.updBar d j f).runnels = s.runnels := rfl
@[simp] theorem State.updBar_hostMem (d : DieId) (j : Fin 16) (f : BarCtx → BarCtx) : (s.updBar d j f).hostMem = s.hostMem := rfl
@[simp] theorem State.updBar_queues (d : DieId) (j : Fin 16) (f : BarCtx → BarCtx) : (s.updBar d j f).queues = s.queues := rfl
@[simp] theorem State.updBar_ready (d : DieId) (j : Fin 16) (f : BarCtx → BarCtx) : (s.updBar d j f).ready = s.ready := rfl
@[simp] theorem State.updBar_active (d : DieId) (j : Fin 16) (f : BarCtx → BarCtx) : (s.updBar d j f).active = s.active := rfl
@[simp] theorem State.updBar_events (d : DieId) (j : Fin 16) (f : BarCtx → BarCtx) : (s.updBar d j f).events = s.events := rfl
@[simp] theorem State.updBar_stepCtr (d : DieId) (j : Fin 16) (f : BarCtx → BarCtx) : (s.updBar d j f).stepCtr = s.stepCtr := rfl
@[simp] theorem State.updBar_skips (d : DieId) (j : Fin 16) (f : BarCtx → BarCtx) : (s.updBar d j f).skips = s.skips := rfl
@[simp] theorem State.updBar_guard (d : DieId) (j : Fin 16) (f : BarCtx → BarCtx) : (s.updBar d j f).guard = s.guard := rfl
@[simp] theorem State.updBar_baton (d : DieId) (j : Fin 16) (f : BarCtx → BarCtx) : (s.updBar d j f).baton = s.baton := rfl
@[simp] theorem State.updBar_dxt (d : DieId) (j : Fin 16) (f : BarCtx → BarCtx) : (s.updBar d j f).dxt = s.dxt := rfl
@[simp] theorem State.updBar_ports (d : DieId) (j : Fin 16) (f : BarCtx → BarCtx) : (s.updBar d j f).ports = s.ports := rfl
@[simp] theorem State.updBar_host (d : DieId) (j : Fin 16) (f : BarCtx → BarCtx) : (s.updBar d j f).host = s.host := rfl
@[simp] theorem State.updBar_rotations (d : DieId) (j : Fin 16) (f : BarCtx → BarCtx) : (s.updBar d j f).rotations = s.rotations := rfl
@[simp] theorem State.updBar_stepPhase (d : DieId) (j : Fin 16) (f : BarCtx → BarCtx) : (s.updBar d j f).stepPhase = s.stepPhase := rfl
@[simp] theorem State.updBar_rotReq (d : DieId) (j : Fin 16) (f : BarCtx → BarCtx) : (s.updBar d j f).rotReq = s.rotReq := rfl
@[simp] theorem State.updBar_cooldown (d : DieId) (j : Fin 16) (f : BarCtx → BarCtx) : (s.updBar d j f).cooldown = s.cooldown := rfl
@[simp] theorem State.updBar_tapers (d : DieId) (j : Fin 16) (f : BarCtx → BarCtx) : (s.updBar d j f).tapers = s.tapers := rfl
@[simp] theorem State.updBar_svc (d : DieId) (j : Fin 16) (f : BarCtx → BarCtx) : (s.updBar d j f).svc = s.svc := rfl
@[simp] theorem State.updBar_links (d : DieId) (j : Fin 16) (f : BarCtx → BarCtx) : (s.updBar d j f).links = s.links := rfl
@[simp] theorem State.updBar_clerk (d : DieId) (j : Fin 16) (f : BarCtx → BarCtx) : (s.updBar d j f).clerk = s.clerk := rfl
@[simp] theorem State.updBar_flash (d : DieId) (j : Fin 16) (f : BarCtx → BarCtx) : (s.updBar d j f).flash = s.flash := rfl
@[simp] theorem State.updBar_power (d : DieId) (j : Fin 16) (f : BarCtx → BarCtx) : (s.updBar d j f).power = s.power := rfl

/-! ### sendNotes -/

@[simp] theorem State.sendNotes_pending (src : Nat) (l : List (CoreId × Fin 16 × Nat)) : (s.sendNotes src l).pending = s.pending := rfl
@[simp] theorem State.sendNotes_fresh (src : Nat) (l : List (CoreId × Fin 16 × Nat)) : (s.sendNotes src l).fresh = s.fresh := rfl
@[simp] theorem State.sendNotes_irqs (src : Nat) (l : List (CoreId × Fin 16 × Nat)) : (s.sendNotes src l).irqs = s.irqs := rfl
@[simp] theorem State.sendNotes_fuses (src : Nat) (l : List (CoreId × Fin 16 × Nat)) : (s.sendNotes src l).fuses = s.fuses := rfl
@[simp] theorem State.sendNotes_cores (src : Nat) (l : List (CoreId × Fin 16 × Nat)) : (s.sendNotes src l).cores = s.cores := rfl
@[simp] theorem State.sendNotes_dies (src : Nat) (l : List (CoreId × Fin 16 × Nat)) : (s.sendNotes src l).dies = s.dies := rfl
@[simp] theorem State.sendNotes_fabs (src : Nat) (l : List (CoreId × Fin 16 × Nat)) : (s.sendNotes src l).fabs = s.fabs := rfl
@[simp] theorem State.sendNotes_mem (src : Nat) (l : List (CoreId × Fin 16 × Nat)) : (s.sendNotes src l).mem = s.mem := rfl
@[simp] theorem State.sendNotes_bibs (src : Nat) (l : List (CoreId × Fin 16 × Nat)) : (s.sendNotes src l).bibs = s.bibs := rfl
@[simp] theorem State.sendNotes_fills (src : Nat) (l : List (CoreId × Fin 16 × Nat)) : (s.sendNotes src l).fills = s.fills := rfl
@[simp] theorem State.sendNotes_poison (src : Nat) (l : List (CoreId × Fin 16 × Nat)) : (s.sendNotes src l).poison = s.poison := rfl
@[simp] theorem State.sendNotes_frames (src : Nat) (l : List (CoreId × Fin 16 × Nat)) : (s.sendNotes src l).frames = s.frames := rfl
@[simp] theorem State.sendNotes_shelf (src : Nat) (l : List (CoreId × Fin 16 × Nat)) : (s.sendNotes src l).shelf = s.shelf := rfl
@[simp] theorem State.sendNotes_hbms (src : Nat) (l : List (CoreId × Fin 16 × Nat)) : (s.sendNotes src l).hbms = s.hbms := rfl
@[simp] theorem State.sendNotes_handles (src : Nat) (l : List (CoreId × Fin 16 × Nat)) : (s.sendNotes src l).handles = s.handles := rfl
@[simp] theorem State.sendNotes_rings (src : Nat) (l : List (CoreId × Fin 16 × Nat)) : (s.sendNotes src l).rings = s.rings := rfl
@[simp] theorem State.sendNotes_runnels (src : Nat) (l : List (CoreId × Fin 16 × Nat)) : (s.sendNotes src l).runnels = s.runnels := rfl
@[simp] theorem State.sendNotes_hostMem (src : Nat) (l : List (CoreId × Fin 16 × Nat)) : (s.sendNotes src l).hostMem = s.hostMem := rfl
@[simp] theorem State.sendNotes_queues (src : Nat) (l : List (CoreId × Fin 16 × Nat)) : (s.sendNotes src l).queues = s.queues := rfl
@[simp] theorem State.sendNotes_ready (src : Nat) (l : List (CoreId × Fin 16 × Nat)) : (s.sendNotes src l).ready = s.ready := rfl
@[simp] theorem State.sendNotes_active (src : Nat) (l : List (CoreId × Fin 16 × Nat)) : (s.sendNotes src l).active = s.active := rfl
@[simp] theorem State.sendNotes_events (src : Nat) (l : List (CoreId × Fin 16 × Nat)) : (s.sendNotes src l).events = s.events := rfl
@[simp] theorem State.sendNotes_stepCtr (src : Nat) (l : List (CoreId × Fin 16 × Nat)) : (s.sendNotes src l).stepCtr = s.stepCtr := rfl
@[simp] theorem State.sendNotes_skips (src : Nat) (l : List (CoreId × Fin 16 × Nat)) : (s.sendNotes src l).skips = s.skips := rfl
@[simp] theorem State.sendNotes_guard (src : Nat) (l : List (CoreId × Fin 16 × Nat)) : (s.sendNotes src l).guard = s.guard := rfl
@[simp] theorem State.sendNotes_baton (src : Nat) (l : List (CoreId × Fin 16 × Nat)) : (s.sendNotes src l).baton = s.baton := rfl
@[simp] theorem State.sendNotes_dxt (src : Nat) (l : List (CoreId × Fin 16 × Nat)) : (s.sendNotes src l).dxt = s.dxt := rfl
@[simp] theorem State.sendNotes_ports (src : Nat) (l : List (CoreId × Fin 16 × Nat)) : (s.sendNotes src l).ports = s.ports := rfl
@[simp] theorem State.sendNotes_host (src : Nat) (l : List (CoreId × Fin 16 × Nat)) : (s.sendNotes src l).host = s.host := rfl
@[simp] theorem State.sendNotes_rotations (src : Nat) (l : List (CoreId × Fin 16 × Nat)) : (s.sendNotes src l).rotations = s.rotations := rfl
@[simp] theorem State.sendNotes_stepPhase (src : Nat) (l : List (CoreId × Fin 16 × Nat)) : (s.sendNotes src l).stepPhase = s.stepPhase := rfl
@[simp] theorem State.sendNotes_rotReq (src : Nat) (l : List (CoreId × Fin 16 × Nat)) : (s.sendNotes src l).rotReq = s.rotReq := rfl
@[simp] theorem State.sendNotes_cooldown (src : Nat) (l : List (CoreId × Fin 16 × Nat)) : (s.sendNotes src l).cooldown = s.cooldown := rfl
@[simp] theorem State.sendNotes_tapers (src : Nat) (l : List (CoreId × Fin 16 × Nat)) : (s.sendNotes src l).tapers = s.tapers := rfl
@[simp] theorem State.sendNotes_svc (src : Nat) (l : List (CoreId × Fin 16 × Nat)) : (s.sendNotes src l).svc = s.svc := rfl
@[simp] theorem State.sendNotes_links (src : Nat) (l : List (CoreId × Fin 16 × Nat)) : (s.sendNotes src l).links = s.links := rfl
@[simp] theorem State.sendNotes_clerk (src : Nat) (l : List (CoreId × Fin 16 × Nat)) : (s.sendNotes src l).clerk = s.clerk := rfl
@[simp] theorem State.sendNotes_flash (src : Nat) (l : List (CoreId × Fin 16 × Nat)) : (s.sendNotes src l).flash = s.flash := rfl
@[simp] theorem State.sendNotes_power (src : Nat) (l : List (CoreId × Fin 16 × Nat)) : (s.sendNotes src l).power = s.power := rfl

/-! ### updStack -/

@[simp] theorem State.updStack_pending (st : StackId) (f : Stack → Stack) : (s.updStack st f).pending = s.pending := rfl
@[simp] theorem State.updStack_fresh (st : StackId) (f : Stack → Stack) : (s.updStack st f).fresh = s.fresh := rfl
@[simp] theorem State.updStack_irqs (st : StackId) (f : Stack → Stack) : (s.updStack st f).irqs = s.irqs := rfl
@[simp] theorem State.updStack_fuses (st : StackId) (f : Stack → Stack) : (s.updStack st f).fuses = s.fuses := rfl
@[simp] theorem State.updStack_cores (st : StackId) (f : Stack → Stack) : (s.updStack st f).cores = s.cores := rfl
@[simp] theorem State.updStack_dies (st : StackId) (f : Stack → Stack) : (s.updStack st f).dies = s.dies := rfl
@[simp] theorem State.updStack_fabs (st : StackId) (f : Stack → Stack) : (s.updStack st f).fabs = s.fabs := rfl
@[simp] theorem State.updStack_msgs (st : StackId) (f : Stack → Stack) : (s.updStack st f).msgs = s.msgs := rfl
@[simp] theorem State.updStack_mem (st : StackId) (f : Stack → Stack) : (s.updStack st f).mem = s.mem := rfl
@[simp] theorem State.updStack_bibs (st : StackId) (f : Stack → Stack) : (s.updStack st f).bibs = s.bibs := rfl
@[simp] theorem State.updStack_fills (st : StackId) (f : Stack → Stack) : (s.updStack st f).fills = s.fills := rfl
@[simp] theorem State.updStack_poison (st : StackId) (f : Stack → Stack) : (s.updStack st f).poison = s.poison := rfl
@[simp] theorem State.updStack_frames (st : StackId) (f : Stack → Stack) : (s.updStack st f).frames = s.frames := rfl
@[simp] theorem State.updStack_shelf (st : StackId) (f : Stack → Stack) : (s.updStack st f).shelf = s.shelf := rfl
@[simp] theorem State.updStack_hbms (st : StackId) (f : Stack → Stack) : (s.updStack st f).hbms = vupd s.hbms st f := rfl
@[simp] theorem State.updStack_handles (st : StackId) (f : Stack → Stack) : (s.updStack st f).handles = s.handles := rfl
@[simp] theorem State.updStack_rings (st : StackId) (f : Stack → Stack) : (s.updStack st f).rings = s.rings := rfl
@[simp] theorem State.updStack_runnels (st : StackId) (f : Stack → Stack) : (s.updStack st f).runnels = s.runnels := rfl
@[simp] theorem State.updStack_hostMem (st : StackId) (f : Stack → Stack) : (s.updStack st f).hostMem = s.hostMem := rfl
@[simp] theorem State.updStack_queues (st : StackId) (f : Stack → Stack) : (s.updStack st f).queues = s.queues := rfl
@[simp] theorem State.updStack_ready (st : StackId) (f : Stack → Stack) : (s.updStack st f).ready = s.ready := rfl
@[simp] theorem State.updStack_active (st : StackId) (f : Stack → Stack) : (s.updStack st f).active = s.active := rfl
@[simp] theorem State.updStack_events (st : StackId) (f : Stack → Stack) : (s.updStack st f).events = s.events := rfl
@[simp] theorem State.updStack_stepCtr (st : StackId) (f : Stack → Stack) : (s.updStack st f).stepCtr = s.stepCtr := rfl
@[simp] theorem State.updStack_skips (st : StackId) (f : Stack → Stack) : (s.updStack st f).skips = s.skips := rfl
@[simp] theorem State.updStack_guard (st : StackId) (f : Stack → Stack) : (s.updStack st f).guard = s.guard := rfl
@[simp] theorem State.updStack_baton (st : StackId) (f : Stack → Stack) : (s.updStack st f).baton = s.baton := rfl
@[simp] theorem State.updStack_dxt (st : StackId) (f : Stack → Stack) : (s.updStack st f).dxt = s.dxt := rfl
@[simp] theorem State.updStack_ports (st : StackId) (f : Stack → Stack) : (s.updStack st f).ports = s.ports := rfl
@[simp] theorem State.updStack_host (st : StackId) (f : Stack → Stack) : (s.updStack st f).host = s.host := rfl
@[simp] theorem State.updStack_rotations (st : StackId) (f : Stack → Stack) : (s.updStack st f).rotations = s.rotations := rfl
@[simp] theorem State.updStack_stepPhase (st : StackId) (f : Stack → Stack) : (s.updStack st f).stepPhase = s.stepPhase := rfl
@[simp] theorem State.updStack_rotReq (st : StackId) (f : Stack → Stack) : (s.updStack st f).rotReq = s.rotReq := rfl
@[simp] theorem State.updStack_cooldown (st : StackId) (f : Stack → Stack) : (s.updStack st f).cooldown = s.cooldown := rfl
@[simp] theorem State.updStack_tapers (st : StackId) (f : Stack → Stack) : (s.updStack st f).tapers = s.tapers := rfl
@[simp] theorem State.updStack_svc (st : StackId) (f : Stack → Stack) : (s.updStack st f).svc = s.svc := rfl
@[simp] theorem State.updStack_links (st : StackId) (f : Stack → Stack) : (s.updStack st f).links = s.links := rfl
@[simp] theorem State.updStack_clerk (st : StackId) (f : Stack → Stack) : (s.updStack st f).clerk = s.clerk := rfl
@[simp] theorem State.updStack_flash (st : StackId) (f : Stack → Stack) : (s.updStack st f).flash = s.flash := rfl
@[simp] theorem State.updStack_power (st : StackId) (f : Stack → Stack) : (s.updStack st f).power = s.power := rfl

/-! ### setPoison -/

@[simp] theorem State.setPoison_pending (b : Nat) : (s.setPoison b).pending = s.pending := rfl
@[simp] theorem State.setPoison_fresh (b : Nat) : (s.setPoison b).fresh = s.fresh := rfl
@[simp] theorem State.setPoison_irqs (b : Nat) : (s.setPoison b).irqs = s.irqs := rfl
@[simp] theorem State.setPoison_fuses (b : Nat) : (s.setPoison b).fuses = s.fuses := rfl
@[simp] theorem State.setPoison_cores (b : Nat) : (s.setPoison b).cores = s.cores := rfl
@[simp] theorem State.setPoison_dies (b : Nat) : (s.setPoison b).dies = s.dies := rfl
@[simp] theorem State.setPoison_fabs (b : Nat) : (s.setPoison b).fabs = s.fabs := rfl
@[simp] theorem State.setPoison_msgs (b : Nat) : (s.setPoison b).msgs = s.msgs := rfl
@[simp] theorem State.setPoison_mem (b : Nat) : (s.setPoison b).mem = s.mem := rfl
@[simp] theorem State.setPoison_bibs (b : Nat) : (s.setPoison b).bibs = s.bibs := rfl
@[simp] theorem State.setPoison_fills (b : Nat) : (s.setPoison b).fills = s.fills := rfl
@[simp] theorem State.setPoison_poison (b : Nat) : (s.setPoison b).poison = Sparse.put s.poison b () := rfl
@[simp] theorem State.setPoison_frames (b : Nat) : (s.setPoison b).frames = s.frames := rfl
@[simp] theorem State.setPoison_shelf (b : Nat) : (s.setPoison b).shelf = s.shelf := rfl
@[simp] theorem State.setPoison_hbms (b : Nat) : (s.setPoison b).hbms = s.hbms := rfl
@[simp] theorem State.setPoison_handles (b : Nat) : (s.setPoison b).handles = s.handles := rfl
@[simp] theorem State.setPoison_rings (b : Nat) : (s.setPoison b).rings = s.rings := rfl
@[simp] theorem State.setPoison_runnels (b : Nat) : (s.setPoison b).runnels = s.runnels := rfl
@[simp] theorem State.setPoison_hostMem (b : Nat) : (s.setPoison b).hostMem = s.hostMem := rfl
@[simp] theorem State.setPoison_queues (b : Nat) : (s.setPoison b).queues = s.queues := rfl
@[simp] theorem State.setPoison_ready (b : Nat) : (s.setPoison b).ready = s.ready := rfl
@[simp] theorem State.setPoison_active (b : Nat) : (s.setPoison b).active = s.active := rfl
@[simp] theorem State.setPoison_events (b : Nat) : (s.setPoison b).events = s.events := rfl
@[simp] theorem State.setPoison_stepCtr (b : Nat) : (s.setPoison b).stepCtr = s.stepCtr := rfl
@[simp] theorem State.setPoison_skips (b : Nat) : (s.setPoison b).skips = s.skips := rfl
@[simp] theorem State.setPoison_guard (b : Nat) : (s.setPoison b).guard = s.guard := rfl
@[simp] theorem State.setPoison_baton (b : Nat) : (s.setPoison b).baton = s.baton := rfl
@[simp] theorem State.setPoison_dxt (b : Nat) : (s.setPoison b).dxt = s.dxt := rfl
@[simp] theorem State.setPoison_ports (b : Nat) : (s.setPoison b).ports = s.ports := rfl
@[simp] theorem State.setPoison_host (b : Nat) : (s.setPoison b).host = s.host := rfl
@[simp] theorem State.setPoison_rotations (b : Nat) : (s.setPoison b).rotations = s.rotations := rfl
@[simp] theorem State.setPoison_stepPhase (b : Nat) : (s.setPoison b).stepPhase = s.stepPhase := rfl
@[simp] theorem State.setPoison_rotReq (b : Nat) : (s.setPoison b).rotReq = s.rotReq := rfl
@[simp] theorem State.setPoison_cooldown (b : Nat) : (s.setPoison b).cooldown = s.cooldown := rfl
@[simp] theorem State.setPoison_tapers (b : Nat) : (s.setPoison b).tapers = s.tapers := rfl
@[simp] theorem State.setPoison_svc (b : Nat) : (s.setPoison b).svc = s.svc := rfl
@[simp] theorem State.setPoison_links (b : Nat) : (s.setPoison b).links = s.links := rfl
@[simp] theorem State.setPoison_clerk (b : Nat) : (s.setPoison b).clerk = s.clerk := rfl
@[simp] theorem State.setPoison_flash (b : Nat) : (s.setPoison b).flash = s.flash := rfl
@[simp] theorem State.setPoison_power (b : Nat) : (s.setPoison b).power = s.power := rfl

/-! ### updDxt -/

@[simp] theorem State.updDxt_pending (f : Dxt → Dxt) : (s.updDxt f).pending = s.pending := rfl
@[simp] theorem State.updDxt_fresh (f : Dxt → Dxt) : (s.updDxt f).fresh = s.fresh := rfl
@[simp] theorem State.updDxt_irqs (f : Dxt → Dxt) : (s.updDxt f).irqs = s.irqs := rfl
@[simp] theorem State.updDxt_fuses (f : Dxt → Dxt) : (s.updDxt f).fuses = s.fuses := rfl
@[simp] theorem State.updDxt_cores (f : Dxt → Dxt) : (s.updDxt f).cores = s.cores := rfl
@[simp] theorem State.updDxt_dies (f : Dxt → Dxt) : (s.updDxt f).dies = s.dies := rfl
@[simp] theorem State.updDxt_fabs (f : Dxt → Dxt) : (s.updDxt f).fabs = s.fabs := rfl
@[simp] theorem State.updDxt_msgs (f : Dxt → Dxt) : (s.updDxt f).msgs = s.msgs := rfl
@[simp] theorem State.updDxt_mem (f : Dxt → Dxt) : (s.updDxt f).mem = s.mem := rfl
@[simp] theorem State.updDxt_bibs (f : Dxt → Dxt) : (s.updDxt f).bibs = s.bibs := rfl
@[simp] theorem State.updDxt_fills (f : Dxt → Dxt) : (s.updDxt f).fills = s.fills := rfl
@[simp] theorem State.updDxt_poison (f : Dxt → Dxt) : (s.updDxt f).poison = s.poison := rfl
@[simp] theorem State.updDxt_frames (f : Dxt → Dxt) : (s.updDxt f).frames = s.frames := rfl
@[simp] theorem State.updDxt_shelf (f : Dxt → Dxt) : (s.updDxt f).shelf = s.shelf := rfl
@[simp] theorem State.updDxt_hbms (f : Dxt → Dxt) : (s.updDxt f).hbms = s.hbms := rfl
@[simp] theorem State.updDxt_handles (f : Dxt → Dxt) : (s.updDxt f).handles = s.handles := rfl
@[simp] theorem State.updDxt_rings (f : Dxt → Dxt) : (s.updDxt f).rings = s.rings := rfl
@[simp] theorem State.updDxt_runnels (f : Dxt → Dxt) : (s.updDxt f).runnels = s.runnels := rfl
@[simp] theorem State.updDxt_hostMem (f : Dxt → Dxt) : (s.updDxt f).hostMem = s.hostMem := rfl
@[simp] theorem State.updDxt_queues (f : Dxt → Dxt) : (s.updDxt f).queues = s.queues := rfl
@[simp] theorem State.updDxt_ready (f : Dxt → Dxt) : (s.updDxt f).ready = s.ready := rfl
@[simp] theorem State.updDxt_active (f : Dxt → Dxt) : (s.updDxt f).active = s.active := rfl
@[simp] theorem State.updDxt_events (f : Dxt → Dxt) : (s.updDxt f).events = s.events := rfl
@[simp] theorem State.updDxt_stepCtr (f : Dxt → Dxt) : (s.updDxt f).stepCtr = s.stepCtr := rfl
@[simp] theorem State.updDxt_skips (f : Dxt → Dxt) : (s.updDxt f).skips = s.skips := rfl
@[simp] theorem State.updDxt_guard (f : Dxt → Dxt) : (s.updDxt f).guard = s.guard := rfl
@[simp] theorem State.updDxt_baton (f : Dxt → Dxt) : (s.updDxt f).baton = s.baton := rfl
@[simp] theorem State.updDxt_dxt (f : Dxt → Dxt) : (s.updDxt f).dxt = f s.dxt := rfl
@[simp] theorem State.updDxt_ports (f : Dxt → Dxt) : (s.updDxt f).ports = s.ports := rfl
@[simp] theorem State.updDxt_host (f : Dxt → Dxt) : (s.updDxt f).host = s.host := rfl
@[simp] theorem State.updDxt_rotations (f : Dxt → Dxt) : (s.updDxt f).rotations = s.rotations := rfl
@[simp] theorem State.updDxt_stepPhase (f : Dxt → Dxt) : (s.updDxt f).stepPhase = s.stepPhase := rfl
@[simp] theorem State.updDxt_rotReq (f : Dxt → Dxt) : (s.updDxt f).rotReq = s.rotReq := rfl
@[simp] theorem State.updDxt_cooldown (f : Dxt → Dxt) : (s.updDxt f).cooldown = s.cooldown := rfl
@[simp] theorem State.updDxt_tapers (f : Dxt → Dxt) : (s.updDxt f).tapers = s.tapers := rfl
@[simp] theorem State.updDxt_svc (f : Dxt → Dxt) : (s.updDxt f).svc = s.svc := rfl
@[simp] theorem State.updDxt_links (f : Dxt → Dxt) : (s.updDxt f).links = s.links := rfl
@[simp] theorem State.updDxt_clerk (f : Dxt → Dxt) : (s.updDxt f).clerk = s.clerk := rfl
@[simp] theorem State.updDxt_flash (f : Dxt → Dxt) : (s.updDxt f).flash = s.flash := rfl
@[simp] theorem State.updDxt_power (f : Dxt → Dxt) : (s.updDxt f).power = s.power := rfl

/-! ### putWire -/

@[simp] theorem State.putWire_pending (num : Nat) (w : Wire) : (s.putWire num w).pending = s.pending := rfl
@[simp] theorem State.putWire_fresh (num : Nat) (w : Wire) : (s.putWire num w).fresh = s.fresh := rfl
@[simp] theorem State.putWire_irqs (num : Nat) (w : Wire) : (s.putWire num w).irqs = s.irqs := rfl
@[simp] theorem State.putWire_fuses (num : Nat) (w : Wire) : (s.putWire num w).fuses = s.fuses := rfl
@[simp] theorem State.putWire_cores (num : Nat) (w : Wire) : (s.putWire num w).cores = s.cores := rfl
@[simp] theorem State.putWire_dies (num : Nat) (w : Wire) : (s.putWire num w).dies = s.dies := rfl
@[simp] theorem State.putWire_fabs (num : Nat) (w : Wire) : (s.putWire num w).fabs = s.fabs := rfl
@[simp] theorem State.putWire_msgs (num : Nat) (w : Wire) : (s.putWire num w).msgs = s.msgs := rfl
@[simp] theorem State.putWire_mem (num : Nat) (w : Wire) : (s.putWire num w).mem = s.mem := rfl
@[simp] theorem State.putWire_bibs (num : Nat) (w : Wire) : (s.putWire num w).bibs = s.bibs := rfl
@[simp] theorem State.putWire_fills (num : Nat) (w : Wire) : (s.putWire num w).fills = s.fills := rfl
@[simp] theorem State.putWire_poison (num : Nat) (w : Wire) : (s.putWire num w).poison = s.poison := rfl
@[simp] theorem State.putWire_frames (num : Nat) (w : Wire) : (s.putWire num w).frames = s.frames := rfl
@[simp] theorem State.putWire_shelf (num : Nat) (w : Wire) : (s.putWire num w).shelf = s.shelf := rfl
@[simp] theorem State.putWire_hbms (num : Nat) (w : Wire) : (s.putWire num w).hbms = s.hbms := rfl
@[simp] theorem State.putWire_handles (num : Nat) (w : Wire) : (s.putWire num w).handles = s.handles := rfl
@[simp] theorem State.putWire_rings (num : Nat) (w : Wire) : (s.putWire num w).rings = s.rings := rfl
@[simp] theorem State.putWire_runnels (num : Nat) (w : Wire) : (s.putWire num w).runnels = s.runnels := rfl
@[simp] theorem State.putWire_hostMem (num : Nat) (w : Wire) : (s.putWire num w).hostMem = s.hostMem := rfl
@[simp] theorem State.putWire_queues (num : Nat) (w : Wire) : (s.putWire num w).queues = s.queues := rfl
@[simp] theorem State.putWire_ready (num : Nat) (w : Wire) : (s.putWire num w).ready = s.ready := rfl
@[simp] theorem State.putWire_active (num : Nat) (w : Wire) : (s.putWire num w).active = s.active := rfl
@[simp] theorem State.putWire_events (num : Nat) (w : Wire) : (s.putWire num w).events = s.events := rfl
@[simp] theorem State.putWire_stepCtr (num : Nat) (w : Wire) : (s.putWire num w).stepCtr = s.stepCtr := rfl
@[simp] theorem State.putWire_skips (num : Nat) (w : Wire) : (s.putWire num w).skips = s.skips := rfl
@[simp] theorem State.putWire_guard (num : Nat) (w : Wire) : (s.putWire num w).guard = s.guard := rfl
@[simp] theorem State.putWire_baton (num : Nat) (w : Wire) : (s.putWire num w).baton = s.baton := rfl
@[simp] theorem State.putWire_ports (num : Nat) (w : Wire) : (s.putWire num w).ports = s.ports := rfl
@[simp] theorem State.putWire_host (num : Nat) (w : Wire) : (s.putWire num w).host = s.host := rfl
@[simp] theorem State.putWire_rotations (num : Nat) (w : Wire) : (s.putWire num w).rotations = s.rotations := rfl
@[simp] theorem State.putWire_stepPhase (num : Nat) (w : Wire) : (s.putWire num w).stepPhase = s.stepPhase := rfl
@[simp] theorem State.putWire_rotReq (num : Nat) (w : Wire) : (s.putWire num w).rotReq = s.rotReq := rfl
@[simp] theorem State.putWire_cooldown (num : Nat) (w : Wire) : (s.putWire num w).cooldown = s.cooldown := rfl
@[simp] theorem State.putWire_tapers (num : Nat) (w : Wire) : (s.putWire num w).tapers = s.tapers := rfl
@[simp] theorem State.putWire_svc (num : Nat) (w : Wire) : (s.putWire num w).svc = s.svc := rfl
@[simp] theorem State.putWire_links (num : Nat) (w : Wire) : (s.putWire num w).links = s.links := rfl
@[simp] theorem State.putWire_clerk (num : Nat) (w : Wire) : (s.putWire num w).clerk = s.clerk := rfl
@[simp] theorem State.putWire_flash (num : Nat) (w : Wire) : (s.putWire num w).flash = s.flash := rfl
@[simp] theorem State.putWire_power (num : Nat) (w : Wire) : (s.putWire num w).power = s.power := rfl

/-! ### updPort -/

@[simp] theorem State.updPort_pending (p : PortId) (f : Port → Port) : (s.updPort p f).pending = s.pending := rfl
@[simp] theorem State.updPort_fresh (p : PortId) (f : Port → Port) : (s.updPort p f).fresh = s.fresh := rfl
@[simp] theorem State.updPort_irqs (p : PortId) (f : Port → Port) : (s.updPort p f).irqs = s.irqs := rfl
@[simp] theorem State.updPort_fuses (p : PortId) (f : Port → Port) : (s.updPort p f).fuses = s.fuses := rfl
@[simp] theorem State.updPort_cores (p : PortId) (f : Port → Port) : (s.updPort p f).cores = s.cores := rfl
@[simp] theorem State.updPort_dies (p : PortId) (f : Port → Port) : (s.updPort p f).dies = s.dies := rfl
@[simp] theorem State.updPort_fabs (p : PortId) (f : Port → Port) : (s.updPort p f).fabs = s.fabs := rfl
@[simp] theorem State.updPort_msgs (p : PortId) (f : Port → Port) : (s.updPort p f).msgs = s.msgs := rfl
@[simp] theorem State.updPort_mem (p : PortId) (f : Port → Port) : (s.updPort p f).mem = s.mem := rfl
@[simp] theorem State.updPort_bibs (p : PortId) (f : Port → Port) : (s.updPort p f).bibs = s.bibs := rfl
@[simp] theorem State.updPort_fills (p : PortId) (f : Port → Port) : (s.updPort p f).fills = s.fills := rfl
@[simp] theorem State.updPort_poison (p : PortId) (f : Port → Port) : (s.updPort p f).poison = s.poison := rfl
@[simp] theorem State.updPort_frames (p : PortId) (f : Port → Port) : (s.updPort p f).frames = s.frames := rfl
@[simp] theorem State.updPort_shelf (p : PortId) (f : Port → Port) : (s.updPort p f).shelf = s.shelf := rfl
@[simp] theorem State.updPort_hbms (p : PortId) (f : Port → Port) : (s.updPort p f).hbms = s.hbms := rfl
@[simp] theorem State.updPort_handles (p : PortId) (f : Port → Port) : (s.updPort p f).handles = s.handles := rfl
@[simp] theorem State.updPort_rings (p : PortId) (f : Port → Port) : (s.updPort p f).rings = s.rings := rfl
@[simp] theorem State.updPort_runnels (p : PortId) (f : Port → Port) : (s.updPort p f).runnels = s.runnels := rfl
@[simp] theorem State.updPort_hostMem (p : PortId) (f : Port → Port) : (s.updPort p f).hostMem = s.hostMem := rfl
@[simp] theorem State.updPort_queues (p : PortId) (f : Port → Port) : (s.updPort p f).queues = s.queues := rfl
@[simp] theorem State.updPort_ready (p : PortId) (f : Port → Port) : (s.updPort p f).ready = s.ready := rfl
@[simp] theorem State.updPort_active (p : PortId) (f : Port → Port) : (s.updPort p f).active = s.active := rfl
@[simp] theorem State.updPort_events (p : PortId) (f : Port → Port) : (s.updPort p f).events = s.events := rfl
@[simp] theorem State.updPort_stepCtr (p : PortId) (f : Port → Port) : (s.updPort p f).stepCtr = s.stepCtr := rfl
@[simp] theorem State.updPort_skips (p : PortId) (f : Port → Port) : (s.updPort p f).skips = s.skips := rfl
@[simp] theorem State.updPort_guard (p : PortId) (f : Port → Port) : (s.updPort p f).guard = s.guard := rfl
@[simp] theorem State.updPort_baton (p : PortId) (f : Port → Port) : (s.updPort p f).baton = s.baton := rfl
@[simp] theorem State.updPort_dxt (p : PortId) (f : Port → Port) : (s.updPort p f).dxt = s.dxt := rfl
@[simp] theorem State.updPort_ports (p : PortId) (f : Port → Port) : (s.updPort p f).ports = vupd s.ports p f := rfl
@[simp] theorem State.updPort_host (p : PortId) (f : Port → Port) : (s.updPort p f).host = s.host := rfl
@[simp] theorem State.updPort_rotations (p : PortId) (f : Port → Port) : (s.updPort p f).rotations = s.rotations := rfl
@[simp] theorem State.updPort_stepPhase (p : PortId) (f : Port → Port) : (s.updPort p f).stepPhase = s.stepPhase := rfl
@[simp] theorem State.updPort_rotReq (p : PortId) (f : Port → Port) : (s.updPort p f).rotReq = s.rotReq := rfl
@[simp] theorem State.updPort_cooldown (p : PortId) (f : Port → Port) : (s.updPort p f).cooldown = s.cooldown := rfl
@[simp] theorem State.updPort_tapers (p : PortId) (f : Port → Port) : (s.updPort p f).tapers = s.tapers := rfl
@[simp] theorem State.updPort_svc (p : PortId) (f : Port → Port) : (s.updPort p f).svc = s.svc := rfl
@[simp] theorem State.updPort_links (p : PortId) (f : Port → Port) : (s.updPort p f).links = s.links := rfl
@[simp] theorem State.updPort_clerk (p : PortId) (f : Port → Port) : (s.updPort p f).clerk = s.clerk := rfl
@[simp] theorem State.updPort_flash (p : PortId) (f : Port → Port) : (s.updPort p f).flash = s.flash := rfl
@[simp] theorem State.updPort_power (p : PortId) (f : Port → Port) : (s.updPort p f).power = s.power := rfl

/-! ### updLink -/

@[simp] theorem State.updLink_pending (p : DieId) (f : DieLink → DieLink) : (s.updLink p f).pending = s.pending := rfl
@[simp] theorem State.updLink_fresh (p : DieId) (f : DieLink → DieLink) : (s.updLink p f).fresh = s.fresh := rfl
@[simp] theorem State.updLink_irqs (p : DieId) (f : DieLink → DieLink) : (s.updLink p f).irqs = s.irqs := rfl
@[simp] theorem State.updLink_fuses (p : DieId) (f : DieLink → DieLink) : (s.updLink p f).fuses = s.fuses := rfl
@[simp] theorem State.updLink_cores (p : DieId) (f : DieLink → DieLink) : (s.updLink p f).cores = s.cores := rfl
@[simp] theorem State.updLink_dies (p : DieId) (f : DieLink → DieLink) : (s.updLink p f).dies = s.dies := rfl
@[simp] theorem State.updLink_fabs (p : DieId) (f : DieLink → DieLink) : (s.updLink p f).fabs = s.fabs := rfl
@[simp] theorem State.updLink_msgs (p : DieId) (f : DieLink → DieLink) : (s.updLink p f).msgs = s.msgs := rfl
@[simp] theorem State.updLink_mem (p : DieId) (f : DieLink → DieLink) : (s.updLink p f).mem = s.mem := rfl
@[simp] theorem State.updLink_bibs (p : DieId) (f : DieLink → DieLink) : (s.updLink p f).bibs = s.bibs := rfl
@[simp] theorem State.updLink_fills (p : DieId) (f : DieLink → DieLink) : (s.updLink p f).fills = s.fills := rfl
@[simp] theorem State.updLink_poison (p : DieId) (f : DieLink → DieLink) : (s.updLink p f).poison = s.poison := rfl
@[simp] theorem State.updLink_frames (p : DieId) (f : DieLink → DieLink) : (s.updLink p f).frames = s.frames := rfl
@[simp] theorem State.updLink_shelf (p : DieId) (f : DieLink → DieLink) : (s.updLink p f).shelf = s.shelf := rfl
@[simp] theorem State.updLink_hbms (p : DieId) (f : DieLink → DieLink) : (s.updLink p f).hbms = s.hbms := rfl
@[simp] theorem State.updLink_handles (p : DieId) (f : DieLink → DieLink) : (s.updLink p f).handles = s.handles := rfl
@[simp] theorem State.updLink_rings (p : DieId) (f : DieLink → DieLink) : (s.updLink p f).rings = s.rings := rfl
@[simp] theorem State.updLink_runnels (p : DieId) (f : DieLink → DieLink) : (s.updLink p f).runnels = s.runnels := rfl
@[simp] theorem State.updLink_hostMem (p : DieId) (f : DieLink → DieLink) : (s.updLink p f).hostMem = s.hostMem := rfl
@[simp] theorem State.updLink_queues (p : DieId) (f : DieLink → DieLink) : (s.updLink p f).queues = s.queues := rfl
@[simp] theorem State.updLink_ready (p : DieId) (f : DieLink → DieLink) : (s.updLink p f).ready = s.ready := rfl
@[simp] theorem State.updLink_active (p : DieId) (f : DieLink → DieLink) : (s.updLink p f).active = s.active := rfl
@[simp] theorem State.updLink_events (p : DieId) (f : DieLink → DieLink) : (s.updLink p f).events = s.events := rfl
@[simp] theorem State.updLink_stepCtr (p : DieId) (f : DieLink → DieLink) : (s.updLink p f).stepCtr = s.stepCtr := rfl
@[simp] theorem State.updLink_skips (p : DieId) (f : DieLink → DieLink) : (s.updLink p f).skips = s.skips := rfl
@[simp] theorem State.updLink_guard (p : DieId) (f : DieLink → DieLink) : (s.updLink p f).guard = s.guard := rfl
@[simp] theorem State.updLink_baton (p : DieId) (f : DieLink → DieLink) : (s.updLink p f).baton = s.baton := rfl
@[simp] theorem State.updLink_dxt (p : DieId) (f : DieLink → DieLink) : (s.updLink p f).dxt = s.dxt := rfl
@[simp] theorem State.updLink_ports (p : DieId) (f : DieLink → DieLink) : (s.updLink p f).ports = s.ports := rfl
@[simp] theorem State.updLink_host (p : DieId) (f : DieLink → DieLink) : (s.updLink p f).host = s.host := rfl
@[simp] theorem State.updLink_rotations (p : DieId) (f : DieLink → DieLink) : (s.updLink p f).rotations = s.rotations := rfl
@[simp] theorem State.updLink_stepPhase (p : DieId) (f : DieLink → DieLink) : (s.updLink p f).stepPhase = s.stepPhase := rfl
@[simp] theorem State.updLink_rotReq (p : DieId) (f : DieLink → DieLink) : (s.updLink p f).rotReq = s.rotReq := rfl
@[simp] theorem State.updLink_cooldown (p : DieId) (f : DieLink → DieLink) : (s.updLink p f).cooldown = s.cooldown := rfl
@[simp] theorem State.updLink_tapers (p : DieId) (f : DieLink → DieLink) : (s.updLink p f).tapers = s.tapers := rfl
@[simp] theorem State.updLink_svc (p : DieId) (f : DieLink → DieLink) : (s.updLink p f).svc = s.svc := rfl
@[simp] theorem State.updLink_links (p : DieId) (f : DieLink → DieLink) : (s.updLink p f).links = vupd s.links p f := rfl
@[simp] theorem State.updLink_clerk (p : DieId) (f : DieLink → DieLink) : (s.updLink p f).clerk = s.clerk := rfl
@[simp] theorem State.updLink_flash (p : DieId) (f : DieLink → DieLink) : (s.updLink p f).flash = s.flash := rfl
@[simp] theorem State.updLink_power (p : DieId) (f : DieLink → DieLink) : (s.updLink p f).power = s.power := rfl

/-! ### updEnd -/

@[simp] theorem State.updEnd_pending (p : DieId) (e : LinkEnd) (f : LinkPort → LinkPort) : (s.updEnd p e f).pending = s.pending := rfl
@[simp] theorem State.updEnd_fresh (p : DieId) (e : LinkEnd) (f : LinkPort → LinkPort) : (s.updEnd p e f).fresh = s.fresh := rfl
@[simp] theorem State.updEnd_irqs (p : DieId) (e : LinkEnd) (f : LinkPort → LinkPort) : (s.updEnd p e f).irqs = s.irqs := rfl
@[simp] theorem State.updEnd_fuses (p : DieId) (e : LinkEnd) (f : LinkPort → LinkPort) : (s.updEnd p e f).fuses = s.fuses := rfl
@[simp] theorem State.updEnd_cores (p : DieId) (e : LinkEnd) (f : LinkPort → LinkPort) : (s.updEnd p e f).cores = s.cores := rfl
@[simp] theorem State.updEnd_dies (p : DieId) (e : LinkEnd) (f : LinkPort → LinkPort) : (s.updEnd p e f).dies = s.dies := rfl
@[simp] theorem State.updEnd_fabs (p : DieId) (e : LinkEnd) (f : LinkPort → LinkPort) : (s.updEnd p e f).fabs = s.fabs := rfl
@[simp] theorem State.updEnd_msgs (p : DieId) (e : LinkEnd) (f : LinkPort → LinkPort) : (s.updEnd p e f).msgs = s.msgs := rfl
@[simp] theorem State.updEnd_mem (p : DieId) (e : LinkEnd) (f : LinkPort → LinkPort) : (s.updEnd p e f).mem = s.mem := rfl
@[simp] theorem State.updEnd_bibs (p : DieId) (e : LinkEnd) (f : LinkPort → LinkPort) : (s.updEnd p e f).bibs = s.bibs := rfl
@[simp] theorem State.updEnd_fills (p : DieId) (e : LinkEnd) (f : LinkPort → LinkPort) : (s.updEnd p e f).fills = s.fills := rfl
@[simp] theorem State.updEnd_poison (p : DieId) (e : LinkEnd) (f : LinkPort → LinkPort) : (s.updEnd p e f).poison = s.poison := rfl
@[simp] theorem State.updEnd_frames (p : DieId) (e : LinkEnd) (f : LinkPort → LinkPort) : (s.updEnd p e f).frames = s.frames := rfl
@[simp] theorem State.updEnd_shelf (p : DieId) (e : LinkEnd) (f : LinkPort → LinkPort) : (s.updEnd p e f).shelf = s.shelf := rfl
@[simp] theorem State.updEnd_hbms (p : DieId) (e : LinkEnd) (f : LinkPort → LinkPort) : (s.updEnd p e f).hbms = s.hbms := rfl
@[simp] theorem State.updEnd_handles (p : DieId) (e : LinkEnd) (f : LinkPort → LinkPort) : (s.updEnd p e f).handles = s.handles := rfl
@[simp] theorem State.updEnd_rings (p : DieId) (e : LinkEnd) (f : LinkPort → LinkPort) : (s.updEnd p e f).rings = s.rings := rfl
@[simp] theorem State.updEnd_runnels (p : DieId) (e : LinkEnd) (f : LinkPort → LinkPort) : (s.updEnd p e f).runnels = s.runnels := rfl
@[simp] theorem State.updEnd_hostMem (p : DieId) (e : LinkEnd) (f : LinkPort → LinkPort) : (s.updEnd p e f).hostMem = s.hostMem := rfl
@[simp] theorem State.updEnd_queues (p : DieId) (e : LinkEnd) (f : LinkPort → LinkPort) : (s.updEnd p e f).queues = s.queues := rfl
@[simp] theorem State.updEnd_ready (p : DieId) (e : LinkEnd) (f : LinkPort → LinkPort) : (s.updEnd p e f).ready = s.ready := rfl
@[simp] theorem State.updEnd_active (p : DieId) (e : LinkEnd) (f : LinkPort → LinkPort) : (s.updEnd p e f).active = s.active := rfl
@[simp] theorem State.updEnd_events (p : DieId) (e : LinkEnd) (f : LinkPort → LinkPort) : (s.updEnd p e f).events = s.events := rfl
@[simp] theorem State.updEnd_stepCtr (p : DieId) (e : LinkEnd) (f : LinkPort → LinkPort) : (s.updEnd p e f).stepCtr = s.stepCtr := rfl
@[simp] theorem State.updEnd_skips (p : DieId) (e : LinkEnd) (f : LinkPort → LinkPort) : (s.updEnd p e f).skips = s.skips := rfl
@[simp] theorem State.updEnd_guard (p : DieId) (e : LinkEnd) (f : LinkPort → LinkPort) : (s.updEnd p e f).guard = s.guard := rfl
@[simp] theorem State.updEnd_baton (p : DieId) (e : LinkEnd) (f : LinkPort → LinkPort) : (s.updEnd p e f).baton = s.baton := rfl
@[simp] theorem State.updEnd_dxt (p : DieId) (e : LinkEnd) (f : LinkPort → LinkPort) : (s.updEnd p e f).dxt = s.dxt := rfl
@[simp] theorem State.updEnd_ports (p : DieId) (e : LinkEnd) (f : LinkPort → LinkPort) : (s.updEnd p e f).ports = s.ports := rfl
@[simp] theorem State.updEnd_host (p : DieId) (e : LinkEnd) (f : LinkPort → LinkPort) : (s.updEnd p e f).host = s.host := rfl
@[simp] theorem State.updEnd_rotations (p : DieId) (e : LinkEnd) (f : LinkPort → LinkPort) : (s.updEnd p e f).rotations = s.rotations := rfl
@[simp] theorem State.updEnd_stepPhase (p : DieId) (e : LinkEnd) (f : LinkPort → LinkPort) : (s.updEnd p e f).stepPhase = s.stepPhase := rfl
@[simp] theorem State.updEnd_rotReq (p : DieId) (e : LinkEnd) (f : LinkPort → LinkPort) : (s.updEnd p e f).rotReq = s.rotReq := rfl
@[simp] theorem State.updEnd_cooldown (p : DieId) (e : LinkEnd) (f : LinkPort → LinkPort) : (s.updEnd p e f).cooldown = s.cooldown := rfl
@[simp] theorem State.updEnd_tapers (p : DieId) (e : LinkEnd) (f : LinkPort → LinkPort) : (s.updEnd p e f).tapers = s.tapers := rfl
@[simp] theorem State.updEnd_svc (p : DieId) (e : LinkEnd) (f : LinkPort → LinkPort) : (s.updEnd p e f).svc = s.svc := rfl
@[simp] theorem State.updEnd_clerk (p : DieId) (e : LinkEnd) (f : LinkPort → LinkPort) : (s.updEnd p e f).clerk = s.clerk := rfl
@[simp] theorem State.updEnd_flash (p : DieId) (e : LinkEnd) (f : LinkPort → LinkPort) : (s.updEnd p e f).flash = s.flash := rfl
@[simp] theorem State.updEnd_power (p : DieId) (e : LinkEnd) (f : LinkPort → LinkPort) : (s.updEnd p e f).power = s.power := rfl

/-! ### updBoth -/

@[simp] theorem State.updBoth_pending (p : DieId) (f : LinkPort → LinkPort) : (s.updBoth p f).pending = s.pending := rfl
@[simp] theorem State.updBoth_fresh (p : DieId) (f : LinkPort → LinkPort) : (s.updBoth p f).fresh = s.fresh := rfl
@[simp] theorem State.updBoth_irqs (p : DieId) (f : LinkPort → LinkPort) : (s.updBoth p f).irqs = s.irqs := rfl
@[simp] theorem State.updBoth_fuses (p : DieId) (f : LinkPort → LinkPort) : (s.updBoth p f).fuses = s.fuses := rfl
@[simp] theorem State.updBoth_cores (p : DieId) (f : LinkPort → LinkPort) : (s.updBoth p f).cores = s.cores := rfl
@[simp] theorem State.updBoth_dies (p : DieId) (f : LinkPort → LinkPort) : (s.updBoth p f).dies = s.dies := rfl
@[simp] theorem State.updBoth_fabs (p : DieId) (f : LinkPort → LinkPort) : (s.updBoth p f).fabs = s.fabs := rfl
@[simp] theorem State.updBoth_msgs (p : DieId) (f : LinkPort → LinkPort) : (s.updBoth p f).msgs = s.msgs := rfl
@[simp] theorem State.updBoth_mem (p : DieId) (f : LinkPort → LinkPort) : (s.updBoth p f).mem = s.mem := rfl
@[simp] theorem State.updBoth_bibs (p : DieId) (f : LinkPort → LinkPort) : (s.updBoth p f).bibs = s.bibs := rfl
@[simp] theorem State.updBoth_fills (p : DieId) (f : LinkPort → LinkPort) : (s.updBoth p f).fills = s.fills := rfl
@[simp] theorem State.updBoth_poison (p : DieId) (f : LinkPort → LinkPort) : (s.updBoth p f).poison = s.poison := rfl
@[simp] theorem State.updBoth_frames (p : DieId) (f : LinkPort → LinkPort) : (s.updBoth p f).frames = s.frames := rfl
@[simp] theorem State.updBoth_shelf (p : DieId) (f : LinkPort → LinkPort) : (s.updBoth p f).shelf = s.shelf := rfl
@[simp] theorem State.updBoth_hbms (p : DieId) (f : LinkPort → LinkPort) : (s.updBoth p f).hbms = s.hbms := rfl
@[simp] theorem State.updBoth_handles (p : DieId) (f : LinkPort → LinkPort) : (s.updBoth p f).handles = s.handles := rfl
@[simp] theorem State.updBoth_rings (p : DieId) (f : LinkPort → LinkPort) : (s.updBoth p f).rings = s.rings := rfl
@[simp] theorem State.updBoth_runnels (p : DieId) (f : LinkPort → LinkPort) : (s.updBoth p f).runnels = s.runnels := rfl
@[simp] theorem State.updBoth_hostMem (p : DieId) (f : LinkPort → LinkPort) : (s.updBoth p f).hostMem = s.hostMem := rfl
@[simp] theorem State.updBoth_queues (p : DieId) (f : LinkPort → LinkPort) : (s.updBoth p f).queues = s.queues := rfl
@[simp] theorem State.updBoth_ready (p : DieId) (f : LinkPort → LinkPort) : (s.updBoth p f).ready = s.ready := rfl
@[simp] theorem State.updBoth_active (p : DieId) (f : LinkPort → LinkPort) : (s.updBoth p f).active = s.active := rfl
@[simp] theorem State.updBoth_events (p : DieId) (f : LinkPort → LinkPort) : (s.updBoth p f).events = s.events := rfl
@[simp] theorem State.updBoth_stepCtr (p : DieId) (f : LinkPort → LinkPort) : (s.updBoth p f).stepCtr = s.stepCtr := rfl
@[simp] theorem State.updBoth_skips (p : DieId) (f : LinkPort → LinkPort) : (s.updBoth p f).skips = s.skips := rfl
@[simp] theorem State.updBoth_guard (p : DieId) (f : LinkPort → LinkPort) : (s.updBoth p f).guard = s.guard := rfl
@[simp] theorem State.updBoth_baton (p : DieId) (f : LinkPort → LinkPort) : (s.updBoth p f).baton = s.baton := rfl
@[simp] theorem State.updBoth_dxt (p : DieId) (f : LinkPort → LinkPort) : (s.updBoth p f).dxt = s.dxt := rfl
@[simp] theorem State.updBoth_ports (p : DieId) (f : LinkPort → LinkPort) : (s.updBoth p f).ports = s.ports := rfl
@[simp] theorem State.updBoth_host (p : DieId) (f : LinkPort → LinkPort) : (s.updBoth p f).host = s.host := rfl
@[simp] theorem State.updBoth_rotations (p : DieId) (f : LinkPort → LinkPort) : (s.updBoth p f).rotations = s.rotations := rfl
@[simp] theorem State.updBoth_stepPhase (p : DieId) (f : LinkPort → LinkPort) : (s.updBoth p f).stepPhase = s.stepPhase := rfl
@[simp] theorem State.updBoth_rotReq (p : DieId) (f : LinkPort → LinkPort) : (s.updBoth p f).rotReq = s.rotReq := rfl
@[simp] theorem State.updBoth_cooldown (p : DieId) (f : LinkPort → LinkPort) : (s.updBoth p f).cooldown = s.cooldown := rfl
@[simp] theorem State.updBoth_tapers (p : DieId) (f : LinkPort → LinkPort) : (s.updBoth p f).tapers = s.tapers := rfl
@[simp] theorem State.updBoth_svc (p : DieId) (f : LinkPort → LinkPort) : (s.updBoth p f).svc = s.svc := rfl
@[simp] theorem State.updBoth_clerk (p : DieId) (f : LinkPort → LinkPort) : (s.updBoth p f).clerk = s.clerk := rfl
@[simp] theorem State.updBoth_flash (p : DieId) (f : LinkPort → LinkPort) : (s.updBoth p f).flash = s.flash := rfl
@[simp] theorem State.updBoth_power (p : DieId) (f : LinkPort → LinkPort) : (s.updBoth p f).power = s.power := rfl

/-! ### updBaton -/

@[simp] theorem State.updBaton_pending (q : Nat) (f : BatonCmd → BatonCmd) : (s.updBaton q f).pending = s.pending := rfl
@[simp] theorem State.updBaton_fresh (q : Nat) (f : BatonCmd → BatonCmd) : (s.updBaton q f).fresh = s.fresh := rfl
@[simp] theorem State.updBaton_irqs (q : Nat) (f : BatonCmd → BatonCmd) : (s.updBaton q f).irqs = s.irqs := rfl
@[simp] theorem State.updBaton_fuses (q : Nat) (f : BatonCmd → BatonCmd) : (s.updBaton q f).fuses = s.fuses := rfl
@[simp] theorem State.updBaton_cores (q : Nat) (f : BatonCmd → BatonCmd) : (s.updBaton q f).cores = s.cores := rfl
@[simp] theorem State.updBaton_dies (q : Nat) (f : BatonCmd → BatonCmd) : (s.updBaton q f).dies = s.dies := rfl
@[simp] theorem State.updBaton_fabs (q : Nat) (f : BatonCmd → BatonCmd) : (s.updBaton q f).fabs = s.fabs := rfl
@[simp] theorem State.updBaton_msgs (q : Nat) (f : BatonCmd → BatonCmd) : (s.updBaton q f).msgs = s.msgs := rfl
@[simp] theorem State.updBaton_mem (q : Nat) (f : BatonCmd → BatonCmd) : (s.updBaton q f).mem = s.mem := rfl
@[simp] theorem State.updBaton_bibs (q : Nat) (f : BatonCmd → BatonCmd) : (s.updBaton q f).bibs = s.bibs := rfl
@[simp] theorem State.updBaton_fills (q : Nat) (f : BatonCmd → BatonCmd) : (s.updBaton q f).fills = s.fills := rfl
@[simp] theorem State.updBaton_poison (q : Nat) (f : BatonCmd → BatonCmd) : (s.updBaton q f).poison = s.poison := rfl
@[simp] theorem State.updBaton_frames (q : Nat) (f : BatonCmd → BatonCmd) : (s.updBaton q f).frames = s.frames := rfl
@[simp] theorem State.updBaton_shelf (q : Nat) (f : BatonCmd → BatonCmd) : (s.updBaton q f).shelf = s.shelf := rfl
@[simp] theorem State.updBaton_hbms (q : Nat) (f : BatonCmd → BatonCmd) : (s.updBaton q f).hbms = s.hbms := rfl
@[simp] theorem State.updBaton_handles (q : Nat) (f : BatonCmd → BatonCmd) : (s.updBaton q f).handles = s.handles := rfl
@[simp] theorem State.updBaton_rings (q : Nat) (f : BatonCmd → BatonCmd) : (s.updBaton q f).rings = s.rings := rfl
@[simp] theorem State.updBaton_runnels (q : Nat) (f : BatonCmd → BatonCmd) : (s.updBaton q f).runnels = s.runnels := rfl
@[simp] theorem State.updBaton_hostMem (q : Nat) (f : BatonCmd → BatonCmd) : (s.updBaton q f).hostMem = s.hostMem := rfl
@[simp] theorem State.updBaton_queues (q : Nat) (f : BatonCmd → BatonCmd) : (s.updBaton q f).queues = s.queues := rfl
@[simp] theorem State.updBaton_ready (q : Nat) (f : BatonCmd → BatonCmd) : (s.updBaton q f).ready = s.ready := rfl
@[simp] theorem State.updBaton_active (q : Nat) (f : BatonCmd → BatonCmd) : (s.updBaton q f).active = s.active := rfl
@[simp] theorem State.updBaton_events (q : Nat) (f : BatonCmd → BatonCmd) : (s.updBaton q f).events = s.events := rfl
@[simp] theorem State.updBaton_stepCtr (q : Nat) (f : BatonCmd → BatonCmd) : (s.updBaton q f).stepCtr = s.stepCtr := rfl
@[simp] theorem State.updBaton_skips (q : Nat) (f : BatonCmd → BatonCmd) : (s.updBaton q f).skips = s.skips := rfl
@[simp] theorem State.updBaton_guard (q : Nat) (f : BatonCmd → BatonCmd) : (s.updBaton q f).guard = s.guard := rfl
@[simp] theorem State.updBaton_dxt (q : Nat) (f : BatonCmd → BatonCmd) : (s.updBaton q f).dxt = s.dxt := rfl
@[simp] theorem State.updBaton_ports (q : Nat) (f : BatonCmd → BatonCmd) : (s.updBaton q f).ports = s.ports := rfl
@[simp] theorem State.updBaton_host (q : Nat) (f : BatonCmd → BatonCmd) : (s.updBaton q f).host = s.host := rfl
@[simp] theorem State.updBaton_rotations (q : Nat) (f : BatonCmd → BatonCmd) : (s.updBaton q f).rotations = s.rotations := rfl
@[simp] theorem State.updBaton_stepPhase (q : Nat) (f : BatonCmd → BatonCmd) : (s.updBaton q f).stepPhase = s.stepPhase := rfl
@[simp] theorem State.updBaton_rotReq (q : Nat) (f : BatonCmd → BatonCmd) : (s.updBaton q f).rotReq = s.rotReq := rfl
@[simp] theorem State.updBaton_cooldown (q : Nat) (f : BatonCmd → BatonCmd) : (s.updBaton q f).cooldown = s.cooldown := rfl
@[simp] theorem State.updBaton_tapers (q : Nat) (f : BatonCmd → BatonCmd) : (s.updBaton q f).tapers = s.tapers := rfl
@[simp] theorem State.updBaton_svc (q : Nat) (f : BatonCmd → BatonCmd) : (s.updBaton q f).svc = s.svc := rfl
@[simp] theorem State.updBaton_links (q : Nat) (f : BatonCmd → BatonCmd) : (s.updBaton q f).links = s.links := rfl
@[simp] theorem State.updBaton_clerk (q : Nat) (f : BatonCmd → BatonCmd) : (s.updBaton q f).clerk = s.clerk := rfl
@[simp] theorem State.updBaton_flash (q : Nat) (f : BatonCmd → BatonCmd) : (s.updBaton q f).flash = s.flash := rfl
@[simp] theorem State.updBaton_power (q : Nat) (f : BatonCmd → BatonCmd) : (s.updBaton q f).power = s.power := rfl

/-! ### updXfer -/

@[simp] theorem State.updXfer_pending (q e : Nat) (f : Xfer → Xfer) : (s.updXfer q e f).pending = s.pending := rfl
@[simp] theorem State.updXfer_fresh (q e : Nat) (f : Xfer → Xfer) : (s.updXfer q e f).fresh = s.fresh := rfl
@[simp] theorem State.updXfer_irqs (q e : Nat) (f : Xfer → Xfer) : (s.updXfer q e f).irqs = s.irqs := rfl
@[simp] theorem State.updXfer_fuses (q e : Nat) (f : Xfer → Xfer) : (s.updXfer q e f).fuses = s.fuses := rfl
@[simp] theorem State.updXfer_cores (q e : Nat) (f : Xfer → Xfer) : (s.updXfer q e f).cores = s.cores := rfl
@[simp] theorem State.updXfer_dies (q e : Nat) (f : Xfer → Xfer) : (s.updXfer q e f).dies = s.dies := rfl
@[simp] theorem State.updXfer_fabs (q e : Nat) (f : Xfer → Xfer) : (s.updXfer q e f).fabs = s.fabs := rfl
@[simp] theorem State.updXfer_msgs (q e : Nat) (f : Xfer → Xfer) : (s.updXfer q e f).msgs = s.msgs := rfl
@[simp] theorem State.updXfer_mem (q e : Nat) (f : Xfer → Xfer) : (s.updXfer q e f).mem = s.mem := rfl
@[simp] theorem State.updXfer_bibs (q e : Nat) (f : Xfer → Xfer) : (s.updXfer q e f).bibs = s.bibs := rfl
@[simp] theorem State.updXfer_fills (q e : Nat) (f : Xfer → Xfer) : (s.updXfer q e f).fills = s.fills := rfl
@[simp] theorem State.updXfer_poison (q e : Nat) (f : Xfer → Xfer) : (s.updXfer q e f).poison = s.poison := rfl
@[simp] theorem State.updXfer_frames (q e : Nat) (f : Xfer → Xfer) : (s.updXfer q e f).frames = s.frames := rfl
@[simp] theorem State.updXfer_shelf (q e : Nat) (f : Xfer → Xfer) : (s.updXfer q e f).shelf = s.shelf := rfl
@[simp] theorem State.updXfer_hbms (q e : Nat) (f : Xfer → Xfer) : (s.updXfer q e f).hbms = s.hbms := rfl
@[simp] theorem State.updXfer_handles (q e : Nat) (f : Xfer → Xfer) : (s.updXfer q e f).handles = s.handles := rfl
@[simp] theorem State.updXfer_rings (q e : Nat) (f : Xfer → Xfer) : (s.updXfer q e f).rings = s.rings := rfl
@[simp] theorem State.updXfer_runnels (q e : Nat) (f : Xfer → Xfer) : (s.updXfer q e f).runnels = s.runnels := rfl
@[simp] theorem State.updXfer_hostMem (q e : Nat) (f : Xfer → Xfer) : (s.updXfer q e f).hostMem = s.hostMem := rfl
@[simp] theorem State.updXfer_queues (q e : Nat) (f : Xfer → Xfer) : (s.updXfer q e f).queues = s.queues := rfl
@[simp] theorem State.updXfer_ready (q e : Nat) (f : Xfer → Xfer) : (s.updXfer q e f).ready = s.ready := rfl
@[simp] theorem State.updXfer_active (q e : Nat) (f : Xfer → Xfer) : (s.updXfer q e f).active = s.active := rfl
@[simp] theorem State.updXfer_events (q e : Nat) (f : Xfer → Xfer) : (s.updXfer q e f).events = s.events := rfl
@[simp] theorem State.updXfer_stepCtr (q e : Nat) (f : Xfer → Xfer) : (s.updXfer q e f).stepCtr = s.stepCtr := rfl
@[simp] theorem State.updXfer_skips (q e : Nat) (f : Xfer → Xfer) : (s.updXfer q e f).skips = s.skips := rfl
@[simp] theorem State.updXfer_guard (q e : Nat) (f : Xfer → Xfer) : (s.updXfer q e f).guard = s.guard := rfl
@[simp] theorem State.updXfer_dxt (q e : Nat) (f : Xfer → Xfer) : (s.updXfer q e f).dxt = s.dxt := rfl
@[simp] theorem State.updXfer_ports (q e : Nat) (f : Xfer → Xfer) : (s.updXfer q e f).ports = s.ports := rfl
@[simp] theorem State.updXfer_host (q e : Nat) (f : Xfer → Xfer) : (s.updXfer q e f).host = s.host := rfl
@[simp] theorem State.updXfer_rotations (q e : Nat) (f : Xfer → Xfer) : (s.updXfer q e f).rotations = s.rotations := rfl
@[simp] theorem State.updXfer_stepPhase (q e : Nat) (f : Xfer → Xfer) : (s.updXfer q e f).stepPhase = s.stepPhase := rfl
@[simp] theorem State.updXfer_rotReq (q e : Nat) (f : Xfer → Xfer) : (s.updXfer q e f).rotReq = s.rotReq := rfl
@[simp] theorem State.updXfer_cooldown (q e : Nat) (f : Xfer → Xfer) : (s.updXfer q e f).cooldown = s.cooldown := rfl
@[simp] theorem State.updXfer_tapers (q e : Nat) (f : Xfer → Xfer) : (s.updXfer q e f).tapers = s.tapers := rfl
@[simp] theorem State.updXfer_svc (q e : Nat) (f : Xfer → Xfer) : (s.updXfer q e f).svc = s.svc := rfl
@[simp] theorem State.updXfer_links (q e : Nat) (f : Xfer → Xfer) : (s.updXfer q e f).links = s.links := rfl
@[simp] theorem State.updXfer_clerk (q e : Nat) (f : Xfer → Xfer) : (s.updXfer q e f).clerk = s.clerk := rfl
@[simp] theorem State.updXfer_flash (q e : Nat) (f : Xfer → Xfer) : (s.updXfer q e f).flash = s.flash := rfl
@[simp] theorem State.updXfer_power (q e : Nat) (f : Xfer → Xfer) : (s.updXfer q e f).power = s.power := rfl

/-! ### updPermi -/

@[simp] theorem State.updPermi_pending (q : Nat) (f : PermiState → PermiState) : (s.updPermi q f).pending = s.pending := rfl
@[simp] theorem State.updPermi_fresh (q : Nat) (f : PermiState → PermiState) : (s.updPermi q f).fresh = s.fresh := rfl
@[simp] theorem State.updPermi_irqs (q : Nat) (f : PermiState → PermiState) : (s.updPermi q f).irqs = s.irqs := rfl
@[simp] theorem State.updPermi_fuses (q : Nat) (f : PermiState → PermiState) : (s.updPermi q f).fuses = s.fuses := rfl
@[simp] theorem State.updPermi_cores (q : Nat) (f : PermiState → PermiState) : (s.updPermi q f).cores = s.cores := rfl
@[simp] theorem State.updPermi_dies (q : Nat) (f : PermiState → PermiState) : (s.updPermi q f).dies = s.dies := rfl
@[simp] theorem State.updPermi_fabs (q : Nat) (f : PermiState → PermiState) : (s.updPermi q f).fabs = s.fabs := rfl
@[simp] theorem State.updPermi_msgs (q : Nat) (f : PermiState → PermiState) : (s.updPermi q f).msgs = s.msgs := rfl
@[simp] theorem State.updPermi_mem (q : Nat) (f : PermiState → PermiState) : (s.updPermi q f).mem = s.mem := rfl
@[simp] theorem State.updPermi_bibs (q : Nat) (f : PermiState → PermiState) : (s.updPermi q f).bibs = s.bibs := rfl
@[simp] theorem State.updPermi_fills (q : Nat) (f : PermiState → PermiState) : (s.updPermi q f).fills = s.fills := rfl
@[simp] theorem State.updPermi_poison (q : Nat) (f : PermiState → PermiState) : (s.updPermi q f).poison = s.poison := rfl
@[simp] theorem State.updPermi_frames (q : Nat) (f : PermiState → PermiState) : (s.updPermi q f).frames = s.frames := rfl
@[simp] theorem State.updPermi_shelf (q : Nat) (f : PermiState → PermiState) : (s.updPermi q f).shelf = s.shelf := rfl
@[simp] theorem State.updPermi_hbms (q : Nat) (f : PermiState → PermiState) : (s.updPermi q f).hbms = s.hbms := rfl
@[simp] theorem State.updPermi_handles (q : Nat) (f : PermiState → PermiState) : (s.updPermi q f).handles = s.handles := rfl
@[simp] theorem State.updPermi_rings (q : Nat) (f : PermiState → PermiState) : (s.updPermi q f).rings = s.rings := rfl
@[simp] theorem State.updPermi_runnels (q : Nat) (f : PermiState → PermiState) : (s.updPermi q f).runnels = s.runnels := rfl
@[simp] theorem State.updPermi_hostMem (q : Nat) (f : PermiState → PermiState) : (s.updPermi q f).hostMem = s.hostMem := rfl
@[simp] theorem State.updPermi_queues (q : Nat) (f : PermiState → PermiState) : (s.updPermi q f).queues = s.queues := rfl
@[simp] theorem State.updPermi_ready (q : Nat) (f : PermiState → PermiState) : (s.updPermi q f).ready = s.ready := rfl
@[simp] theorem State.updPermi_active (q : Nat) (f : PermiState → PermiState) : (s.updPermi q f).active = s.active := rfl
@[simp] theorem State.updPermi_events (q : Nat) (f : PermiState → PermiState) : (s.updPermi q f).events = s.events := rfl
@[simp] theorem State.updPermi_stepCtr (q : Nat) (f : PermiState → PermiState) : (s.updPermi q f).stepCtr = s.stepCtr := rfl
@[simp] theorem State.updPermi_skips (q : Nat) (f : PermiState → PermiState) : (s.updPermi q f).skips = s.skips := rfl
@[simp] theorem State.updPermi_guard (q : Nat) (f : PermiState → PermiState) : (s.updPermi q f).guard = s.guard := rfl
@[simp] theorem State.updPermi_dxt (q : Nat) (f : PermiState → PermiState) : (s.updPermi q f).dxt = s.dxt := rfl
@[simp] theorem State.updPermi_ports (q : Nat) (f : PermiState → PermiState) : (s.updPermi q f).ports = s.ports := rfl
@[simp] theorem State.updPermi_host (q : Nat) (f : PermiState → PermiState) : (s.updPermi q f).host = s.host := rfl
@[simp] theorem State.updPermi_rotations (q : Nat) (f : PermiState → PermiState) : (s.updPermi q f).rotations = s.rotations := rfl
@[simp] theorem State.updPermi_stepPhase (q : Nat) (f : PermiState → PermiState) : (s.updPermi q f).stepPhase = s.stepPhase := rfl
@[simp] theorem State.updPermi_rotReq (q : Nat) (f : PermiState → PermiState) : (s.updPermi q f).rotReq = s.rotReq := rfl
@[simp] theorem State.updPermi_cooldown (q : Nat) (f : PermiState → PermiState) : (s.updPermi q f).cooldown = s.cooldown := rfl
@[simp] theorem State.updPermi_tapers (q : Nat) (f : PermiState → PermiState) : (s.updPermi q f).tapers = s.tapers := rfl
@[simp] theorem State.updPermi_svc (q : Nat) (f : PermiState → PermiState) : (s.updPermi q f).svc = s.svc := rfl
@[simp] theorem State.updPermi_links (q : Nat) (f : PermiState → PermiState) : (s.updPermi q f).links = s.links := rfl
@[simp] theorem State.updPermi_clerk (q : Nat) (f : PermiState → PermiState) : (s.updPermi q f).clerk = s.clerk := rfl
@[simp] theorem State.updPermi_flash (q : Nat) (f : PermiState → PermiState) : (s.updPermi q f).flash = s.flash := rfl
@[simp] theorem State.updPermi_power (q : Nat) (f : PermiState → PermiState) : (s.updPermi q f).power = s.power := rfl

/-! ### updStream -/

@[simp] theorem State.updStream_pending (r : RunId) (f : StreamRun → StreamRun) : (s.updStream r f).pending = s.pending := rfl
@[simp] theorem State.updStream_fresh (r : RunId) (f : StreamRun → StreamRun) : (s.updStream r f).fresh = s.fresh := rfl
@[simp] theorem State.updStream_irqs (r : RunId) (f : StreamRun → StreamRun) : (s.updStream r f).irqs = s.irqs := rfl
@[simp] theorem State.updStream_fuses (r : RunId) (f : StreamRun → StreamRun) : (s.updStream r f).fuses = s.fuses := rfl
@[simp] theorem State.updStream_cores (r : RunId) (f : StreamRun → StreamRun) : (s.updStream r f).cores = s.cores := rfl
@[simp] theorem State.updStream_dies (r : RunId) (f : StreamRun → StreamRun) : (s.updStream r f).dies = s.dies := rfl
@[simp] theorem State.updStream_fabs (r : RunId) (f : StreamRun → StreamRun) : (s.updStream r f).fabs = s.fabs := rfl
@[simp] theorem State.updStream_msgs (r : RunId) (f : StreamRun → StreamRun) : (s.updStream r f).msgs = s.msgs := rfl
@[simp] theorem State.updStream_mem (r : RunId) (f : StreamRun → StreamRun) : (s.updStream r f).mem = s.mem := rfl
@[simp] theorem State.updStream_bibs (r : RunId) (f : StreamRun → StreamRun) : (s.updStream r f).bibs = s.bibs := rfl
@[simp] theorem State.updStream_fills (r : RunId) (f : StreamRun → StreamRun) : (s.updStream r f).fills = s.fills := rfl
@[simp] theorem State.updStream_poison (r : RunId) (f : StreamRun → StreamRun) : (s.updStream r f).poison = s.poison := rfl
@[simp] theorem State.updStream_frames (r : RunId) (f : StreamRun → StreamRun) : (s.updStream r f).frames = s.frames := rfl
@[simp] theorem State.updStream_shelf (r : RunId) (f : StreamRun → StreamRun) : (s.updStream r f).shelf = s.shelf := rfl
@[simp] theorem State.updStream_hbms (r : RunId) (f : StreamRun → StreamRun) : (s.updStream r f).hbms = s.hbms := rfl
@[simp] theorem State.updStream_handles (r : RunId) (f : StreamRun → StreamRun) : (s.updStream r f).handles = s.handles := rfl
@[simp] theorem State.updStream_rings (r : RunId) (f : StreamRun → StreamRun) : (s.updStream r f).rings = s.rings := rfl
@[simp] theorem State.updStream_hostMem (r : RunId) (f : StreamRun → StreamRun) : (s.updStream r f).hostMem = s.hostMem := rfl
@[simp] theorem State.updStream_queues (r : RunId) (f : StreamRun → StreamRun) : (s.updStream r f).queues = s.queues := rfl
@[simp] theorem State.updStream_ready (r : RunId) (f : StreamRun → StreamRun) : (s.updStream r f).ready = s.ready := rfl
@[simp] theorem State.updStream_active (r : RunId) (f : StreamRun → StreamRun) : (s.updStream r f).active = s.active := rfl
@[simp] theorem State.updStream_events (r : RunId) (f : StreamRun → StreamRun) : (s.updStream r f).events = s.events := rfl
@[simp] theorem State.updStream_stepCtr (r : RunId) (f : StreamRun → StreamRun) : (s.updStream r f).stepCtr = s.stepCtr := rfl
@[simp] theorem State.updStream_skips (r : RunId) (f : StreamRun → StreamRun) : (s.updStream r f).skips = s.skips := rfl
@[simp] theorem State.updStream_guard (r : RunId) (f : StreamRun → StreamRun) : (s.updStream r f).guard = s.guard := rfl
@[simp] theorem State.updStream_baton (r : RunId) (f : StreamRun → StreamRun) : (s.updStream r f).baton = s.baton := rfl
@[simp] theorem State.updStream_dxt (r : RunId) (f : StreamRun → StreamRun) : (s.updStream r f).dxt = s.dxt := rfl
@[simp] theorem State.updStream_ports (r : RunId) (f : StreamRun → StreamRun) : (s.updStream r f).ports = s.ports := rfl
@[simp] theorem State.updStream_host (r : RunId) (f : StreamRun → StreamRun) : (s.updStream r f).host = s.host := rfl
@[simp] theorem State.updStream_rotations (r : RunId) (f : StreamRun → StreamRun) : (s.updStream r f).rotations = s.rotations := rfl
@[simp] theorem State.updStream_stepPhase (r : RunId) (f : StreamRun → StreamRun) : (s.updStream r f).stepPhase = s.stepPhase := rfl
@[simp] theorem State.updStream_rotReq (r : RunId) (f : StreamRun → StreamRun) : (s.updStream r f).rotReq = s.rotReq := rfl
@[simp] theorem State.updStream_cooldown (r : RunId) (f : StreamRun → StreamRun) : (s.updStream r f).cooldown = s.cooldown := rfl
@[simp] theorem State.updStream_tapers (r : RunId) (f : StreamRun → StreamRun) : (s.updStream r f).tapers = s.tapers := rfl
@[simp] theorem State.updStream_svc (r : RunId) (f : StreamRun → StreamRun) : (s.updStream r f).svc = s.svc := rfl
@[simp] theorem State.updStream_links (r : RunId) (f : StreamRun → StreamRun) : (s.updStream r f).links = s.links := rfl
@[simp] theorem State.updStream_clerk (r : RunId) (f : StreamRun → StreamRun) : (s.updStream r f).clerk = s.clerk := rfl
@[simp] theorem State.updStream_flash (r : RunId) (f : StreamRun → StreamRun) : (s.updStream r f).flash = s.flash := rfl
@[simp] theorem State.updStream_power (r : RunId) (f : StreamRun → StreamRun) : (s.updStream r f).power = s.power := rfl

/-! ### updFar -/

@[simp] theorem State.updFar_pending (k : CoreId) (i : Nat) (f : FarAcc → FarAcc) : (s.updFar k i f).pending = s.pending := rfl
@[simp] theorem State.updFar_fresh (k : CoreId) (i : Nat) (f : FarAcc → FarAcc) : (s.updFar k i f).fresh = s.fresh := rfl
@[simp] theorem State.updFar_irqs (k : CoreId) (i : Nat) (f : FarAcc → FarAcc) : (s.updFar k i f).irqs = s.irqs := rfl
@[simp] theorem State.updFar_fuses (k : CoreId) (i : Nat) (f : FarAcc → FarAcc) : (s.updFar k i f).fuses = s.fuses := rfl
@[simp] theorem State.updFar_dies (k : CoreId) (i : Nat) (f : FarAcc → FarAcc) : (s.updFar k i f).dies = s.dies := rfl
@[simp] theorem State.updFar_fabs (k : CoreId) (i : Nat) (f : FarAcc → FarAcc) : (s.updFar k i f).fabs = s.fabs := rfl
@[simp] theorem State.updFar_msgs (k : CoreId) (i : Nat) (f : FarAcc → FarAcc) : (s.updFar k i f).msgs = s.msgs := rfl
@[simp] theorem State.updFar_mem (k : CoreId) (i : Nat) (f : FarAcc → FarAcc) : (s.updFar k i f).mem = s.mem := rfl
@[simp] theorem State.updFar_bibs (k : CoreId) (i : Nat) (f : FarAcc → FarAcc) : (s.updFar k i f).bibs = s.bibs := rfl
@[simp] theorem State.updFar_fills (k : CoreId) (i : Nat) (f : FarAcc → FarAcc) : (s.updFar k i f).fills = s.fills := rfl
@[simp] theorem State.updFar_poison (k : CoreId) (i : Nat) (f : FarAcc → FarAcc) : (s.updFar k i f).poison = s.poison := rfl
@[simp] theorem State.updFar_frames (k : CoreId) (i : Nat) (f : FarAcc → FarAcc) : (s.updFar k i f).frames = s.frames := rfl
@[simp] theorem State.updFar_shelf (k : CoreId) (i : Nat) (f : FarAcc → FarAcc) : (s.updFar k i f).shelf = s.shelf := rfl
@[simp] theorem State.updFar_hbms (k : CoreId) (i : Nat) (f : FarAcc → FarAcc) : (s.updFar k i f).hbms = s.hbms := rfl
@[simp] theorem State.updFar_handles (k : CoreId) (i : Nat) (f : FarAcc → FarAcc) : (s.updFar k i f).handles = s.handles := rfl
@[simp] theorem State.updFar_rings (k : CoreId) (i : Nat) (f : FarAcc → FarAcc) : (s.updFar k i f).rings = s.rings := rfl
@[simp] theorem State.updFar_runnels (k : CoreId) (i : Nat) (f : FarAcc → FarAcc) : (s.updFar k i f).runnels = s.runnels := rfl
@[simp] theorem State.updFar_hostMem (k : CoreId) (i : Nat) (f : FarAcc → FarAcc) : (s.updFar k i f).hostMem = s.hostMem := rfl
@[simp] theorem State.updFar_queues (k : CoreId) (i : Nat) (f : FarAcc → FarAcc) : (s.updFar k i f).queues = s.queues := rfl
@[simp] theorem State.updFar_ready (k : CoreId) (i : Nat) (f : FarAcc → FarAcc) : (s.updFar k i f).ready = s.ready := rfl
@[simp] theorem State.updFar_active (k : CoreId) (i : Nat) (f : FarAcc → FarAcc) : (s.updFar k i f).active = s.active := rfl
@[simp] theorem State.updFar_events (k : CoreId) (i : Nat) (f : FarAcc → FarAcc) : (s.updFar k i f).events = s.events := rfl
@[simp] theorem State.updFar_stepCtr (k : CoreId) (i : Nat) (f : FarAcc → FarAcc) : (s.updFar k i f).stepCtr = s.stepCtr := rfl
@[simp] theorem State.updFar_skips (k : CoreId) (i : Nat) (f : FarAcc → FarAcc) : (s.updFar k i f).skips = s.skips := rfl
@[simp] theorem State.updFar_guard (k : CoreId) (i : Nat) (f : FarAcc → FarAcc) : (s.updFar k i f).guard = s.guard := rfl
@[simp] theorem State.updFar_baton (k : CoreId) (i : Nat) (f : FarAcc → FarAcc) : (s.updFar k i f).baton = s.baton := rfl
@[simp] theorem State.updFar_dxt (k : CoreId) (i : Nat) (f : FarAcc → FarAcc) : (s.updFar k i f).dxt = s.dxt := rfl
@[simp] theorem State.updFar_ports (k : CoreId) (i : Nat) (f : FarAcc → FarAcc) : (s.updFar k i f).ports = s.ports := rfl
@[simp] theorem State.updFar_host (k : CoreId) (i : Nat) (f : FarAcc → FarAcc) : (s.updFar k i f).host = s.host := rfl
@[simp] theorem State.updFar_rotations (k : CoreId) (i : Nat) (f : FarAcc → FarAcc) : (s.updFar k i f).rotations = s.rotations := rfl
@[simp] theorem State.updFar_stepPhase (k : CoreId) (i : Nat) (f : FarAcc → FarAcc) : (s.updFar k i f).stepPhase = s.stepPhase := rfl
@[simp] theorem State.updFar_rotReq (k : CoreId) (i : Nat) (f : FarAcc → FarAcc) : (s.updFar k i f).rotReq = s.rotReq := rfl
@[simp] theorem State.updFar_cooldown (k : CoreId) (i : Nat) (f : FarAcc → FarAcc) : (s.updFar k i f).cooldown = s.cooldown := rfl
@[simp] theorem State.updFar_tapers (k : CoreId) (i : Nat) (f : FarAcc → FarAcc) : (s.updFar k i f).tapers = s.tapers := rfl
@[simp] theorem State.updFar_svc (k : CoreId) (i : Nat) (f : FarAcc → FarAcc) : (s.updFar k i f).svc = s.svc := rfl
@[simp] theorem State.updFar_links (k : CoreId) (i : Nat) (f : FarAcc → FarAcc) : (s.updFar k i f).links = s.links := rfl
@[simp] theorem State.updFar_clerk (k : CoreId) (i : Nat) (f : FarAcc → FarAcc) : (s.updFar k i f).clerk = s.clerk := rfl
@[simp] theorem State.updFar_flash (k : CoreId) (i : Nat) (f : FarAcc → FarAcc) : (s.updFar k i f).flash = s.flash := rfl
@[simp] theorem State.updFar_power (k : CoreId) (i : Nat) (f : FarAcc → FarAcc) : (s.updFar k i f).power = s.power := rfl

/-! ### updClerk -/

@[simp] theorem State.updClerk_pending (f : Clerk → Clerk) : (s.updClerk f).pending = s.pending := rfl
@[simp] theorem State.updClerk_fresh (f : Clerk → Clerk) : (s.updClerk f).fresh = s.fresh := rfl
@[simp] theorem State.updClerk_irqs (f : Clerk → Clerk) : (s.updClerk f).irqs = s.irqs := rfl
@[simp] theorem State.updClerk_fuses (f : Clerk → Clerk) : (s.updClerk f).fuses = s.fuses := rfl
@[simp] theorem State.updClerk_cores (f : Clerk → Clerk) : (s.updClerk f).cores = s.cores := rfl
@[simp] theorem State.updClerk_dies (f : Clerk → Clerk) : (s.updClerk f).dies = s.dies := rfl
@[simp] theorem State.updClerk_fabs (f : Clerk → Clerk) : (s.updClerk f).fabs = s.fabs := rfl
@[simp] theorem State.updClerk_msgs (f : Clerk → Clerk) : (s.updClerk f).msgs = s.msgs := rfl
@[simp] theorem State.updClerk_mem (f : Clerk → Clerk) : (s.updClerk f).mem = s.mem := rfl
@[simp] theorem State.updClerk_bibs (f : Clerk → Clerk) : (s.updClerk f).bibs = s.bibs := rfl
@[simp] theorem State.updClerk_fills (f : Clerk → Clerk) : (s.updClerk f).fills = s.fills := rfl
@[simp] theorem State.updClerk_poison (f : Clerk → Clerk) : (s.updClerk f).poison = s.poison := rfl
@[simp] theorem State.updClerk_frames (f : Clerk → Clerk) : (s.updClerk f).frames = s.frames := rfl
@[simp] theorem State.updClerk_shelf (f : Clerk → Clerk) : (s.updClerk f).shelf = s.shelf := rfl
@[simp] theorem State.updClerk_hbms (f : Clerk → Clerk) : (s.updClerk f).hbms = s.hbms := rfl
@[simp] theorem State.updClerk_handles (f : Clerk → Clerk) : (s.updClerk f).handles = s.handles := rfl
@[simp] theorem State.updClerk_rings (f : Clerk → Clerk) : (s.updClerk f).rings = s.rings := rfl
@[simp] theorem State.updClerk_runnels (f : Clerk → Clerk) : (s.updClerk f).runnels = s.runnels := rfl
@[simp] theorem State.updClerk_hostMem (f : Clerk → Clerk) : (s.updClerk f).hostMem = s.hostMem := rfl
@[simp] theorem State.updClerk_queues (f : Clerk → Clerk) : (s.updClerk f).queues = s.queues := rfl
@[simp] theorem State.updClerk_ready (f : Clerk → Clerk) : (s.updClerk f).ready = s.ready := rfl
@[simp] theorem State.updClerk_active (f : Clerk → Clerk) : (s.updClerk f).active = s.active := rfl
@[simp] theorem State.updClerk_events (f : Clerk → Clerk) : (s.updClerk f).events = s.events := rfl
@[simp] theorem State.updClerk_stepCtr (f : Clerk → Clerk) : (s.updClerk f).stepCtr = s.stepCtr := rfl
@[simp] theorem State.updClerk_skips (f : Clerk → Clerk) : (s.updClerk f).skips = s.skips := rfl
@[simp] theorem State.updClerk_guard (f : Clerk → Clerk) : (s.updClerk f).guard = s.guard := rfl
@[simp] theorem State.updClerk_baton (f : Clerk → Clerk) : (s.updClerk f).baton = s.baton := rfl
@[simp] theorem State.updClerk_dxt (f : Clerk → Clerk) : (s.updClerk f).dxt = s.dxt := rfl
@[simp] theorem State.updClerk_ports (f : Clerk → Clerk) : (s.updClerk f).ports = s.ports := rfl
@[simp] theorem State.updClerk_host (f : Clerk → Clerk) : (s.updClerk f).host = s.host := rfl
@[simp] theorem State.updClerk_rotations (f : Clerk → Clerk) : (s.updClerk f).rotations = s.rotations := rfl
@[simp] theorem State.updClerk_stepPhase (f : Clerk → Clerk) : (s.updClerk f).stepPhase = s.stepPhase := rfl
@[simp] theorem State.updClerk_rotReq (f : Clerk → Clerk) : (s.updClerk f).rotReq = s.rotReq := rfl
@[simp] theorem State.updClerk_cooldown (f : Clerk → Clerk) : (s.updClerk f).cooldown = s.cooldown := rfl
@[simp] theorem State.updClerk_tapers (f : Clerk → Clerk) : (s.updClerk f).tapers = s.tapers := rfl
@[simp] theorem State.updClerk_svc (f : Clerk → Clerk) : (s.updClerk f).svc = s.svc := rfl
@[simp] theorem State.updClerk_links (f : Clerk → Clerk) : (s.updClerk f).links = s.links := rfl
@[simp] theorem State.updClerk_clerk (f : Clerk → Clerk) : (s.updClerk f).clerk = f s.clerk := rfl
@[simp] theorem State.updClerk_flash (f : Clerk → Clerk) : (s.updClerk f).flash = s.flash := rfl
@[simp] theorem State.updClerk_power (f : Clerk → Clerk) : (s.updClerk f).power = s.power := rfl

/-! ### updSave -/

@[simp] theorem State.updSave_pending (d : DieId) (i : Fin 2) (f : Option SaveSlot → Option SaveSlot) : (s.updSave d i f).pending = s.pending := rfl
@[simp] theorem State.updSave_fresh (d : DieId) (i : Fin 2) (f : Option SaveSlot → Option SaveSlot) : (s.updSave d i f).fresh = s.fresh := rfl
@[simp] theorem State.updSave_irqs (d : DieId) (i : Fin 2) (f : Option SaveSlot → Option SaveSlot) : (s.updSave d i f).irqs = s.irqs := rfl
@[simp] theorem State.updSave_fuses (d : DieId) (i : Fin 2) (f : Option SaveSlot → Option SaveSlot) : (s.updSave d i f).fuses = s.fuses := rfl
@[simp] theorem State.updSave_cores (d : DieId) (i : Fin 2) (f : Option SaveSlot → Option SaveSlot) : (s.updSave d i f).cores = s.cores := rfl
@[simp] theorem State.updSave_fabs (d : DieId) (i : Fin 2) (f : Option SaveSlot → Option SaveSlot) : (s.updSave d i f).fabs = s.fabs := rfl
@[simp] theorem State.updSave_msgs (d : DieId) (i : Fin 2) (f : Option SaveSlot → Option SaveSlot) : (s.updSave d i f).msgs = s.msgs := rfl
@[simp] theorem State.updSave_mem (d : DieId) (i : Fin 2) (f : Option SaveSlot → Option SaveSlot) : (s.updSave d i f).mem = s.mem := rfl
@[simp] theorem State.updSave_bibs (d : DieId) (i : Fin 2) (f : Option SaveSlot → Option SaveSlot) : (s.updSave d i f).bibs = s.bibs := rfl
@[simp] theorem State.updSave_fills (d : DieId) (i : Fin 2) (f : Option SaveSlot → Option SaveSlot) : (s.updSave d i f).fills = s.fills := rfl
@[simp] theorem State.updSave_poison (d : DieId) (i : Fin 2) (f : Option SaveSlot → Option SaveSlot) : (s.updSave d i f).poison = s.poison := rfl
@[simp] theorem State.updSave_frames (d : DieId) (i : Fin 2) (f : Option SaveSlot → Option SaveSlot) : (s.updSave d i f).frames = s.frames := rfl
@[simp] theorem State.updSave_shelf (d : DieId) (i : Fin 2) (f : Option SaveSlot → Option SaveSlot) : (s.updSave d i f).shelf = s.shelf := rfl
@[simp] theorem State.updSave_hbms (d : DieId) (i : Fin 2) (f : Option SaveSlot → Option SaveSlot) : (s.updSave d i f).hbms = s.hbms := rfl
@[simp] theorem State.updSave_handles (d : DieId) (i : Fin 2) (f : Option SaveSlot → Option SaveSlot) : (s.updSave d i f).handles = s.handles := rfl
@[simp] theorem State.updSave_rings (d : DieId) (i : Fin 2) (f : Option SaveSlot → Option SaveSlot) : (s.updSave d i f).rings = s.rings := rfl
@[simp] theorem State.updSave_runnels (d : DieId) (i : Fin 2) (f : Option SaveSlot → Option SaveSlot) : (s.updSave d i f).runnels = s.runnels := rfl
@[simp] theorem State.updSave_hostMem (d : DieId) (i : Fin 2) (f : Option SaveSlot → Option SaveSlot) : (s.updSave d i f).hostMem = s.hostMem := rfl
@[simp] theorem State.updSave_queues (d : DieId) (i : Fin 2) (f : Option SaveSlot → Option SaveSlot) : (s.updSave d i f).queues = s.queues := rfl
@[simp] theorem State.updSave_ready (d : DieId) (i : Fin 2) (f : Option SaveSlot → Option SaveSlot) : (s.updSave d i f).ready = s.ready := rfl
@[simp] theorem State.updSave_active (d : DieId) (i : Fin 2) (f : Option SaveSlot → Option SaveSlot) : (s.updSave d i f).active = s.active := rfl
@[simp] theorem State.updSave_events (d : DieId) (i : Fin 2) (f : Option SaveSlot → Option SaveSlot) : (s.updSave d i f).events = s.events := rfl
@[simp] theorem State.updSave_stepCtr (d : DieId) (i : Fin 2) (f : Option SaveSlot → Option SaveSlot) : (s.updSave d i f).stepCtr = s.stepCtr := rfl
@[simp] theorem State.updSave_skips (d : DieId) (i : Fin 2) (f : Option SaveSlot → Option SaveSlot) : (s.updSave d i f).skips = s.skips := rfl
@[simp] theorem State.updSave_guard (d : DieId) (i : Fin 2) (f : Option SaveSlot → Option SaveSlot) : (s.updSave d i f).guard = s.guard := rfl
@[simp] theorem State.updSave_baton (d : DieId) (i : Fin 2) (f : Option SaveSlot → Option SaveSlot) : (s.updSave d i f).baton = s.baton := rfl
@[simp] theorem State.updSave_dxt (d : DieId) (i : Fin 2) (f : Option SaveSlot → Option SaveSlot) : (s.updSave d i f).dxt = s.dxt := rfl
@[simp] theorem State.updSave_ports (d : DieId) (i : Fin 2) (f : Option SaveSlot → Option SaveSlot) : (s.updSave d i f).ports = s.ports := rfl
@[simp] theorem State.updSave_host (d : DieId) (i : Fin 2) (f : Option SaveSlot → Option SaveSlot) : (s.updSave d i f).host = s.host := rfl
@[simp] theorem State.updSave_rotations (d : DieId) (i : Fin 2) (f : Option SaveSlot → Option SaveSlot) : (s.updSave d i f).rotations = s.rotations := rfl
@[simp] theorem State.updSave_stepPhase (d : DieId) (i : Fin 2) (f : Option SaveSlot → Option SaveSlot) : (s.updSave d i f).stepPhase = s.stepPhase := rfl
@[simp] theorem State.updSave_rotReq (d : DieId) (i : Fin 2) (f : Option SaveSlot → Option SaveSlot) : (s.updSave d i f).rotReq = s.rotReq := rfl
@[simp] theorem State.updSave_cooldown (d : DieId) (i : Fin 2) (f : Option SaveSlot → Option SaveSlot) : (s.updSave d i f).cooldown = s.cooldown := rfl
@[simp] theorem State.updSave_tapers (d : DieId) (i : Fin 2) (f : Option SaveSlot → Option SaveSlot) : (s.updSave d i f).tapers = s.tapers := rfl
@[simp] theorem State.updSave_svc (d : DieId) (i : Fin 2) (f : Option SaveSlot → Option SaveSlot) : (s.updSave d i f).svc = s.svc := rfl
@[simp] theorem State.updSave_links (d : DieId) (i : Fin 2) (f : Option SaveSlot → Option SaveSlot) : (s.updSave d i f).links = s.links := rfl
@[simp] theorem State.updSave_clerk (d : DieId) (i : Fin 2) (f : Option SaveSlot → Option SaveSlot) : (s.updSave d i f).clerk = s.clerk := rfl
@[simp] theorem State.updSave_flash (d : DieId) (i : Fin 2) (f : Option SaveSlot → Option SaveSlot) : (s.updSave d i f).flash = s.flash := rfl
@[simp] theorem State.updSave_power (d : DieId) (i : Fin 2) (f : Option SaveSlot → Option SaveSlot) : (s.updSave d i f).power = s.power := rfl

/-! ### setImage -/

@[simp] theorem State.setImage_pending (q : Nat) (image : List Byte) (moved : Nat) : (s.setImage q image moved).pending = s.pending := rfl
@[simp] theorem State.setImage_fresh (q : Nat) (image : List Byte) (moved : Nat) : (s.setImage q image moved).fresh = s.fresh := rfl
@[simp] theorem State.setImage_irqs (q : Nat) (image : List Byte) (moved : Nat) : (s.setImage q image moved).irqs = s.irqs := rfl
@[simp] theorem State.setImage_fuses (q : Nat) (image : List Byte) (moved : Nat) : (s.setImage q image moved).fuses = s.fuses := rfl
@[simp] theorem State.setImage_cores (q : Nat) (image : List Byte) (moved : Nat) : (s.setImage q image moved).cores = s.cores := rfl
@[simp] theorem State.setImage_dies (q : Nat) (image : List Byte) (moved : Nat) : (s.setImage q image moved).dies = s.dies := rfl
@[simp] theorem State.setImage_fabs (q : Nat) (image : List Byte) (moved : Nat) : (s.setImage q image moved).fabs = s.fabs := rfl
@[simp] theorem State.setImage_msgs (q : Nat) (image : List Byte) (moved : Nat) : (s.setImage q image moved).msgs = s.msgs := rfl
@[simp] theorem State.setImage_mem (q : Nat) (image : List Byte) (moved : Nat) : (s.setImage q image moved).mem = s.mem := rfl
@[simp] theorem State.setImage_bibs (q : Nat) (image : List Byte) (moved : Nat) : (s.setImage q image moved).bibs = s.bibs := rfl
@[simp] theorem State.setImage_fills (q : Nat) (image : List Byte) (moved : Nat) : (s.setImage q image moved).fills = s.fills := rfl
@[simp] theorem State.setImage_poison (q : Nat) (image : List Byte) (moved : Nat) : (s.setImage q image moved).poison = s.poison := rfl
@[simp] theorem State.setImage_frames (q : Nat) (image : List Byte) (moved : Nat) : (s.setImage q image moved).frames = s.frames := rfl
@[simp] theorem State.setImage_shelf (q : Nat) (image : List Byte) (moved : Nat) : (s.setImage q image moved).shelf = s.shelf := rfl
@[simp] theorem State.setImage_hbms (q : Nat) (image : List Byte) (moved : Nat) : (s.setImage q image moved).hbms = s.hbms := rfl
@[simp] theorem State.setImage_handles (q : Nat) (image : List Byte) (moved : Nat) : (s.setImage q image moved).handles = s.handles := rfl
@[simp] theorem State.setImage_rings (q : Nat) (image : List Byte) (moved : Nat) : (s.setImage q image moved).rings = s.rings := rfl
@[simp] theorem State.setImage_runnels (q : Nat) (image : List Byte) (moved : Nat) : (s.setImage q image moved).runnels = s.runnels := rfl
@[simp] theorem State.setImage_hostMem (q : Nat) (image : List Byte) (moved : Nat) : (s.setImage q image moved).hostMem = s.hostMem := rfl
@[simp] theorem State.setImage_ready (q : Nat) (image : List Byte) (moved : Nat) : (s.setImage q image moved).ready = s.ready := rfl
@[simp] theorem State.setImage_active (q : Nat) (image : List Byte) (moved : Nat) : (s.setImage q image moved).active = s.active := rfl
@[simp] theorem State.setImage_events (q : Nat) (image : List Byte) (moved : Nat) : (s.setImage q image moved).events = s.events := rfl
@[simp] theorem State.setImage_stepCtr (q : Nat) (image : List Byte) (moved : Nat) : (s.setImage q image moved).stepCtr = s.stepCtr := rfl
@[simp] theorem State.setImage_skips (q : Nat) (image : List Byte) (moved : Nat) : (s.setImage q image moved).skips = s.skips := rfl
@[simp] theorem State.setImage_guard (q : Nat) (image : List Byte) (moved : Nat) : (s.setImage q image moved).guard = s.guard := rfl
@[simp] theorem State.setImage_baton (q : Nat) (image : List Byte) (moved : Nat) : (s.setImage q image moved).baton = s.baton := rfl
@[simp] theorem State.setImage_dxt (q : Nat) (image : List Byte) (moved : Nat) : (s.setImage q image moved).dxt = s.dxt := rfl
@[simp] theorem State.setImage_ports (q : Nat) (image : List Byte) (moved : Nat) : (s.setImage q image moved).ports = s.ports := rfl
@[simp] theorem State.setImage_host (q : Nat) (image : List Byte) (moved : Nat) : (s.setImage q image moved).host = s.host := rfl
@[simp] theorem State.setImage_rotations (q : Nat) (image : List Byte) (moved : Nat) : (s.setImage q image moved).rotations = s.rotations := rfl
@[simp] theorem State.setImage_stepPhase (q : Nat) (image : List Byte) (moved : Nat) : (s.setImage q image moved).stepPhase = s.stepPhase := rfl
@[simp] theorem State.setImage_rotReq (q : Nat) (image : List Byte) (moved : Nat) : (s.setImage q image moved).rotReq = s.rotReq := rfl
@[simp] theorem State.setImage_cooldown (q : Nat) (image : List Byte) (moved : Nat) : (s.setImage q image moved).cooldown = s.cooldown := rfl
@[simp] theorem State.setImage_tapers (q : Nat) (image : List Byte) (moved : Nat) : (s.setImage q image moved).tapers = s.tapers := rfl
@[simp] theorem State.setImage_svc (q : Nat) (image : List Byte) (moved : Nat) : (s.setImage q image moved).svc = s.svc := rfl
@[simp] theorem State.setImage_links (q : Nat) (image : List Byte) (moved : Nat) : (s.setImage q image moved).links = s.links := rfl
@[simp] theorem State.setImage_clerk (q : Nat) (image : List Byte) (moved : Nat) : (s.setImage q image moved).clerk = s.clerk := rfl
@[simp] theorem State.setImage_flash (q : Nat) (image : List Byte) (moved : Nat) : (s.setImage q image moved).flash = s.flash := rfl
@[simp] theorem State.setImage_power (q : Nat) (image : List Byte) (moved : Nat) : (s.setImage q image moved).power = s.power := rfl

/-! ### updSlot -/

@[simp] theorem State.updSlot_pending (i : Fin 8) (f : MbSlot → MbSlot) : (s.updSlot i f).pending = s.pending := rfl
@[simp] theorem State.updSlot_fresh (i : Fin 8) (f : MbSlot → MbSlot) : (s.updSlot i f).fresh = s.fresh := rfl
@[simp] theorem State.updSlot_irqs (i : Fin 8) (f : MbSlot → MbSlot) : (s.updSlot i f).irqs = s.irqs := rfl
@[simp] theorem State.updSlot_fuses (i : Fin 8) (f : MbSlot → MbSlot) : (s.updSlot i f).fuses = s.fuses := rfl
@[simp] theorem State.updSlot_cores (i : Fin 8) (f : MbSlot → MbSlot) : (s.updSlot i f).cores = s.cores := rfl
@[simp] theorem State.updSlot_dies (i : Fin 8) (f : MbSlot → MbSlot) : (s.updSlot i f).dies = s.dies := rfl
@[simp] theorem State.updSlot_fabs (i : Fin 8) (f : MbSlot → MbSlot) : (s.updSlot i f).fabs = s.fabs := rfl
@[simp] theorem State.updSlot_msgs (i : Fin 8) (f : MbSlot → MbSlot) : (s.updSlot i f).msgs = s.msgs := rfl
@[simp] theorem State.updSlot_mem (i : Fin 8) (f : MbSlot → MbSlot) : (s.updSlot i f).mem = s.mem := rfl
@[simp] theorem State.updSlot_bibs (i : Fin 8) (f : MbSlot → MbSlot) : (s.updSlot i f).bibs = s.bibs := rfl
@[simp] theorem State.updSlot_fills (i : Fin 8) (f : MbSlot → MbSlot) : (s.updSlot i f).fills = s.fills := rfl
@[simp] theorem State.updSlot_poison (i : Fin 8) (f : MbSlot → MbSlot) : (s.updSlot i f).poison = s.poison := rfl
@[simp] theorem State.updSlot_frames (i : Fin 8) (f : MbSlot → MbSlot) : (s.updSlot i f).frames = s.frames := rfl
@[simp] theorem State.updSlot_shelf (i : Fin 8) (f : MbSlot → MbSlot) : (s.updSlot i f).shelf = s.shelf := rfl
@[simp] theorem State.updSlot_hbms (i : Fin 8) (f : MbSlot → MbSlot) : (s.updSlot i f).hbms = s.hbms := rfl
@[simp] theorem State.updSlot_handles (i : Fin 8) (f : MbSlot → MbSlot) : (s.updSlot i f).handles = s.handles := rfl
@[simp] theorem State.updSlot_rings (i : Fin 8) (f : MbSlot → MbSlot) : (s.updSlot i f).rings = s.rings := rfl
@[simp] theorem State.updSlot_runnels (i : Fin 8) (f : MbSlot → MbSlot) : (s.updSlot i f).runnels = s.runnels := rfl
@[simp] theorem State.updSlot_hostMem (i : Fin 8) (f : MbSlot → MbSlot) : (s.updSlot i f).hostMem = s.hostMem := rfl
@[simp] theorem State.updSlot_queues (i : Fin 8) (f : MbSlot → MbSlot) : (s.updSlot i f).queues = s.queues := rfl
@[simp] theorem State.updSlot_ready (i : Fin 8) (f : MbSlot → MbSlot) : (s.updSlot i f).ready = s.ready := rfl
@[simp] theorem State.updSlot_active (i : Fin 8) (f : MbSlot → MbSlot) : (s.updSlot i f).active = s.active := rfl
@[simp] theorem State.updSlot_events (i : Fin 8) (f : MbSlot → MbSlot) : (s.updSlot i f).events = s.events := rfl
@[simp] theorem State.updSlot_stepCtr (i : Fin 8) (f : MbSlot → MbSlot) : (s.updSlot i f).stepCtr = s.stepCtr := rfl
@[simp] theorem State.updSlot_skips (i : Fin 8) (f : MbSlot → MbSlot) : (s.updSlot i f).skips = s.skips := rfl
@[simp] theorem State.updSlot_guard (i : Fin 8) (f : MbSlot → MbSlot) : (s.updSlot i f).guard = s.guard := rfl
@[simp] theorem State.updSlot_baton (i : Fin 8) (f : MbSlot → MbSlot) : (s.updSlot i f).baton = s.baton := rfl
@[simp] theorem State.updSlot_dxt (i : Fin 8) (f : MbSlot → MbSlot) : (s.updSlot i f).dxt = s.dxt := rfl
@[simp] theorem State.updSlot_ports (i : Fin 8) (f : MbSlot → MbSlot) : (s.updSlot i f).ports = s.ports := rfl
@[simp] theorem State.updSlot_host (i : Fin 8) (f : MbSlot → MbSlot) : (s.updSlot i f).host = s.host := rfl
@[simp] theorem State.updSlot_rotations (i : Fin 8) (f : MbSlot → MbSlot) : (s.updSlot i f).rotations = s.rotations := rfl
@[simp] theorem State.updSlot_stepPhase (i : Fin 8) (f : MbSlot → MbSlot) : (s.updSlot i f).stepPhase = s.stepPhase := rfl
@[simp] theorem State.updSlot_rotReq (i : Fin 8) (f : MbSlot → MbSlot) : (s.updSlot i f).rotReq = s.rotReq := rfl
@[simp] theorem State.updSlot_cooldown (i : Fin 8) (f : MbSlot → MbSlot) : (s.updSlot i f).cooldown = s.cooldown := rfl
@[simp] theorem State.updSlot_tapers (i : Fin 8) (f : MbSlot → MbSlot) : (s.updSlot i f).tapers = s.tapers := rfl
@[simp] theorem State.updSlot_svc (i : Fin 8) (f : MbSlot → MbSlot) : (s.updSlot i f).svc = s.svc := rfl
@[simp] theorem State.updSlot_links (i : Fin 8) (f : MbSlot → MbSlot) : (s.updSlot i f).links = s.links := rfl
@[simp] theorem State.updSlot_flash (i : Fin 8) (f : MbSlot → MbSlot) : (s.updSlot i f).flash = s.flash := rfl
@[simp] theorem State.updSlot_power (i : Fin 8) (f : MbSlot → MbSlot) : (s.updSlot i f).power = s.power := rfl

end Sys2Proof.Machine
end

