-- ==== Sys2Proof/Laws/Ops.lean ====
section
/-! SUPPORT. What each shared operation can do, said once: where a command at a part of the grade answers, what one element of a
vector of parts holds after an update, and what a step does. -/

namespace Sys2Proof.Machine

/-! ### One part changed -/

@[simp] theorem vupd_same {α : Type} {n : Nat} (v : Vector α n) (i : Fin n) (f : α → α) : (vupd v i f)[i.val] = f v[i.val] := by
  simp [vupd]

theorem vupd_ne {α : Type} {n : Nat} (v : Vector α n) (i j : Fin n) (f : α → α) (h : i ≠ j) : (vupd v i f)[j.val] = v[j.val] := by
  have h' : i.val ≠ j.val := fun e => h (Fin.ext e)
  simp [vupd, h']

@[simp] theorem State.core_updCore_same (s : State) (k : CoreId) (f : Core → Core) : (s.updCore k f).core k = f (s.core k) := by
  simp [State.core]

theorem State.core_updCore_ne (s : State) (k j : CoreId) (f : Core → Core) (h : k ≠ j) : (s.updCore k f).core j = s.core j := by
  simpa [State.core] using vupd_ne s.cores k j f h

@[simp] theorem State.core_updArch_same (s : State) (k : CoreId) (f : CoreArch → CoreArch) :
    (s.updArch k f).core k = { s.core k with arch := f (s.core k).arch } := by
  simp [State.updArch]

theorem State.core_updArch_ne (s : State) (k j : CoreId) (f : CoreArch → CoreArch) (h : k ≠ j) :
    (s.updArch k f).core j = s.core j := State.core_updCore_ne s k j _ h

theorem State.queue_updQueue_same (s : State) (q : Nat) (f : Queue → Queue) : (s.updQueue q f).queue q = f (s.queue q) := by
  simp [State.queue, Sparse.find_put_same]

theorem State.queue_updQueue_ne (s : State) (q r : Nat) (f : Queue → Queue) (h : r ≠ q) : (s.updQueue q f).queue r = s.queue r := by
  simp [State.queue, Sparse.find_put_ne _ _ _ _ h]

/-! ### Outcomes of a command -/

/-- A command at a core answers a next state, the core's effect where the grade has the core. -/
theorem atCore_next_iff (k : CoreId) (s t : State) (f : State → State) :
    atCore k s f = .next t ↔ t = if s.hasCore k then s.unlessHeld (dieOf k) f else s := by
  rw [atCore]
  constructor
  · intro h; exact (Host.Outcome.next.inj h).symm
  · intro h; rw [h]

/-- A command at a core of the grade. -/
theorem atCore_of_hasCore (k : CoreId) (s : State) (f : State → State) (h : s.hasCore k = true) :
    atCore k s f = .next (s.unlessHeld (dieOf k) f) := by
  simp [atCore, h]

/-- A command at a core that the grade does not have changes nothing (R3, R28). -/
theorem atCore_absent (k : CoreId) (s : State) (f : State → State) (h : s.hasCore k = false) : atCore k s f = .next s := by
  simp [atCore, h]

theorem atDie_next_iff (d : DieId) (s t : State) (f : State → State) :
    atDie d s f = .next t ↔ t = if s.hasDie d && !s.dieOut d then f s else s := by
  rw [atDie]
  constructor
  · intro h; exact (Host.Outcome.next.inj h).symm
  · intro h; rw [h]

/-- A command at a die of the grade that has not stopped. -/
theorem atDie_runs (d : DieId) (s : State) (f : State → State) (h : s.hasDie d = true) (ho : s.dieOut d = false) :
    atDie d s f = .next (f s) := by
  simp [atDie, h, ho]

/-- A command at a die link of the grade whose die has its clock. -/
theorem atLink_runs (d : DieId) (s : State) (f : State → State) (h : s.hasDie d = true) (hd : s.dark = false)
    (hc : s.clerk.deadDies.contains d = false) : atLink d s f = .next (f s) := by
  have hn : d ∉ s.clerk.deadDies := by simpa using hc
  simp [atLink, h, hd, hn]

/-- A command at a die that the grade does not have changes nothing (R3, R28). -/
theorem atDie_absent (d : DieId) (s : State) (f : State → State) (h : s.hasDie d = false) : atDie d s f = .next s := by
  simp [atDie, h]

theorem atStack_next_iff (st : StackId) (s t : State) (f : State → State) :
    atStack st s f = .next t ↔
      t = if decide (st.val < s.stackCount) && !s.dark && !s.clerk.deadDies.contains (dieOfStack st) then f s else s := by
  rw [atStack]
  constructor
  · intro h; exact (Host.Outcome.next.inj h).symm
  · intro h; rw [h]

theorem atPort_next_iff (p : PortId) (s t : State) (f : State → State) :
    atPort p s f = .next t ↔ t = if p.val < s.portCount then s.unlessDark f else s := by
  rw [atPort]
  constructor
  · intro h; exact (Host.Outcome.next.inj h).symm
  · intro h; rw [h]

theorem atRunnel_next_iff (r : RunId) (s t : State) (f : State → State) :
    atRunnel r s f = .next t ↔ t = if s.hasCore (coreOf r) then s.unlessHeld (dieOf (coreOf r)) f else s :=
  atCore_next_iff (coreOf r) s t f

theorem always_next_iff (s t : State) (f : State → State) : always s f = .next t ↔ t = s.unlessDark f := by
  simp [always, eq_comm]

theorem anyway_next_iff (s t : State) (f : State → State) : anyway s f = .next t ↔ t = f s := by
  simp [anyway, eq_comm]

/-- A slot operation of a core that is not held starts after everything else of its cycle. -/
theorem atSlot_next (k : CoreId) (s : State) (f : State → State) (h : s.hasCore k = true) (hd : s.dieHeld (dieOf k) = false)
    (hh : ((s.settle k).core k).held = false) : atSlot k s f = .next (f (s.settle k)) := by
  simp [atSlot, atCore, h, State.unlessHeld, hd, hh]

theorem State.unlessDark_lit (s : State) (f : State → State) (h : s.dark = false) : s.unlessDark f = f s := by
  simp [State.unlessDark, h]

theorem State.unlessDark_dark (s : State) (f : State → State) (h : s.dark = true) : s.unlessDark f = s := by
  simp [State.unlessDark, h]

theorem State.unlessHeld_free (s : State) (d : DieId) (f : State → State) (h : s.dieHeld d = false) : s.unlessHeld d f = f s := by
  simp [State.unlessHeld, h]

theorem State.unlessHeld_held (s : State) (d : DieId) (f : State → State) (h : s.dieHeld d = true) : s.unlessHeld d f = s := by
  simp [State.unlessHeld, h]

theorem State.dieOut_of_dieHeld (s : State) (d : DieId) (h : s.dieHeld d = false) : s.dieOut d = false := by
  simp only [State.dieHeld, Bool.or_eq_false_iff] at h
  exact h.1

theorem State.dark_of_dieHeld (s : State) (d : DieId) (h : s.dieHeld d = false) : s.dark = false := by
  simp only [State.dieHeld, State.dieOut, Bool.or_eq_false_iff] at h
  exact h.1.1.1.1

/-! ### A step -/

theorem step_front (s : State) (c : Instr) (l : List Instr) (h : s.pending = c :: l) :
    step s = exec c { s with pending := l } := by
  simp [step, h]

theorem step_idle (s : State) (h : s.pending = []) : step s = .next s.tick := by
  simp [step, h]

end Sys2Proof.Machine
end

