-- ==== Sys2Proof/Machine/RegRead.lean ====
section
/-! DEFINITION. What host software reads in the registers of BAR0 (R9, R27, R432): each register's word from the fields that State
holds, laid out as the register's table says. Reserved fields, bits that act, offsets without a register and the registers of parts
that the grade does not have read as zeros (R3, R28). -/

namespace Sys2Proof.Machine

/-- A register's fields side by side: the lowest bit, the width, and the value of each. -/
def regWord (l : List (Nat × Nat × Nat)) : Word := BitVec.ofNat 64 (l.foldl (fun n f => n + (f.2.2 % 2 ^ f.2.1) <<< f.1) 0)

def bit (b : Bool) : Nat := if b then 1 else 0

/-- Bits set in a mask. -/
def bitCount {n : Nat} (m : BitVec n) : Nat := ((List.range n).filter fun i => m.getLsbD i).length

/-! ### Queues, groups, Baton (R241, R248, R276, R277, R294, R296, R300) -/

/-- `QSTATE` (Table: Queue states). -/
def QState.code : QState → Nat
  | .disabled => 0
  | .idle => 1
  | .waiting => 2
  | .active => 3
  | .halted => 4
  | .stopping => 5

/-- `Q_BASE`, `Q_CFG`, `Q_PTR`, `Q_STAT`, by their place in the queue's four registers. -/
def Queue.reg (x : Queue) : Nat → Word
  | 0 => regWord [(0, 48, x.base)]
  | 1 => regWord [(63, 1, bit x.en), (56, 4, x.ecls.toNat), (40, 8, x.inst.toNat), (16, 11, x.vector.toNat), (0, 5, x.log2n.toNat)]
  | 2 => regWord [(32, 32, x.tail.toNat), (0, 32, x.done.toNat)]
  | 3 => regWord [(52, 4, x.qstate.code), (40, 8, if x.qstate = .halted then x.hcause.toNat else 0), (33, 1, bit x.dberr)]
  | _ => 0

/-- A word of a group entry (Table: Group entry), the lowest first. -/
def Group.reg (g : Group) : Nat → Word
  | 0 => regWord [(0, 1, bit g.valid)]
  | 1 => regWord [(48, 16, g.myrank.toNat), (32, 16, g.nrankm1.toNat), (14, 18, g.slotbase.toNat), (8, 2, g.naxm1.toNat),
      (0, 8, g.ggen.toNat)]
  | 2 => regWord [(48, 16, g.axm[3].toNat), (32, 16, g.axm[2].toNat), (16, 16, g.axm[1].toNat), (0, 16, g.axm[0].toNat)]
  | 3 => regWord [(32, 32, g.gfp.toNat), (16, 16, g.grace.toNat)]
  | _ => 0

/-- A member slot (Table: Member slot). -/
def Member.reg (m : Member) : Word := regWord [(40, 24, m.backup.toNat), (0, 24, m.ep.toNat)]

/-- `BAT_STAT`: `INFLIGHT` is the number of Baton commands that run. -/
def Baton.stat (b : Baton) : Word :=
  regWord [(48, 16, b.cmds.length), (32, 16, b.refuse.toNat), (16, 16, b.bibRetry.toNat), (1, 1, bit b.gfpErr), (0, 1, bit b.matchErr)]

/-- `FBAR_CFG`, `FBAR_STAT` and `FBAR_BIND` of a fabric context. -/
def FabCtx.reg (f : FabCtx) : Nat → Word
  | 0 => f.fcmask
  | 1 => regWord [(32, 16, f.gen.toNat), (8, 8, bitCount f.early), (0, 8, bitCount f.arrived)]
  | 2 => regWord [(63, 1, bit f.valid), (0, 12, f.group.toNat)]
  | _ => 0

/-! ### Barriers, watches, Cooldown, Taper, stacks (R237-R240, R363, R364, R371, R412) -/

def BarCtx.cfg (b : BarCtx) : Word := regWord [(63, 1, bit b.valid), (62, 1, bit b.dieMask), (48, 4, b.dmask.toNat), (0, 16, b.cmask.toNat)]

def BarCtx.stat (b : BarCtx) : Word :=
  regWord [(52, 4, b.darr.toNat), (48, 4, b.dearly.toNat), (32, 16, b.gen.toNat), (16, 16, b.early.toNat), (0, 16, b.arrived.toNat)]

def StrStat.reg (x : StrStat) : Word := regWord [(24, 8, x.ectx.toNat), (17, 7, x.elcore.toNat), (1, 5, x.bits.toNat)]

/-- A watch record (Table: Watch record). -/
def WatchRec.reg (w : WatchRec) : Word :=
  let st := match w.wst with
    | .empty => 0
    | .armed => 1
    | .notified => 2
  if w.kind = 0 then
    regWord [(62, 2, st), (38, 6, w.lcore.val), (32, 6, w.ctr.toNat), (16, 3, w.cond.toNat), (0, 16, w.imm.toNat)]
  else regWord [(62, 2, st), (60, 2, w.kind.toNat), (44, 16, w.gen.toNat), (0, 16, w.imm.toNat)]

def Cooldown.cfg (c : Cooldown) : Word := regWord [(32, 16, c.deadline.toNat), (16, 16, c.interval.toNat), (0, 1, bit c.cfgErr)]

/-- `CD_STAT`: `BUSY` counts the core tests that run. -/
def State.cdStat (s : State) : Word :=
  regWord [(40, 24, s.cooldown.phours.toNat), (36, 4, (s.allPCores.filter fun x => (s.pcore x.1 x.2).test.isSome).length),
    (32, 1, bit s.cooldown.staged)]

def PCore.cdCore (x : PCore) : Word :=
  regWord [(40, 24, x.lastPass.toNat), (16, 24, if x.owed then x.owedAt.toNat else 0xFFFFFF), (8, 4, x.lastRes.toNat), (1, 3, x.phase.toNat),
    (0, 1, bit x.overdue)]

def Taper.reg (t : Taper) : Word :=
  regWord [(56, 8, t.worst.toNat), (48, 8, t.planMin.toNat), (40, 4, t.offset.toNat), (16, 24, t.lastPlan.toNat), (8, 8, t.worstMon.toNat),
    (2, 1, bit t.nobase), (1, 1, bit t.floor), (0, 1, bit t.limit)]

/-- Eight monitors' slacks from monitor `8 * i` on. -/
def Taper.slackWord (t : Taper) (i : Nat) : Word := BitVec.ofNat 64 (leNat ((t.slack.toList.drop (8 * i)).take 8))

def HState.code : HState → Nat
  | .training => 0
  | .inService => 1
  | .outOfService => 2
  | .absent => 3

def Stack.stat (x : Stack) : Word :=
  regWord [(60, 4, x.hstate.code), (52, 8, x.temp.toNat), (51, 1, bit x.ref2x), (44, 7, x.lrep.toNat), (43, 1, bit x.nospare),
    (16, 16, x.duecnt.toNat), (0, 16, x.cecnt.toNat)]

def Stack.scrub (x : Stack) : Word := regWord [(56, 8, x.passes.toNat), (0, 30, x.nextcw.toNat)]

/-- `HBM_FRAME`. -/
def Frame.reg (f : Frame) : Word :=
  regWord [(63, 1, 1), (62, 1, bit f.fmode), (56, 2, f.fdie.toNat), (0, 11, f.fslice.toNat)]

/-! ### Die links (R392) -/

/-- `LSTATE` (Table: Link states). -/
def LState.code : LState → Nat
  | .down => 0
  | .sbInit => 1
  | .negotiate => 2
  | .laneTest => 3
  | .calibrate => 4
  | .widthAgree => 5
  | .active => 6
  | .recover => 7
  | .failed => 8

def LinkPort.ctl (x : LinkPort) : Word := regWord [(32, 16, x.calper.toNat), (16, 16, x.winper.toNat), (0, 1, bit x.calen)]

def LinkPort.stat (x : LinkPort) : Word :=
  regWord [(60, 4, x.lstate.code), (44, 12, x.wmask.toNat), (32, 12, x.ownmask.toNat), (20, 12, x.pmask.toNat), (16, 4, x.resol.toNat),
    (12, 4, x.fcause.toNat), (0, 1, bit x.sb1)]

def LinkPort.err (x : LinkPort) : Word :=
  regWord [(48, 16, x.bresend.toNat), (32, 16, x.mresend.toNat), (24, 8, x.recovers.toNat), (16, 8, x.retrains.toNat),
    (8, 8, x.wchanges.toNat), (0, 8, x.lrepairs.toNat)]

/-- `FDL_LMAP` of a bundle in one direction, as its 128 bits. -/
def LaneSet.lmap (x : LaneSet) (c : LaneCount) : BitVec 128 :=
  BitVec.ofNat 128 (c.shmis.toNat <<< 112 + c.wmargin.toNat <<< 104 + (min x.free.length 2) <<< 98 + x.fail.toNat <<< 80 +
    x.map.foldr (fun lane n => lane.val + n <<< 5) 0)

/-- A register of one end of a die link, by its offset from the end's first register. The hub end of an unpopulated position has its
registers. -/
def State.linkReg (s : State) (p : DieId) (e : LinkEnd) (off : Nat) : Word :=
  let l := s.link p
  let x := l.at e
  if s.hasDie p = false && e == .die then 0
  else if off = 0 then fdlCap e
  else if off = 8 then x.pcap
  else if off = 0x10 then x.neg.word
  else if off = 0x18 then x.ctl
  else if off = 0x20 then x.stat
  else if off = 0x28 then x.err
  else if 0x100 ≤ off ∧ off < 0x280 then
    let b : Fin 12 := ⟨(off - 0x100) / 0x20 % 12, by omega⟩
    let up := decide (0x10 ≤ off % 0x20)
    let v := (l.lanes up b).lmap x.counts[laneIx up b]
    v.extractLsb' (64 * (off / 8 % 2)) 64
  else 0

/-! ### Fabric ports, host port, Clerk, power (R430, R439, R471, R491) -/

def PortState.code : PortState → Nat
  | .disabled => 0
  | .training => 1
  | .up => 2
  | .down => 3

/-- `FP_CFG`, `FP_STAT` and `FP_ERR`; a port that the grade does not have reads `PSTATE` 0x4 and nothing else. -/
def State.portReg (s : State) (p : PortId) (off : Nat) : Word :=
  let x := s.ports[p]
  if s.portCount ≤ p.val then (if off = 8 then regWord [(60, 4, 4)] else 0)
  else if off = 0 then regWord [(2, 1, bit x.pen), (0, 2, x.pmd.toNat)]
  else if off = 8 then
    regWord [(60, 4, x.pstate.code), (52, 8, x.cablem.toNat), (51, 1, bit x.lpan), (40, 8, x.iloss.toNat), (16, 24, x.lpep.toNat),
      (15, 1, bit x.planeErr)]
  else if off = 0x10 then regWord [(32, 32, x.fecce.toNat), (16, 16, x.fecue.toNat), (0, 16, x.fcserr.toNat)]
  else 0

/-- `DXT_CFG`, `DXT_MAC`, `DXT_PCPMAP` and `DXT_STAT`. -/
def Dxt.reg (x : Dxt) : Nat → Word
  | 0 => regWord [(40, 24, x.myep.toNat), (24, 16, x.etype.toNat), (12, 12, x.vid.toNat), (2, 1, bit x.pfcen), (1, 1, bit x.twmode),
      (0, 1, bit x.dcfgErr)]
  | 1 => regWord [(0, 24, x.macpfx.toNat)]
  | 2 => regWord [(0, 24, x.pcpmap.toNat)]
  | 3 => regWord [(47, 17, x.peers.length), (16, 16, x.retx.toNat), (0, 16, x.drops.toNat)]
  | _ => 0

def HostPort.stat (h : HostPort) : Word :=
  regWord [(60, 4, h.lspeed.toNat), (56, 4, h.lwidth.toNat), (16, 16, h.hfails.toNat), (2, 1, bit h.ready), (1, 1, bit h.linkLost),
    (0, 1, bit h.aptErr)]

/-- `CLK_STAT`. -/
def State.clkStat (s : State) : Word :=
  let c := s.clerk
  regWord [(56, 8, c.bstage), (48, 8, c.bfail), (32, 8, s.svcByte.toNat), (16, 16, leNat (s.fwVersion.take 2)),
    (8, 8, (s.fwVersion.getD 2 0).toNat), (3, 1, bit c.trial), (2, 1, bit c.slot), (1, 1, bit c.mberr), (0, 1, bit s.host.ready)]

def Clerk.rstCause (c : Clerk) : Word := regWord [(16, 4, c.rdie.toNat), (8, 8, c.rsrc.toNat), (0, 8, c.rkind.toNat)]

def Events.ptr (e : Events) : Word := regWord [(32, 32, e.evcons.toNat), (0, 32, e.evprod.toNat)]

def Limits.reg (l : Limits) : Word := regWord [(48, 16, l.cap.toNat), (32, 16, l.floor.toNat), (16, 16, l.ramp.toNat), (0, 16, l.ecap.toNat)]

/-- `PWR_STAT`: the target and the 1 ms average of the input power, which State holds in hundredths of a watt. -/
def Power.stat (p : Power) : Word :=
  regWord [(48, 16, p.target / 100), (32, 16, p.pinMean / 100), (25, 7, p.duty), (8, 1, bit p.pstop), (7, 1, bit p.pcap), (6, 1, bit p.therm),
    (5, 1, bit p.flowlim), (4, 1, bit p.caplim), (3, 1, bit p.ramplim), (2, 1, bit p.ballast), (1, 1, bit p.fshort)]

/-- `COOL_STAT`. -/
def Power.cool (p : Power) : Word :=
  regWord [(48, 16, (BitVec.ofInt 16 p.last.inlet).toNat), (32, 16, (BitVec.ofInt 16 p.last.outlet).toNat), (16, 16, p.last.flow),
    (0, 16, p.last.dpres)]

/-! ### The blocks -/

/-- A register of the hub block. -/
def State.hubReg (s : State) (off : Nat) : Word :=
  if 0x20000 ≤ off ∧ off < 0x20100 then (s.fab ⟨(off - 0x20000) / 0x20 % 8, by omega⟩).reg (off % 0x20 / 8)
  else if off = 0x20200 then s.baton.vcWeight
  else if off = 0x20208 then regWord [(0, 12, s.baton.vcMap.toNat)]
  else if off = 0x20300 then s.baton.stat
  else if off = 0x20400 then s.guard.fdValue
  else if off = 0x20500 then s.cooldown.cfg
  else if off = 0x20508 then s.cdStat
  else if off = 0x20600 then s.tapers[4].reg
  else if 0x20700 ≤ off ∧ off < 0x20740 then s.tapers[4].slackWord ((off - 0x20700) / 8)
  else if off = 0x20800 then s.clkStat
  else if off = 0x20808 then s.events.ptr
  else if off = 0x20810 then s.clerk.rstCause
  else if off = 0x20900 then s.power.limits.reg
  else if off = 0x20908 then s.power.stat
  else if off = 0x20910 then s.power.cool
  else if 0x30000 ≤ off ∧ off < 0x34000 then s.linkReg ⟨(off - 0x30000) / 0x1000 % 4, by omega⟩ .hub (off % 0x1000)
  else if 0x100000 ≤ off ∧ off < 0x120000 then (s.group (BitVec.ofNat 12 ((off - 0x100000) / 0x20))).reg (off % 0x20 / 8)
  else if 0x200000 ≤ off ∧ off < 0x400000 then ((Sparse.find s.baton.members ((off - 0x200000) / 8)).getD Member.none).reg
  else if 0x400000 ≤ off ∧ off < 0x600000 then (s.queue ((off - 0x400000) / 0x20)).reg (off % 0x20 / 8)
  else if 0x600000 ≤ off ∧ off < 0x700000 then
    match Sparse.find s.frames ((off - 0x600000) / 8) with
    | some f => f.reg
    | none => 0
  else if 0x700000 ≤ off ∧ off < 0x700020 then s.dxt.reg (off % 0x20 / 8)
  else if 0x701000 ≤ off ∧ off < 0x701600 then s.portReg ⟨(off - 0x701000) / 0x40 % 24, by omega⟩ (off % 0x40)
  else if off = 0x780000 then regWord [(0, 18, s.host.aptb.toNat)]
  else if off = 0x780008 then s.host.stat
  else 0

/-- A register of a die block. Of an absent die only `HBM_STAT` reads as other than zeros: its stacks are absent (R411). -/
def State.dieReg (s : State) (d : DieId) (off : Nat) : Word :=
  let x := s.dies[d]
  if s.hasDie d = false then (if 0x80000 ≤ off ∧ off < 0x80200 ∧ off % 0x40 = 0 then regWord [(60, 4, 3)] else 0)
  else if 0x10000 ≤ off ∧ off < 0x10048 then
    let p := (off - 0x10000) / 4
    regWord [(0, 32, (s.pcore d ⟨p % 18, by omega⟩).word.toNat), (32, 32, (s.pcore d ⟨(p + 1) % 18, by omega⟩).word.toNat)]
  else if 0x30000 ≤ off ∧ off < 0x31000 ∧ off % 0x80 = 0 then
    s.runStat ⟨(32 * d.val + (off - 0x30000) / 0x80) % 128, by omega⟩
  else if 0x40000 ≤ off ∧ off < 0x40080 then (x.bars[(⟨(off - 0x40000) / 8 % 16, by omega⟩ : Fin 16)]).cfg
  else if 0x40100 ≤ off ∧ off < 0x40180 then (x.bars[(⟨(off - 0x40100) / 8 % 16, by omega⟩ : Fin 16)]).stat
  else if off = 0x40200 then x.str.reg
  else if 0x41000 ≤ off ∧ off < 0x41800 then
    ((s.core ⟨(16 * d.val + (off - 0x41000) / 0x80) % 64, by omega⟩).arch.watches[(⟨off % 0x80 / 8 % 16, by omega⟩ : Fin 16)]).reg
  else if 0x50000 ≤ off ∧ off < 0x50090 then (s.pcore d ⟨(off - 0x50000) / 8 % 18, by omega⟩).cdCore
  else if off = 0x50100 then regWord [(0, 48, x.saveBase.toNat)]
  else if off = 0x60000 then (s.tapers[(⟨d.val, by omega⟩ : Fin 5)]).reg
  else if 0x60100 ≤ off ∧ off < 0x60140 then (s.tapers[(⟨d.val, by omega⟩ : Fin 5)]).slackWord ((off - 0x60100) / 8)
  else if 0x70000 ≤ off ∧ off < 0x71000 then s.linkReg d .die (off - 0x70000)
  else if 0x80000 ≤ off ∧ off < 0x80200 ∧ off % 0x40 = 0 then (s.hbms[(⟨(8 * d.val + (off - 0x80000) / 0x40) % 32, by omega⟩ : Fin 32)]).stat
  else if 0x80000 ≤ off ∧ off < 0x80200 ∧ off % 0x40 = 8 then (s.hbms[(⟨(8 * d.val + (off - 0x80000) / 0x40) % 32, by omega⟩ : Fin 32)]).scrub
  else 0

/-- The register at an offset of BAR0, 8-byte aligned. A die that is stopped whole does not answer (R26). The core state windows (R162)
have their own row. [DESIGN CHOICE: log 96] -/
def State.readReg (s : State) (off : BitVec 27) : Word :=
  let n := off.toNat / 8 * 8
  if n < 0x1000000 then s.hubReg n
  else if n < 0x5000000 then
    let d : DieId := ⟨(n - 0x1000000) / 0x1000000 % 4, by omega⟩
    if s.dieOut d then 0 else s.dieReg d (n % 0x1000000)
  else 0

end Sys2Proof.Machine
end

