-- ==== Sys2Proof/Safety.lean ====
section
/-! DEFINITION. What a run of the module is safe from, and the terms in which claims are stated. -/

namespace Sys2Proof

/-- A step that answers a next state: no fault and no refusal. -/
def completes (s : Machine.State) : Bool :=
  match Machine.step s with
  | .next _ => true
  | _ => false

namespace Machine

/-- The outcome of a command that answers a next state. -/
abbrev Next (t : State) : Host.Outcome State Fault Refusal := .next t

/-- Core k can start an operation in its current program cycle: the grade has it (R3), its die runs (R26, R467, R488), and no hold
keeps it (R67). -/
def State.canStart (s : State) (k : CoreId) : Prop :=
  s.hasCore k = true ∧ s.dieHeld (dieOf k) = false ∧ ((s.settle k).core k).held = false

/-- The state in which a slot of core k has started an operation in the current cycle, after everything else of that cycle: only
the core's list of operations in flight is longer, by one that lands `lat` cycles on (R136). -/
def State.withFlying (s : State) (k : CoreId) (slot : SlotId) (lat : Nat) (body : OpBody) : State :=
  let u := s.settle k
  { u with cores := vupd u.cores k fun c =>
      { c with inflight := c.inflight ++ [⟨slot, c.arch.seq.pc, c.now, c.now + lat, body⟩] } }

/-- A register of core k as an operation that starts in the current cycle reads it (R137). -/
def State.sregNow (s : State) (k : CoreId) (r : Reg) : Word := ((s.settle k).core k).arch.sregs[r]

/-- A vector register of core k as an operation that starts in the current cycle reads it (R137). -/
def State.vregNow (s : State) (k : CoreId) (r : Reg) : VReg := ((s.settle k).core k).arch.vregs[r]

/-- What an operation in flight of core k writes, if its memory is read in state v (R137). -/
def State.bodyWrites (v : State) (k : CoreId) : OpBody → List Wr
  | .read r => v.doRead k r
  | .writes ws => ws

/-- Command i starts one operation in a slot of core k and changes nothing else; it lands `lat` cycles on and then makes the writes
`ws v`, v being the state of the same module in which its memory is read. -/
def State.startsSlot (s : State) (k : CoreId) (i : Instr) (slot : SlotId) (lat : Nat) (ws : State → List Wr) : Prop :=
  ∃ body, exec i s = Next (s.withFlying k slot lat body) ∧ ∀ v : State, v.fuses = s.fuses → v.bodyWrites k body = ws v

/-- An access of a slot of core k in the current cycle lies in the core's own Basin or Cistern (R170). -/
def State.localNow (s : State) (k : CoreId) (a n : Nat) : Prop := ((s.settle k).reach k a n).isLocal = true

/-- The bytes of a vector's second operand are local to core k; a register always is (R170, R178). -/
def State.srcLocal (s : State) (k : CoreId) : VSrc → Prop
  | .reg _ => True
  | .row sa off => s.localNow k (rowAddr (s.sregNow k sa) off) 1024

/-- A vector's second operand: a register as the issue cycle reads it, or 256 lanes of memory as state v holds it (R178). -/
def State.srcLanes (s v : State) (k : CoreId) : VSrc → VReg
  | .reg vb => s.vregNow k vb
  | .row sa off =>
    Vector.ofFn fun (j : Fin 256) => BitVec.ofNat 32 (leNat (Memory.bytes v.mem (rowAddr (s.sregNow k sa) off + 4 * j.val) 4))

/-- The latency of a lane operation: 4, or 8 with a memory row (R138). -/
def srcLat : VSrc → Nat
  | .reg _ => 4
  | .row _ _ => 8

/-- Core k has nothing due in its current cycle: nothing in flight, no matrix operation, no hold, and the cycle not begun. -/
def Core.atRest (c : Core) : Prop :=
  c.inflight = [] ∧ c.mxq = [] ∧ c.hold = none ∧ c.relay = .none ∧ c.notes = [] ∧ c.landed = [] ∧ c.stage = 0 ∧
    c.bankHold = 0 ∧ c.farWait = [] ∧ c.outside = [] ∧ c.arch.seq.phase = .stopped

/-- Core k is stopped and has nothing in its slots, its network or its network's notes; its array holds exactly operation o, whose
only part is q, and the current cycle has come as far as `stage`. -/
def Core.arrayOnly (c : Core) (k : CoreId) (o : MxOp) (q : MxPart) (stage : Nat) : Prop :=
  c.mxq = [o] ∧ o.parts = [q] ∧ q.core = k ∧ c.inflight = [] ∧ c.hold = none ∧ c.relay = .none ∧ c.notes = [] ∧ c.landed = [] ∧
    c.watchers = [] ∧ c.bankHold = 0 ∧ c.farWait = [] ∧ c.outside = [] ∧ c.stage = stage ∧ c.arch.seq.phase = .stopped

/-- Outside the cores, t differs from s only in what waiting heads of queues keep of their dependencies, which are judged in every cycle
that passes (R252, R253). -/
def State.onlyCores (s t : State) : Prop :=
  { t with cores := s.cores, queues := s.queues, ready := s.ready } = s ∧
    ∀ q, { t.queue q with
      head := (s.queue q).head, w1 := (s.queue q).w1, w2 := (s.queue q).w2, depHalt := (s.queue q).depHalt } = s.queue q

/-- t differs from s only in queue q, which is y, and in what waiting heads keep of their dependencies and of what has been read ahead: a
change of a queue lets every waiting head be judged anew (R247, R252, R253). -/
def State.onlyQueue (s t : State) (q : Nat) (y : Queue) : Prop :=
  { t with queues := s.queues, ready := s.ready } = s ∧
    { t.queue q with
      head := y.head, ahead := y.ahead, w1 := y.w1, w2 := y.w2, depHalt := y.depHalt } = y ∧
    ∀ r, r ≠ q → { t.queue r with
      head := (s.queue r).head, w1 := (s.queue r).w1, w2 := (s.queue r).w2, depHalt := (s.queue r).depHalt } = s.queue r

/-- Core k brought to its next issue (R133, R149, R155): the state in which bundle `PC` issues, if nothing comes before it. -/
def State.nextIssue (s : State) (k : CoreId) : Option State :=
  match (s.core k).issueCycle with
  | none => none
  | some t =>
    let u := (s.runTo k t).settle k
    if (u.core k).issueDue ∧ (u.core k).held = false then some u else none

/-- Core k has its next issue in state u: the grade has the core, its die runs, and u is the state its next bundle issues in. -/
def State.issuesIn (s : State) (k : CoreId) (u : State) : Prop :=
  s.hasCore k = true ∧ s.dieHeld (dieOf k) = false ∧ s.nextIssue k = some u

/-- Core k's sequencer changed by an issue in state u, in a cycle that is then no wait cycle; nothing else changes. -/
def State.withSeq (u : State) (k : CoreId) (f : SeqState → SeqState) : State :=
  u.updCore k fun c => { c with issued := true, arch := { c.arch with seq := f { c.arch.seq with issued := c.arch.seq.issued + 1 } } }

/-- Every memory of the module is in its canonical form: device memory, what the stacks' free slices hold, host memory, the payloads of
the mailboxes, and the images that the guard's banks (R335) and the core save slots of the dies (R359) keep. -/
def State.canonical (s : State) : Prop :=
  Memory.wf s.mem = true ∧ Memory.wf s.shelf.mem = true ∧ Memory.wf s.hostMem = true ∧ (∀ i : Fin 8, Memory.wf s.clerk.slots[i].payload = true) ∧
    (∀ b, s.guard.bank0 = some b ∨ s.guard.bank1 = some b → ∀ im ∈ b.cores, Memory.wf im.mem = true) ∧
    (∀ (d : DieId) (i : Fin 2) v, s.save d i = some v → Memory.wf v.image.mem = true)

end Machine

end Sys2Proof
end

