-- ==== Sys2Proof/Certificates/Slice0/Obligations.lean ====
section
/-! DEFINITION. The statements for the provers, from the numbered rules of the spec, in the order of its chapters. A free value of
Config stands under its own name in a statement, which holds whatever its value is. -/

open Sys2Proof Sys2Proof.Machine

/-- R174, the two-register forms: each starts one operation that lands one cycle later with the value of the table, and changes
nothing else. -/
def Obligations.ScalarRegisterForms : Prop :=
  ∀ (s : State) (k : CoreId) (sd sa sb : Reg), s.canStart k →
    let a := s.sregNow k sa
    let b := s.sregNow k sb
    let lands (v : Word) := Next (s.withFlying k .scalar 1 (.writes [.sreg sd v]))
    exec (.add k sd sa sb) s = lands (a + b) ∧
    exec (.sub k sd sa sb) s = lands (a - b) ∧
    exec (.and k sd sa sb) s = lands (a &&& b) ∧
    exec (.or k sd sa sb) s = lands (a ||| b) ∧
    exec (.xor k sd sa sb) s = lands (a ^^^ b) ∧
    exec (.shl k sd sa sb) s = lands (BitVec.ofNat 64 (a.toNat * 2 ^ (b.toNat % 64))) ∧
    exec (.shr k sd sa sb) s = lands (BitVec.ofNat 64 (a.toNat / 2 ^ (b.toNat % 64))) ∧
    exec (.sar k sd sa sb) s = lands (BitVec.ofInt 64 (a.toInt / 2 ^ (b.toNat % 64))) ∧
    exec (.min k sd sa sb) s = lands (if a.toInt ≤ b.toInt then a else b) ∧
    exec (.max k sd sa sb) s = lands (if a.toInt ≤ b.toInt then b else a) ∧
    exec (.minu k sd sa sb) s = lands (if a.toNat ≤ b.toNat then a else b) ∧
    exec (.maxu k sd sa sb) s = lands (if a.toNat ≤ b.toNat then b else a) ∧
    exec (.seq k sd sa sb) s = lands (if a = b then 1 else 0) ∧
    exec (.slt k sd sa sb) s = lands (if a.toInt < b.toInt then 1 else 0) ∧
    exec (.sltu k sd sa sb) s = lands (if a.toNat < b.toNat then 1 else 0)

/-- R174, the immediate forms: the second operand is `IMM` sign-extended to 64 bits (R173). -/
def Obligations.ScalarImmediateForms : Prop :=
  ∀ (s : State) (k : CoreId) (sd sa sb : Reg) (imm : BitVec 32), s.canStart k →
    let a := s.sregNow k sa
    let b : Word := BitVec.ofInt 64 imm.toInt
    let lands (v : Word) := Next (s.withFlying k .scalar 1 (.writes [.sreg sd v]))
    exec (.addi k sd sa imm) s = lands (a + b) ∧
    exec (.subi k sd sa imm) s = lands (a - b) ∧
    exec (.andi k sd sa imm) s = lands (a &&& b) ∧
    exec (.ori k sd sa imm) s = lands (a ||| b) ∧
    exec (.xori k sd sa imm) s = lands (a ^^^ b) ∧
    exec (.shli k sd sa imm) s = lands (BitVec.ofNat 64 (a.toNat * 2 ^ (b.toNat % 64))) ∧
    exec (.shri k sd sa imm) s = lands (BitVec.ofNat 64 (a.toNat / 2 ^ (b.toNat % 64))) ∧
    exec (.sari k sd sa imm) s = lands (BitVec.ofInt 64 (a.toInt / 2 ^ (b.toNat % 64))) ∧
    exec (.mini k sd sa imm) s = lands (if a.toInt ≤ b.toInt then a else b) ∧
    exec (.maxi k sd sa imm) s = lands (if a.toInt ≤ b.toInt then b else a) ∧
    exec (.minui k sd sa imm) s = lands (if a.toNat ≤ b.toNat then a else b) ∧
    exec (.maxui k sd sa imm) s = lands (if a.toNat ≤ b.toNat then b else a) ∧
    exec (.seqi k sd sa imm) s = lands (if a = b then 1 else 0) ∧
    exec (.slti k sd sa imm) s = lands (if a.toInt < b.toInt then 1 else 0) ∧
    exec (.sltui k sd sa imm) s = lands (if a.toNat < b.toNat then 1 else 0) ∧
    exec (.movi k sd imm) s = lands b ∧
    exec (.movhi k sd sa imm) s = lands (BitVec.ofNat 64 (imm.toNat * 2 ^ 32 + a.toNat % 2 ^ 32)) ∧
    exec (.sel k sd sa sb imm) s = lands (if a = 0 then b else s.sregNow k sb)

/-- R174: the multiplies land four cycles later with the low or the high half of the product. -/
def Obligations.ScalarMultiplies : Prop :=
  ∀ (s : State) (k : CoreId) (sd sa sb : Reg), s.canStart k →
    let a := s.sregNow k sa
    let b := s.sregNow k sb
    let lands (v : Word) := Next (s.withFlying k .scalar 4 (.writes [.sreg sd v]))
    exec (.mul k sd sa sb) s = lands (BitVec.ofNat 64 (a.toNat * b.toNat)) ∧
    exec (.mulh k sd sa sb) s = lands (BitVec.ofInt 64 (a.toInt * b.toInt / 2 ^ 64)) ∧
    exec (.mulhu k sd sa sb) s = lands (BitVec.ofNat 64 (a.toNat * b.toNat / 2 ^ 64))

/-- R175 and R176: core registers and tile metadata are read and written two cycles after the issue; a selector that is not listed
stops the sequencer as a bad bundle does (R157, R166). -/
def Obligations.CoreRegisterForms : Prop :=
  ∀ (s : State) (k : CoreId) (sd sa : Reg) (sx : BitVec 9), s.canStart k →
    let c := (s.settle k).core k
    let a := s.sregNow k sa
    let lands (w : Wr) := Next (s.withFlying k .scalar 2 (.writes [w]))
    let tile : Fin 64 := ⟨sx.toNat % 64, by omega⟩
    (sx = 0 → exec (.rdcr k sd sx) s = lands (.sreg sd (BitVec.ofNat 64 (c.arch.stopCause.toNat * 2 ^ 24 + c.arch.sticky.toNat)))) ∧
    (sx = 1 → exec (.rdcr k sd sx) s = lands (.sreg sd (BitVec.ofNat 64 c.arch.layout.toNat))) ∧
    (sx = 2 → exec (.rdcr k sd sx) s = lands (.sreg sd c.arch.seq.cyc)) ∧
    (sx = 0 → exec (.wrcr k sa sx) s = lands (.w1c (BitVec.ofNat 9 a.toNat))) ∧
    (sx = 1 → a.toNat % 2 ^ 32 < 4 → exec (.wrcr k sa sx) s = lands (.layout (BitVec.ofNat 2 a.toNat))) ∧
    (sx = 1 → 4 ≤ a.toNat % 2 ^ 32 → exec (.wrcr k sa sx) s = lands (.sticky BADFMT)) ∧
    (sx.toNat < 64 → exec (.rdtm k sd sx) s = lands (.sreg sd (BitVec.ofNat 64 c.arch.tiles[tile].low.toNat))) ∧
    (64 ≤ sx.toNat → sx.toNat < 128 → exec (.rdtm k sd sx) s = lands (.sreg sd (BitVec.ofNat 64 c.arch.tiles[tile].cx.toNat))) ∧
    (128 ≤ sx.toNat → sx.toNat < 192 → exec (.rdtm k sd sx) s = lands (.sreg sd (BitVec.ofNat 64 c.arch.tiles[tile].cw.toNat))) ∧
    (sx.toNat < 64 → exec (.wrtm k sa sx) s = lands (.teo tile (BitVec.ofNat 8 a.toNat))) ∧
    (64 ≤ sx.toNat → sx.toNat < 128 → exec (.wrtm k sa sx) s = lands (.cx tile (BitVec.ofNat 32 a.toNat))) ∧
    (128 ≤ sx.toNat → sx.toNat < 192 → exec (.wrtm k sa sx) s = lands (.cw tile (BitVec.ofNat 32 a.toNat))) ∧
    (192 ≤ sx.toNat → exec (.rdtm k sd sx) s = Next ((s.settle k).updCore k Core.badBundle) ∧
      exec (.wrtm k sa sx) s = Next ((s.settle k).updCore k Core.badBundle)) ∧
    (3 ≤ sx.toNat → exec (.rdcr k sd sx) s = Next ((s.settle k).updCore k Core.badBundle)) ∧
    (2 ≤ sx.toNat → exec (.wrcr k sa sx) s = Next ((s.settle k).updCore k Core.badBundle))

/-- A step with a command in front is that command on the state with the rest of the queue. -/
def Obligations.StepRunsFrontCommand : Prop :=
  ∀ (s : State) (c : Instr) (rest : List Instr),
    step { s with pending := c :: rest } = exec c { s with pending := rest }

/-- On an empty queue one ACLK cycle passes (the model's choice, log entries 2 and 13): the step completes, in a dark machine the hot-swap
sequence of R476 goes on by a step, or in its step 4 by a rail, and an idle machine, in which
no core, no STEPCLOSE and no mailbox command has anything to do, keeps everything but the cores, whose program time goes on where they run
and are not throttled, the count of cycles, the marks of the cycle's copies and what the heads of queues that wait keep of their
dependencies. -/
def Obligations.StepIdlePassesOneCycle : Prop :=
  ∀ (s : State), s.pending = [] →
    step s = Next s.tick ∧
    (s.dark = true → s.tick = { s with power := { s.power with stage := s.power.stage.next } }) ∧
    Stage.next .off = .off ∧ Stage.next .on = .on ∧ Stage.next .retry = .step 1 0 ∧
    (∀ n r, n < 4 → Stage.next (.step n r) = .step (n + 1) r) ∧ (∀ r, r < 4 → Stage.next (.step 4 r) = .step 4 (r + 1)) ∧
    Stage.next (.step 4 4) = .step 5 4 ∧
    ((∀ k, (s.core k).atRest) → (∀ k, (s.core k).watchers = []) →
      s.dark = false → (∀ q a, s.stepPhase ≠ .twinWait q a) → s.clerk.waiting = [] →
      let u : State := { s with power := { s.power with cycle := (s.power.cycle + 1) % 64 }, baton := s.baton.cycleEnd }
      (u.onlyCores s.tick ∧ ∀ k, ((s.core k).stickyNew = 0 → (s.tick.core k).arch = (s.core k).arch) ∧ (s.tick.core k).now = (s.core k).now +
        (if s.hasCore k ∧ s.dieHeld (dieOf k) = false ∧ s.rotationHeld k = false ∧ u.power.denies k = false then 1 else 0)))

/-- R130, R131, R146, R147, R173-R195: a bundle read back from its own 512 bits is the bundle, for every listed operation in every
slot with every operand, every flow action and every gap. -/
def Obligations.BundleDecodesItsEncoding : Prop :=
  ∀ (cores : Nat) (b : Bundle), b.wf cores = true → Bundle.decode cores b.encode = some b

/-- R157, R166: 512 bits that decode are those of a well-formed bundle, field by field: an enabled slot holds exactly the encoding
of a listed operation, the header holds the enables, the flow code and the gap, and a flow word is exactly its action's. -/
def Obligations.OnlyListedBundlesDecode : Prop :=
  ∀ (cores : Nat) (w : BitVec 512) (b : Bundle), Bundle.decode cores w = some b →
    b.wf cores = true ∧ b.header = w.extractLsb' 0 16 ∧
    (∀ o, b.sc = some o → w.extractLsb' 16 64 = o.encode) ∧
    (∀ o, b.ve = some o → w.extractLsb' 80 96 = o.encode) ∧
    (∀ o, b.mx = some o → w.extractLsb' 176 128 = o.encode) ∧
    (∀ o, b.ld = some o → w.extractLsb' 304 80 = o.encode) ∧
    (∀ o, b.st = some o → w.extractLsb' 384 80 = o.encode) ∧
    (∀ o, b.sy = some o → w.extractLsb' 464 48 = o.encode) ∧
    (∀ v, b.flow.word = some v → w.extractLsb' 16 64 = v)

/-- R136, R143: the landing of the only operation in flight on a stopped core, one that writes a register or a sync counter. The
core's program time is then the landing cycle, exactly that register or counter has changed, and nothing outside the core has but what
the heads of waiting queues keep of their dependencies (R252). A W1C write leaves BADBUN, which a bad bundle's stop sets once the
operations in flight have landed (R157). -/
def Obligations.LandingWritesOneRegister : Prop :=
  ∀ (s : State) (k : CoreId) (no : BitVec 3) (sl : SlotId) (b : BIdx) (i l : Nat) (w : Wr),
    s.hasCore k = true → s.dieHeld (dieOf k) = false →
    ({ s.core k with inflight := [] } : Core).atRest → (s.core k).watchers = [] → (s.core k).stickyNew = 0 →
    (s.core k).inflight = [⟨sl, b, i, l, .writes [w]⟩] → (s.core k).now ≤ l →
    let a := (s.core k).arch
    let lands (a' : CoreArch) := ∃ t, exec (.operationLanding ⟨k, no, .none⟩) s = Next t ∧
      (t.core k).arch = a' ∧ (t.core k).now = l ∧ (t.core k).inflight = [] ∧
      (∀ j, j ≠ k → t.core j = s.core j) ∧ s.onlyCores t
    (∀ r v, w = .sreg r v → lands { a with sregs := a.sregs.set r.val v }) ∧
    (∀ r v, w = .vreg r v → lands { a with vregs := a.vregs.set r.val v }) ∧
    (∀ r n, w = .count r n →
      lands { a with sregs := a.sregs.set r.val (BitVec.ofNat 64 (min (a.sregs[r].toNat + n) (2 ^ 64 - 1))) }) ∧
    (∀ c v, w = .ctr c true v → lands { a with ctrs := a.ctrs.set c.val v }) ∧
    (∀ c v, w = .ctr c false v → lands { a with ctrs := a.ctrs.set c.val (a.ctrs[c] + v) }) ∧
    (∀ v, w = .layout v → lands { a with layout := v }) ∧
    (∀ m, w = .w1c m → a.stopCause ≠ 0x03 → lands { a with sticky := a.sticky &&& ~~~m }) ∧
    (∀ m, w = .w1c m → a.stopCause = 0x03 → lands { a with sticky := a.sticky &&& ~~~(m &&& ~~~BADBUN) })

/-- R136, R191, R212: the landing of the only operation in flight on a stopped core, a store of bytes to its Basin. Every byte
outside the stored ones reads as before, the stored ones read as stored, the valid marks of the blocks touched are cleared and no
other block's bib changes; no register and no other core changes. -/
def Obligations.LandingStoresItsBytes : Prop :=
  ∀ (s : State) (k : CoreId) (no : BitVec 3) (b : BIdx) (i l addr : Nat) (bs : List Byte),
    s.hasCore k = true → s.dieHeld (dieOf k) = false →
    ({ s.core k with inflight := [] } : Core).atRest → (s.core k).watchers = [] → (s.core k).stickyNew = 0 →
    (s.core k).inflight = [⟨.store, b, i, l, .writes [.mem addr bs]⟩] → (s.core k).now ≤ l →
    Memory.wf s.mem = true → Sparse.sorted s.bibs = true → bs ≠ [] → bs.length ≤ 1024 → 0x800000000000 ≤ addr →
    ∃ t, exec (.operationLanding ⟨k, no, .none⟩) s = Next t ∧
      (∀ x, x < addr ∨ addr + bs.length ≤ x → Memory.byte t.mem x = Memory.byte s.mem x) ∧
      (∀ (n : Nat) (h : n < bs.length), Memory.byte t.mem (addr + n) = bs[n]) ∧
      Sparse.find t.bibs (addr / 4096) = none ∧ Sparse.find t.bibs ((addr + bs.length - 1) / 4096) = none ∧
      (∀ n, n ≠ addr / 4096 → n ≠ (addr + bs.length - 1) / 4096 → Sparse.find t.bibs n = Sparse.find s.bibs n) ∧
      (t.core k).arch = (s.core k).arch ∧ (∀ j, j ≠ k → t.core j = s.core j) ∧
      s.onlyCores { t with mem := s.mem, bibs := s.bibs }

/-- R151: NEXT goes to the next bundle, or from the end bundle of the innermost loop of the current call depth to its start while
iterations remain; past index 8,191 the core stops where it would issue (R134). -/
def Obligations.NextAndLoopEnds : Prop :=
  ∀ (s u : State) (k : CoreId), s.issuesIn k u → (u.core k).far.length ≤ 32 →
    let q := (u.core k).arch.seq
    let at1 := Phase.issuing ((u.core k).now + 1)
    ((u.core k).atLoopEnd = false → q.pc ≠ 8191 →
      exec (.flowNext k) s = Next (u.withSeq k fun q => { q with pc := q.pc + 1, phase := at1, past := false })) ∧
    ((u.core k).atLoopEnd = false → q.pc = 8191 →
      exec (.flowNext k) s = Next (u.withSeq k fun q => { q with phase := at1, past := true })) ∧
    (∀ e l, q.lstk = e :: l → e.last = q.pc → e.depth = q.cstk.length → 1 < e.remaining.toNat →
      exec (.flowNext k) s = Next (u.withSeq k fun q =>
        { q with pc := e.start, lstk := { e with remaining := e.remaining - 1 } :: l, phase := at1, past := false })) ∧
    (∀ e l, q.lstk = e :: l → e.last = q.pc → e.depth = q.cstk.length → e.remaining.toNat ≤ 1 → q.pc ≠ 8191 →
      (∀ e', l.head? = some e' → e'.last = q.pc → e'.depth ≠ q.cstk.length) →
      exec (.flowNext k) s = Next (u.withSeq k fun q => { q with pc := q.pc + 1, lstk := l, phase := at1, past := false }))

/-- R148, R149, R152: a taken transfer issues its target three cycles later and pops the innermost loop entries of the current call
depth whose body does not hold the target; a branch not taken goes to the next bundle. -/
def Obligations.BranchesTransfer : Prop :=
  ∀ (s u : State) (k : CoreId) (t : BIdx), s.issuesIn k u → (u.core k).far.length ≤ 32 → (u.core k).atLoopEnd = false →
    let q := (u.core k).arch.seq
    let now := (u.core k).now
    let kept := q.lstk.dropWhile fun e => decide (e.depth = q.cstk.length ∧ ¬ (e.start.toNat ≤ t.toNat ∧ t.toNat ≤ e.last.toNat))
    let taken := Next (u.withSeq k fun q => { q with pc := t, lstk := kept, phase := .bubble (now + 3), past := false })
    let falls := Next (u.withSeq k fun q => { q with pc := q.pc + 1, phase := .issuing (now + 1), past := false })
    exec (.br k t) s = taken ∧
    (∀ (r : Reg) (cond : BitVec 3) (bitn : BitVec 6), (cond.toNat < 6 → bitn = 0) → q.pc ≠ 8191 →
      let v := (u.core k).arch.sregs[r]
      let holds : Prop := match cond.toNat with
        | 0 => v = 0 | 1 => v ≠ 0 | 2 => v.toInt < 0 | 3 => 0 ≤ v.toInt | 4 => 0 < v.toInt | 5 => v.toInt ≤ 0
        | 6 => v.getLsbD bitn.toNat = true | _ => v.getLsbD bitn.toNat = false
      (holds → exec (.brc k r false cond bitn t) s = taken) ∧ (¬ holds → exec (.brc k r false cond bitn t) s = falls)) ∧
    (∀ (r : Reg) (cond : BitVec 3), cond.toNat < 6 → q.pc ≠ 8191 →
      let x := a32Val ((u.core k).arch.sregs[r].extractLsb' 0 32)
      let zero := FVal.fin false 0 0
      let holds : Prop := match cond.toNat with
        | 0 => x.isZero = true | 1 => x.isZero = false | 2 => x.lt zero = true | 3 => x.isZero = true ∨ zero.lt x = true
        | 4 => zero.lt x = true | _ => x.isZero = true ∨ x.lt zero = true
      (holds → exec (.brc k r true cond 0 t) s = taken) ∧ (¬ holds → exec (.brc k r true cond 0 t) s = falls))

/-- R150, R153: LOOP pushes its entry and goes into the body, or with a count of 0 past its end; CALL pushes the next index and RET
pops it, with the loop entries of deeper calls. -/
def Obligations.LoopsAndCalls : Prop :=
  ∀ (s u : State) (k : CoreId) (t : BIdx), s.issuesIn k u → (u.core k).far.length ≤ 32 → (u.core k).atLoopEnd = false →
    let q := (u.core k).arch.seq
    let d := q.cstk.length
    let now := (u.core k).now
    (∀ (csrc : Bool) (cimm : BitVec 16) (r : Reg), (if csrc then cimm = 0 else r = 0) → q.lstk.length < 4 →
      q.pc.toNat < t.toNat →
      let n : BitVec 32 := if csrc then (u.core k).arch.sregs[r].extractLsb' 0 32 else cimm.zeroExtend 32
      (n ≠ 0 → exec (.loop k csrc cimm r t) s = Next (u.withSeq k fun q =>
        { q with pc := q.pc + 1, lstk := ⟨d, q.pc + 1, t, n⟩ :: q.lstk, phase := .issuing (now + 1), past := false })) ∧
      (n = 0 → t ≠ 8191 → (∀ e, q.lstk.head? = some e → e.depth = d → e.last ≠ t) →
        exec (.loop k csrc cimm r t) s = Next (u.withSeq k fun q =>
          { q with pc := t + 1, phase := .bubble (now + 3), past := false,
                   lstk := q.lstk.dropWhile fun e =>
                     decide (e.depth = d ∧ ¬ (e.start.toNat ≤ t.toNat + 1 ∧ t.toNat + 1 ≤ e.last.toNat)) }))) ∧
    (d < 8 → exec (.call k t) s = Next (u.withSeq k fun q =>
      { q with pc := t, cstk := (q.pc.toNat + 1) :: q.cstk, phase := .bubble (now + 3), past := false })) ∧
    (∀ r l, q.cstk = r :: l → r < 8192 → exec (.ret k) s = Next (u.withSeq k fun q =>
      { q with pc := BitVec.ofNat 13 r, cstk := l, lstk := q.lstk.filter fun e => decide (e.depth ≤ l.length),
               phase := .bubble (now + 3), past := false }))

/-- R154-R156: WAIT waits for its slot's notification, or consumes one that has arrived; FENCE and HALT wait for the operations in
flight; each is issued unless it is the last bundle of a prefix (R161). -/
def Obligations.WaitsFencesHalts : Prop :=
  ∀ (s u : State) (k : CoreId) (ws : Fin 16), s.issuesIn k u → (u.core k).far.length ≤ 32 → (u.core k).atLoopEnd = false →
    (∀ l, (u.core k).launch = some l → l.stopN = 0 ∨ l.stopN ≠ (u.core k).arch.seq.issued + 1) →
    let q := (u.core k).arch.seq
    let now := (u.core k).now
    let w := (u.core k).arch.watches[ws]
    (w.wst = .armed → q.pc ≠ 8191 → exec (.wait k ws) s = Next (u.withSeq k fun q =>
      { q with pc := q.pc + 1, phase := .wait ws, past := false })) ∧
    (w.wst = .notified → q.pc ≠ 8191 → exec (.wait k ws) s = Next ((u.withSeq k fun q =>
      { q with pc := q.pc + 1, phase := .issuing (now + 1), past := false }).updArch k fun a =>
        { a with watches := a.watches.set ws.val { w with wst := .empty } })) ∧
    (q.pc ≠ 8191 → exec (.fence k) s = Next (u.withSeq k fun q =>
      { q with pc := q.pc + 1, phase := .fence (now + 1), past := false })) ∧
    exec (.halt k) s = Next (u.withSeq k fun q => { q with phase := .halting (now + 1) })

/-- R150, R153, R154, R157: a flow action that its rule forbids is not issued; the core stops at the bundle with cause 0x03 and
BADBUN, and STKERR where a stack is full or empty. -/
def Obligations.BadFlowsStop : Prop :=
  ∀ (s u : State) (k : CoreId) (t : BIdx), s.issuesIn k u → (u.core k).far.length ≤ 32 →
    let q := (u.core k).arch.seq
    let stops (m : BitVec 9) := Next (u.updCore k fun c =>
      { c with stickyNew := c.stickyNew ||| BADBUN ||| m,
               arch := { c.arch with stopCause := 0x03, seq := { c.arch.seq with phase := .stopped } } })
    (q.lstk.length = 4 → (∀ n, exec (.loop k false n 0 t) s = stops STKERR)) ∧
    (q.lstk.length < 4 → t.toNat ≤ q.pc.toNat → (∀ n, exec (.loop k false n 0 t) s = stops 0)) ∧
    (q.cstk.length = 8 → exec (.call k t) s = stops STKERR) ∧
    (q.cstk.length < 8 → (u.core k).atLoopEnd = false → ∃ v, exec (.call k t) s = Next v ∧
      (v.core k).arch.seq.cstk = (q.pc.toNat + 1) :: q.cstk) ∧
    (q.cstk = [] → exec (.ret k) s = stops STKERR) ∧
    (∀ ws : Fin 16, (u.core k).arch.watches[ws].wst = .empty → exec (.wait k ws) s = stops 0) ∧
    ((u.core k).atLoopEnd = true →
      exec (.br k t) s = stops 0 ∧ exec (.halt k) s = stops 0 ∧
      (q.cstk.length < 8 → exec (.call k t) s = stops 0) ∧ (q.cstk ≠ [] → exec (.ret k) s = stops 0))

/-- R133, R135, R157, R172: the bundle at `PC` issues: its slots start, `ISSUED` counts it and its flow acts. One that does not
decode is not issued and stops the core; one without places for its far accesses waits; one with them that is bad by its flow is not
issued and stops the core. The fetch corrects a
single-bit upset and counts it; with a double-bit error the bundle does not issue and the core has a fault (R332). -/
def Obligations.BundleIssues : Prop :=
  ∀ (s u : State) (k : CoreId), s.issuesIn k u →
    let c := u.core k
    let now := c.now
    let got := Bundle.decode u.coreCount (BitVec.ofNat 512 (leNat (Memory.bytes u.mem (istoreBase k + 64 * c.arch.seq.pc.toNat) 64)))
    let stops (m : BitVec 9) := Next (u.updCore k fun c =>
      { c with stickyNew := c.stickyNew ||| BADBUN ||| m,
               arch := { c.arch with stopCause := 0x03, seq := { c.arch.seq with phase := .stopped } } })
    (got = none → exec (.bundleIssue ⟨k, .none⟩) s = stops 0) ∧
    (∀ b m, got = some b → c.far.length + u.farCount k b.ld b.st ≤ 32 → c.flowBad b.flow = some m →
      exec (.bundleIssue ⟨k, .none⟩) s = stops m) ∧
    (∀ b, got = some b → 32 < c.far.length + u.farCount k b.ld b.st →
      exec (.bundleIssue ⟨k, .none⟩) s = Next u) ∧
    (∀ b, got = some b → c.flowBad b.flow = none → c.far.length + u.farCount k b.ld b.st ≤ 32 →
      ∃ t, exec (.bundleIssue ⟨k, .none⟩) s = Next t ∧ (t.core k).arch.seq.issued = c.arch.seq.issued + 1 ∧
        (t.core k).now = now ∧ (t.core k).arch.sregs = c.arch.sregs ∧ (t.core k).arch.vregs = c.arch.vregs ∧
        (t.core k).arch.ctrs = c.arch.ctrs) ∧
    (∀ o gap, got = some ⟨some o, none, none, none, none, none, .next, gap⟩ → c.far.length ≤ 32 →
      let started := u.updCore k fun c =>
        { c with inflight := c.inflight ++ [⟨.scalar, c.arch.seq.pc, now, now + o.lat, .writes (c.scalarWrites o)⟩] }
      (gap = 0 → c.atLoopEnd = false → c.arch.seq.pc ≠ 8191 →
        exec (.bundleIssue ⟨k, .none⟩) s =
          Next (started.withSeq k fun q => { q with pc := q.pc + 1, past := false, phase := .issuing (now + 1) })) ∧
      (gap ≠ 0 → exec (.bundleIssue ⟨k, .none⟩) s =
        Next (started.withSeq k fun q => { q with phase := .gap (now + 1 + gap.toNat) }))) ∧
    (∀ v, exec (.bundleIssue ⟨k, .none⟩) s = Next v → exec (.bundleIssue ⟨k, .single⟩) s = Next (v.sramCe k)) ∧
    exec (.bundleIssue ⟨k, .double⟩) s = Next (u.coreFault k 2)

/-- R133, R134, R151: the cycles of `GAP` pass with no issue, and the loop-end test follows them; the next bundle issues in the first
cycle after them, or past index 8,191 the core stops with cause 0x04. -/
def Obligations.GapCyclesPass : Prop :=
  ∀ (s : State) (k : CoreId) (a : Nat), s.hasCore k = true → s.dieHeld (dieOf k) = false →
    ((s.core k).setPhase .stopped).atRest → (s.core k).watchers = [] → (s.core k).stickyNew = 0 →
    (∀ l, (s.core k).launch = some l → l.stopN = 0 ∨ l.stopN ≠ (s.core k).arch.seq.issued) →
    (s.core k).arch.seq.phase = .gap a → (s.core k).now ≤ a →
    let q := (s.core k).arch.seq
    let goesOn (cause : BitVec 8) (f : SeqState → SeqState) := ∃ t, exec (.gapExpiry k) s = Next t ∧ (t.core k).now = a ∧
      (t.core k).arch = { (s.core k).arch with
        stopCause := cause
        seq := f { q with cyc := q.cyc + BitVec.ofNat 64 (a - (s.core k).now) } } ∧
      (∀ j, j ≠ k → t.core j = s.core j) ∧ s.onlyCores t
    let kept := (s.core k).arch.stopCause
    ((s.core k).atLoopEnd = false → q.pc ≠ 8191 →
      goesOn kept fun q => { q with pc := q.pc + 1, phase := .issuing a, past := false }) ∧
    ((s.core k).atLoopEnd = false → q.pc = 8191 →
      goesOn 0x04 fun q => { q with phase := .stopped, past := true }) ∧
    (∀ e l, q.lstk = e :: l → e.last = q.pc → e.depth = q.cstk.length → 1 < e.remaining.toNat →
      goesOn kept fun q =>
        { q with pc := e.start, lstk := { e with remaining := e.remaining - 1 } :: l, phase := .issuing a, past := false }) ∧
    (∀ e l, q.lstk = e :: l → e.last = q.pc → e.depth = q.cstk.length → e.remaining.toNat ≤ 1 → q.pc ≠ 8191 →
      (∀ e', l.head? = some e' → e'.last = q.pc → e'.depth ≠ q.cstk.length) →
      goesOn kept fun q => { q with pc := q.pc + 1, lstk := l, phase := .issuing a, past := false })

/-- R161, R163: when `ISSUED` reaches N the core stops with cause 0x02, its gap cycles over. LAND leaves the work in flight to land and
records none; EDGE discards the operations issued after the last wait cycle and records each with the cycles it had left; the array's next
operation then follows the last one that is left (R69). A MRELAY or MLEND still in its wait is discarded too; its entry counts the cycles to
the landing that R76 and R77 fix for it. -/
def Obligations.PrefixStops : Prop :=
  ∀ (s u : State) (k : CoreId) (l : Launch), s.hasCore k = true → s.dieHeld (dieOf k) = false → u = s.settle k →
    (u.core k).held = false → (u.core k).arch.seq.phase ≠ .stopped → (u.core k).launch = some l → l.stopN ≠ 0 →
    l.stopN = (u.core k).arch.seq.issued →
    let stopped (c : Core) : Core :=
      let c := match c.arch.seq.phase with
        | .gap a => c.flowNext a Phase.issuing
        | _ => c
      { c with arch := { c.arch with stopCause := 0x02, seq := { c.arch.seq with phase := .stopped } } }
    let gone := ((u.core k).inflight.filter fun o => decide (l.lastWait ≤ o.issue)).length +
      ((u.core k).mxq.filter fun o => decide (l.lastWait ≤ o.c)).length
    let plain := ∀ o ∈ (u.core k).mxq, l.lastWait ≤ o.c → o.arm = false ∧ o.relay = false
    (l.edge = false → exec (.prefixStop k) s = Next (u.updCore k fun c => { stopped c with dump := [0] })) ∧
    (l.edge = true → (u.core k).relay.waits = none → plain →
      ∃ entries : List Word, exec (.prefixStop k) s = Next (u.updCore k fun c =>
        { stopped c with
          inflight := c.inflight.filter fun o => decide (o.issue < l.lastWait)
          mxq := c.mxq.filter fun o => decide (o.c < l.lastWait)
          lastBO := match (c.mxq.filter fun o => decide (o.c < l.lastWait)).getLast? with
            | some o => o.b + o.o
            | none => 0
          dump := BitVec.ofNat 64 entries.length :: entries }) ∧
        entries.length = gone ∧
        (∀ o ∈ (u.core k).inflight, l.lastWait ≤ o.issue →
          BitVec.ofNat 64 ((min (o.land - (u.core k).now) 0xFFFFFFFF) * 2 ^ 32 + o.slot.code * 2 ^ 16 + o.bidx.toNat) ∈ entries)) ∧
    (∀ b, l.edge = true → (u.core k).relay.waits = some b → plain →
      ∃ (entries : List Word) (t : State), exec (.prefixStop k) s = Next t ∧ (t.core k).relay = .none ∧
        (t.core k).dump = BitVec.ofNat 64 entries.length :: entries ∧ entries.length = gone + 1 ∧
        BitVec.ofNat 64 ((min (u.waitLanding k - (u.core k).now) 0xFFFFFFFF) * 2 ^ 32 + 2 * 2 ^ 16 + b.toNat) ∈ entries)

/-- R178-R181: the two-operand lane arithmetic in its formats G16 (3), A32 (5) and I32 (7): every lane of the destination gets the
rounded exact result, or the wrapped integer one, from a register or from a memory row read two cycles after the issue. -/
def Obligations.LaneArithmetic : Prop :=
  ∀ (s : State) (k : CoreId) (vd va : Reg) (b : VSrc), s.canStart k → s.srcLocal k b →
    let does (i : Instr) (f : Lane → Lane → Lane) :=
      s.startsSlot k i .vector (srcLat b) fun v => [.vreg vd (Vector.zipWith f (s.vregNow k va) (s.srcLanes v k b))]
    does (.vadd k 7 vd va b) (fun x y => x + y) ∧
    does (.vsub k 7 vd va b) (fun x y => x - y) ∧
    does (.vmul k 7 vd va b) (fun x y => x * y) ∧
    does (.vmin k 7 vd va b) (fun x y => if y.toInt < x.toInt then y else x) ∧
    does (.vmax k 7 vd va b) (fun x y => if x.toInt < y.toInt then y else x) ∧
    (∀ fmt : BitVec 4, fmt = 3 ∨ fmt = 5 →
      does (.vadd k fmt vd va b) (onLane2 fmt FVal.add) ∧
      does (.vsub k fmt vd va b) (onLane2 fmt FVal.sub) ∧
      does (.vmul k fmt vd va b) (onLane2 fmt FVal.mul) ∧
      does (.vmin k fmt vd va b) (onLane2 fmt fun x y => if x.isNan || y.isNan then .nan else if y.ltZ x then y else x) ∧
      does (.vmax k fmt vd va b) (onLane2 fmt fun x y => if x.isNan || y.isNan then .nan else if x.ltZ y then y else x) ∧
      does (.vmaxmag k fmt vd va b) (onLane2 fmt fun x y =>
        if x.isNan && y.isNan then .nan else if x.isNan then y.abs else if y.isNan then x.abs else maxMag x.abs y.abs))

/-- R181, R182: comparisons make a lane all ones where they hold, per half of a lane in G16; selection, bitwise operations and
shifts work on lanes as bits. -/
def Obligations.LaneCompareSelectAndBits : Prop :=
  ∀ (s : State) (k : CoreId) (vd va vc : Reg) (b : VSrc) (cc : BitVec 3), s.canStart k → s.srcLocal k b →
    let does (i : Instr) (f : Lane → Lane → Lane) :=
      s.startsSlot k i .vector (srcLat b) fun v => [.vreg vd (Vector.zipWith f (s.vregNow k va) (s.srcLanes v k b))]
    let rel (x y : Int) : Bool := match cc.toNat with
      | 0 => decide (x = y) | 1 => decide (x ≠ y) | 2 => decide (x < y) | 3 => decide (x ≤ y) | 4 => decide (y < x)
      | _ => decide (y ≤ x)
    let relF (x y : FVal) : Bool := match cc.toNat with
      | 0 => x.eqv y | 1 => !x.eqv y | 2 => x.lt y | 3 => x.le y | 4 => y.lt x | _ => y.le x
    let ones32 (p : Bool) : Lane := if p then BitVec.allOnes 32 else 0
    let ones16 (p : Bool) : BitVec 16 := if p then BitVec.allOnes 16 else 0
    (cc.toNat < 6 → does (.vcmp k 7 cc vd va b) (fun x y => ones32 (rel x.toInt y.toInt)) ∧
      does (.vcmp k 5 cc vd va b) (fun x y => ones32 (relF (a32Val x) (a32Val y))) ∧
      does (.vcmp k 3 cc vd va b) (fun x y =>
        ones16 (relF (g16Val (hi16 x)) (g16Val (hi16 y))) ++ ones16 (relF (g16Val (lo16 x)) (g16Val (lo16 y)))) ∧
      (∀ x y : FVal, x = .nan ∨ y = .nan → relF x y = decide (cc = 1)) ∧
      (∀ (p q : Bool) (d e : Int), FVal.eqv (.fin p 0 d) (.fin q 0 e) = true)) ∧
    (6 ≤ cc.toNat → ∀ fmt, exec (.vcmp k fmt cc vd va b) s = Next ((s.settle k).updCore k Core.badBundle)) ∧
    (∀ w o, VecOp.decode w = some o → w.extractLsb' 38 3 ≠ 0 →
      ∃ fmt c d x y, o = .cmp fmt c d x y ∧ c = w.extractLsb' 38 3 ∧ c.toNat < 6) ∧
    s.startsSlot k (.vsel k vd va vc b) .vector (srcLat b) (fun v =>
      [.vreg vd (Vector.ofFn fun (j : Fin 256) =>
        if (s.vregNow k vc)[j] ≠ 0 then (s.vregNow k va)[j] else (s.srcLanes v k b)[j])]) ∧
    does (.vand k vd va b) (fun x y => x &&& y) ∧
    does (.vor k vd va b) (fun x y => x ||| y) ∧
    does (.vxor k vd va b) (fun x y => x ^^^ y) ∧
    does (.vshl k vd va b) (fun x y => BitVec.ofNat 32 (x.toNat * 2 ^ (y.toNat % 32))) ∧
    does (.vshr k vd va b) (fun x y => BitVec.ofNat 32 (x.toNat / 2 ^ (y.toNat % 32)))

/-- R181: the lane operations of one operand, broadcast, iota, permutation, division and square root. -/
def Obligations.LaneUnaryAndMoves : Prop :=
  ∀ (s : State) (k : CoreId) (vd va vb sa : Reg), s.canStart k →
    let a := s.vregNow k va
    let lo32 : Lane := (s.sregNow k sa).extractLsb' 0 32
    let does (i : Instr) (lat : Nat) (r : VReg) := exec i s = Next (s.withFlying k .vector lat (.writes [.vreg vd r]))
    (∀ fmt : BitVec 4, fmt = 3 ∨ fmt = 5 →
      does (.vabs k fmt vd va) 4 (a.map (onLane1 fmt FVal.abs)) ∧ does (.vneg k fmt vd va) 4 (a.map (onLane1 fmt FVal.neg))) ∧
    does (.vmov k vd va) 4 a ∧
    does (.vbcast k vd sa) 4 (Vector.replicate 256 lo32) ∧
    does (.viota k vd sa) 4 (Vector.ofFn fun (j : Fin 256) => lo32 + BitVec.ofNat 32 j.val) ∧
    does (.vperm k vd va vb) 4 (Vector.ofFn fun (j : Fin 256) =>
      a[(⟨((s.vregNow k vb)[j]).toNat % 256, Nat.mod_lt _ (by decide)⟩ : Fin 256)]) ∧
    does (.vdiv k 5 vd va vb) 16 (Vector.zipWith (fun x y => toA32 ((a32Val x).div (a32Val y))) a (s.vregNow k vb)) ∧
    does (.vsqrt k 5 vd va) 16 (a.map fun x => toA32 (a32Val x).sqrt)

/-- R183: reductions write one scalar register twelve cycles later: integer sums and extremes exactly, floating sums step by step
in ascending order, extremes over the elements that are not NaN. A reduction's other operand fields are 0. -/
def Obligations.Reductions : Prop :=
  ∀ (s : State) (k : CoreId) (sa va : Reg), s.canStart k →
    let a := s.vregNow k va
    let does (i : Instr) (r : Word) := exec i s = Next (s.withFlying k .vector 12 (.writes [.sreg sa r]))
    does (.vrsum k 7 sa va) (BitVec.ofInt 64 (a.toList.map BitVec.toInt).sum) ∧
    (∀ x ∈ a.toList, (∀ y ∈ a.toList, y.toInt ≤ x.toInt) → does (.vrmax k 7 sa va) (BitVec.ofInt 64 x.toInt)) ∧
    (∀ x ∈ a.toList, (∀ y ∈ a.toList, x.toInt ≤ y.toInt) → does (.vrmin k 7 sa va) (BitVec.ofInt 64 x.toInt)) ∧
    (∀ fmt : BitVec 4, fmt = 3 ∨ fmt = 5 → does (.vrsum k fmt sa va) ((sumA32 (elemsOf fmt a)).zeroExtend 64)) ∧
    ((∀ x ∈ elemsOf 5 a, x.isNan = true) →
      does (.vrmax k 5 sa va) (a32NaN.zeroExtend 64) ∧ does (.vrmin k 5 sa va) (a32NaN.zeroExtend 64)) ∧
    (∀ x, extreme FVal.ltZ (elemsOf 5 a) = some x → does (.vrmax k 5 sa va) ((toA32 x).zeroExtend 64)) ∧
    (∀ x, extreme (fun p q => q.ltZ p) (elemsOf 5 a) = some x → does (.vrmin k 5 sa va) ((toA32 x).zeroExtend 64)) ∧
    (∀ fmt : BitVec 4, fmt = 3 ∨ fmt = 5 →
      (∀ x, blockMag (elemsOf fmt a) = some x → does (.vrmaxmag k fmt sa va) ((toA32 x).zeroExtend 64)) ∧
      (blockMag (elemsOf fmt a) = none → does (.vrmaxmag k fmt sa va) 0)) ∧
    (∀ (w : BitVec 96) (f : RedFn) (fmt : BitVec 4) (r v : Reg), VecOp.decode w = some (.red f fmt r v) →
      w.extractLsb' 83 5 = 0 ∧ w.extractLsb' 73 5 = 0 ∧ w.extractLsb' 68 5 = 0 ∧ w.getLsbD 42 = false ∧
      (fmt.toNat < 8 → match f with
        | .sum => fmt = 5 ∨ fmt = 3 ∨ fmt = 7
        | .maxmag => fmt = 5 ∨ fmt = 3
        | _ => fmt = 5 ∨ fmt = 7))

/-- R184-R186: widening, narrowing and the scaled conversions into and out of a vector register; a record that the conversion does
not take sets BADFMT in the cycle in which it would have landed and writes nothing else. Conversions to G4 and G8 count what they
saturate. -/
def Obligations.Conversions : Prop :=
  ∀ (s : State) (k : CoreId) (vd va vb ss sf sa : Reg) (off : BitVec 24) (cnt : Option Reg), s.canStart k →
    let a := s.vregNow k va
    let r := FmtScale.ofWord (s.sregNow k ss)
    let plane (v : State) (n : Nat) := if r.finePlane then
        Memory.bytes v.mem (planeAddr (s.sregNow k sf) (planeLen r.blockAxis n)) (planeLen r.blockAxis n) else []
    let planeLocal := r.finePlane = true →
      s.localNow k (planeAddr (s.sregNow k sf) (planeLen r.blockAxis 256)) (planeLen r.blockAxis 256)
    let vals := a.toList.map a32Val
    exec (.vwidl k vd va) s = Next (s.withFlying k .vector 6 (.writes [.vreg vd (Vector.ofFn fun (j : Fin 256) =>
      widen16 (if j.val % 2 = 0 then lo16 (a[j.val / 2]'(by omega)) else hi16 (a[j.val / 2]'(by omega))))])) ∧
    exec (.vwidh k vd va) s = Next (s.withFlying k .vector 6 (.writes [.vreg vd (Vector.ofFn fun (j : Fin 256) =>
      widen16 (if j.val % 2 = 0 then lo16 (a[128 + j.val / 2]'(by omega)) else hi16 (a[128 + j.val / 2]'(by omega))))])) ∧
    exec (.vnar k vd va vb) s = Next (s.withFlying k .vector 6 (.writes [.vreg vd
      (packV 16 ((a.toList ++ (s.vregNow k vb).toList).map fun x => (toG16 (a32Val x)).toNat))])) ∧
    let counts (n : Nat) : List Wr := match cnt with
      | some c => if r.fmt.toNat < 2 then [.count c n] else []
      | none => []
    (r.okScaled = true → planeLocal → ∀ f, fmtOf r.fmt = some f →
      s.startsSlot k (.venc k vd va ss sf false cnt) .vector (if r.finePlane then 8 else 6) fun v =>
        let e := encodeAll f r (givenFine r (plane v 256)) vals
        .vreg vd (packV (fmtBits r.fmt) e.1) :: counts e.2) ∧
    (r.okAuto = true → s.localNow k (planeAddr (s.sregNow k sf) 8) 8 → ∀ f, fmtOf r.fmt = some f →
      s.startsSlot k (.venc k vd va ss sf true cnt) .vector 6 fun _ =>
        let fs := autoFines f r vals
        let e := encodeAll f r (fun i => fs.getD (i / 32) 0) vals
        [.vreg vd (packV (fmtBits r.fmt) e.1), .mem (planeAddr (s.sregNow k sf) 8) (fs.map fun z => BitVec.ofInt 8 z)] ++
          counts e.2) ∧
    (r.okScaled = false → s.startsSlot k (.venc k vd va ss sf false cnt) .vector (if r.finePlane then 8 else 6) fun _ =>
      [.sticky BADFMT]) ∧
    (r.okScaled = false → s.startsSlot k (.vdec k vd ss sf sa off) .vector 8 fun _ => [.sticky BADFMT]) ∧
    (r.okFexp = false → s.startsSlot k (.vfexp k va ss sf) .vector 6 fun _ => [.sticky BADFMT]) ∧
    (r.okScaled = true → planeLocal →
      s.localNow k (alignDown (slotAddr (s.sregNow k sa) off) 64) (packedBytes r.fmt) → ∀ f, fmtOf r.fmt = some f →
      s.startsSlot k (.vdec k vd ss sf sa off) .vector 8 fun v =>
        let codes := unpack (fmtBits r.fmt)
          (Memory.bytes v.mem (alignDown (slotAddr (s.sregNow k sa) off) 64) (packedBytes r.fmt)) 256
        [.vreg vd (Vector.ofFn fun (j : Fin 256) =>
          decodeScaled f (codes.getD j.val 0) (givenFine r (plane v 256) j.val) (coarseVal r.coarse))]) ∧
    (r.okFexp = true → r.blockAxis = 0 → s.localNow k (planeAddr (s.sregNow k sf) 8) 8 → ∀ f, fmtOf r.fmt = some f →
      s.startsSlot k (.vfexp k va ss sf) .vector 6 fun _ =>
        [.mem (planeAddr (s.sregNow k sf) 8) ((autoFines f r vals).map fun z => BitVec.ofInt 8 z)])

/-- R101, R186: VOUT reads one tile row eight cycles before it lands, scales it by the tile's exponent and output factors, and
writes it as A32, as A24 or through a scaled conversion. -/
def Obligations.TileRowOutput : Prop :=
  ∀ (s : State) (k : CoreId) (vd ss sf : Reg) (tile : BitVec 6) (trow : BitVec 7) (cnt : Option Reg), s.canStart k →
    let r := FmtScale.ofWord (s.sregNow k ss)
    let vals (v : State) : List FVal :=
      let ar := (v.core k).arch
      let m := ar.tiles[tile.toNat]'(tile.isLt)
      (v.tileRow k ar.layout tile.toNat trow.toNat (tileWidth ar.layout)).map fun code =>
        ((((tileFmt ar.layout).decode code).scale (-m.teo.toInt)).mul (coarseVal m.cx)).mul (coarseVal m.cw)
    (r.rsvZero = true → r.fmt = 5 → s.startsSlot k (.vout k vd ss sf tile trow false cnt) .vector 8 fun v =>
      if usableTiles (v.core k).arch.layout ≤ tile.toNat then [.sticky BADFMT]
      else [.vreg vd (mkV ((vals v).map toA32))]) ∧
    (r.rsvZero = true → r.fmt = 4 → s.startsSlot k (.vout k vd ss sf tile trow false cnt) .vector 8 fun v =>
      if usableTiles (v.core k).arch.layout ≤ tile.toNat then [.sticky BADFMT]
      else [.vreg vd (packV 24 ((vals v).map fun x => (FFmt.a24.encode x).1))]) ∧
    (r.okScaled = true → r.finePlane = false → ∀ f, fmtOf r.fmt = some f →
      s.startsSlot k (.vout k vd ss sf tile trow false cnt) .vector 8 fun v =>
        if usableTiles (v.core k).arch.layout ≤ tile.toNat then [.sticky BADFMT]
        else
          let e := encodeAll f r (givenFine r []) (vals v)
          .vreg vd (packV (fmtBits r.fmt) e.1) ::
            (match cnt with | some c => if r.fmt.toNat < 2 then [.count c e.2] else [] | none => []))

/-- R113-R122, R187, R188: VPACE rewrites the Pacer record at its address and clears its count, or sets BADFMT where the record or
its address is not taken; VTAIL writes the updated weights and their tailwater to a pair of registers. -/
def Obligations.PacerAndTailwater : Prop :=
  ∀ (s : State) (k : CoreId) (vd va vb vc ss scnt sa : Reg) (off : BitVec 24) (cnt : Option Reg), s.canStart k →
    let at_ := slotAddr (s.sregNow k sa) off
    let paces (first : Bool) (v : State) : List Wr :=
      if at_ % 16 ≠ 0 ∨ v.reach k at_ 16 ≠ .basin then [.sticky BADFMT]
      else match paceUpdate first (leNat (Memory.bytes v.mem at_ 16)) ((s.sregNow k ss).extractLsb' 0 32) (s.sregNow k scnt) with
        | some r => [.mem at_ (natLe 16 r.toNat), .sreg scnt 0]
        | none => [.sticky BADFMT]
    s.startsSlot k (.vpaceStep k ss scnt sa off) .vector 10 (paces false) ∧
    s.startsSlot k (.vpaceFirst k ss scnt sa off) .vector 10 (paces true) ∧
    (vd.val % 2 = 0 →
      let w := packNat 32 ((s.vregNow k vb).toList.map BitVec.toNat)
      let tw := packNat 32 ((s.vregNow k vc).toList.map BitVec.toNat)
      let es := (List.range 256).map fun j =>
        tailUpdate (BitVec.ofNat 16 (bitsAt w (16 * j) 16)) (BitVec.ofNat 8 (bitsAt tw (8 * j) 8))
          ((s.vregNow k va).toList.getD j 0)
      exec (.vtail k vd va vb vc cnt) s = Next (s.withFlying k .vector 10 (.writes
        ([.vreg vd (packV 16 (es.map fun e => e.1.toNat)), .vreg (vd + 1) (packV 8 (es.map fun e => e.2.1.toNat))] ++
          (match cnt with | some c => [.count c (es.filter fun e => e.2.2).length] | none => [])))))

/-- R34, R166, R167, R170, R503: a reserved lane format sets BADFMT at the landing, an unlisted one makes the bundle bad, and a
memory row of which a byte is not local to the core is not read: it delivers zeros, sets UNMAP, and stops the core with cause 0x06 and the
address of the first such byte. -/
def Obligations.VectorOperandErrors : Prop :=
  ∀ (s : State) (k : CoreId) (vd va sa : Reg) (b : VSrc) (fmt : BitVec 4) (off : BitVec 24), s.canStart k →
    (8 ≤ fmt.toNat → s.startsSlot k (.vadd k fmt vd va b) .vector (srcLat b) fun _ => [.sticky BADFMT]) ∧
    (8 ≤ fmt.toNat → s.startsSlot k (.vrsum k fmt sa va) .vector 12 fun _ => [.sticky BADFMT]) ∧
    (fmt.toNat < 8 → fmt ≠ 3 → fmt ≠ 5 → fmt ≠ 7 →
      exec (.vadd k fmt vd va b) s = Next ((s.settle k).updCore k Core.badBundle) ∧
      exec (.vcmp k fmt 0 vd va b) s = Next ((s.settle k).updCore k Core.badBundle)) ∧
    (∀ i, i < 1024 →
      let at_ (j : Nat) := (rowAddr (s.sregNow k sa) off + j) % 2 ^ 48
      ((s.settle k).reachByte k (at_ i)).isLocal = false → (∀ j, j < i → ((s.settle k).reachByte k (at_ j)).isLocal = true) →
      ∃ body, exec (.vand k vd va (.row sa off)) s = Next ((s.withFlying k .vector 8 body).updCore k fun c =>
          { c.stopSeq 0x06 with
            stickyNew := c.stickyNew ||| UNMAP
            launch := c.launch.map fun l =>
              { l with unmapped := some (l.unmapped.getD (BitVec.ofNat 48 (at_ i))) } }) ∧
        ∀ v : State, v.fuses = s.fuses → v.bodyWrites k body = [.vreg vd (Vector.replicate 256 0)])

/-- R57, R69, R82, R87: MMUL and a one-core MRELAY are accepted in the issue cycle with their block cycle B, their occupation O and
their passes, and under ZERO or BIAS the tile takes their coarse scales; a rejected one sets its bits and does nothing else. -/
def Obligations.MatrixOperationsAccepted : Prop :=
  ∀ (s u : State) (k : CoreId) (a : MxArgs), s.canStart k → u = s.settle k →
    let c := u.core k
    let accepts (i : Instr) (j : Judged) :=
      ∃ t o, exec i s = Next t ∧ (t.core k).mxq = c.mxq ++ [o] ∧ (t.core k).lastBO = o.b + o.o ∧
        o.c = c.now ∧ o.r = (if j.subs.any MxSub.slow then 2 else 1) ∧ o.p = passes j.subs ∧ o.o = 128 * o.r * o.p ∧
        o.b = max (c.now + (if a.df = 1 then 4 else 132) + (if j.subs.any MxSub.isTurned then 8 else 0) +
          (if o.packed then 8 else 0)) c.lastBO ∧
        o.df = a.df ∧ o.start = a.start ∧ o.arm = a.arm ∧ o.rows = j.rows ∧ o.parts.map (·.layout) = [c.arch.layout] ∧
        o.packed = decide (0 < j.desc.pack) ∧
        (t.core k).arch.sregs = c.arch.sregs ∧ (t.core k).arch.vregs = c.arch.vregs ∧ (t.core k).arch.ctrs = c.arch.ctrs ∧
        (t.core k).arch.seq = c.arch.seq ∧
        (∀ b, j.subs.head? = some b → a.start ≠ 0 →
          ((t.core k).arch.tiles[a.tile.toNat]'(a.tile.isLt)).cx = b.x.fs.coarse ∧
          ((t.core k).arch.tiles[a.tile.toNat]'(a.tile.isLt)).cw = b.w.fs.coarse ∧
          ((t.core k).arch.tiles[a.tile.toNat]'(a.tile.isLt)).scaled = true) ∧
        (a.arm = false → { t with cores := u.cores } = u) ∧ (∀ m, m ≠ k → t.core m = u.core m)
    let rejects (i : Instr) (bits : BitVec 9) :=
      exec i s = Next (u.updCore k fun c => { c with stickyNew := c.stickyNew ||| bits })
    let off := c.descOff a.dreg a.doff
    let alone := u.judgeMatrix k false a off
    let lead := u.judgeMatrix k true a off
    (alone.bits = 0 → accepts (.mmul k a) alone) ∧ (alone.bits ≠ 0 → rejects (.mmul k a) alone.bits) ∧
    (lead.bits = 0 → (chainCores lead.desc.relayMask).length = 1 → accepts (.mrelay k a) lead) ∧
    (lead.bits ≠ 0 → (chainCores lead.desc.relayMask).length = 1 ∨ off % 64 ≠ 0 ∨ 0x1800000 < off + 64 →
      rejects (.mrelay k a) lead.bits)

/-- R75, R76, R190: MRELAY with a longer chain waits for its core's array, is judged at the end of the wait and then holds with its
descriptor; MLEND puts its core into Relay mode with its descriptor; when every core of the chain is lent the operation issues on all of
them, and 2^20 cycles without that abort it with BADMX (R78). When MRELAY's mask is looked at is the model's choice (log entry 84). -/
def Obligations.RelayChains : Prop :=
  ∀ (s u : State) (k : CoreId), s.canStart k → u = s.settle k →
    let joins (i : Instr) (r : RelaySt) := exec i s = Next (u.updCore k fun c => { c with relay := r })
    let desc (d : Reg) (o : BitVec 19) :=
      Memory.bytes u.mem (basinBase k + ((s.sregNow k d).extractLsb' 0 32).toNat + 64 * o.toNat) 64
    (∀ a : MxArgs,
      let off := ((s.sregNow k a.dreg).extractLsb' 0 32).toNat + 64 * a.doff.toNat
      let j := u.judgeMatrix k true a off
      off % 64 = 0 → off + 64 ≤ 0x1800000 → (chainCores j.desc.relayMask).length ≠ 1 →
      ((u.core k).mxq ≠ [] → joins (.mrelay k a) (.waiting a off (u.core k).arch.seq.pc)) ∧
      ((u.core k).mxq = [] → j.bits = 0 → joins (.mrelay k a) (.lead a (desc a.dreg a.doff) (u.core k).arch.seq.pc)) ∧
      ((u.core k).mxq = [] → j.bits ≠ 0 → exec (.mrelay k a) s = Next (u.updCore k fun c =>
        ({ c with relay := .none } : Core).relayResume.flag j.bits))) ∧
    (∀ (d : Reg) (o : BitVec 19) (tile : BitVec 6) (lead : Fin 16),
      let off := ((s.sregNow k d).extractLsb' 0 32).toNat + 64 * o.toNat
      lead.val ≠ k.val % 16 → off % 64 = 0 → off + 64 ≤ 0x1800000 → (u.core k).places < 4 →
      tile.toNat < usableTiles (u.core k).arch.layout →
      joins (.mlend k d o tile lead) (.member (coreAt (dieOf k) lead) tile (desc d o) (u.core k).arch.seq.pc)) ∧
    (∀ (d : Reg) (o : BitVec 19) (tile : BitVec 6) (lead : Fin 16),
      lead.val = k.val % 16 ∨ usableTiles (u.core k).arch.layout ≤ tile.toNat → (u.core k).places < 4 →
      exec (.mlend k d o tile lead) s = Next (u.updCore k fun c => { c with stickyNew := c.stickyNew ||| BADMX })) ∧
    (∀ (v : State) (a : MxArgs) (ds : List Byte) (b : BIdx), v.hasCore k = true → v.dieHeld (dieOf k) = false →
      (v.core k).relay = .lead a ds b → (v.core k).mxq = [] →
      let d := readDesc k (leNat ds)
      let ms := chainMembers k d.relayMask
      ((∀ m ∈ ms, ((v.core m).lentTo k).isSome = true) → tileWidth (v.core k).arch.layout = 256 →
        (∀ n m p, ms[n]? = some m → (v.core m).lentTo k = some p → (v.memberPart a d (n + 1) m p.1 p.2).2 = 0) →
        ∃ t o, exec (.relayChainLent k) v = Next t ∧ (t.core k).relay = .none ∧ (t.core k).mxq = [o] ∧ o.relay = true ∧
          o.parts.length = ms.length + 1 ∧ ∀ m ∈ ms, (t.core m).relay = .running k) ∧
      ((v.lentMembers k d.relayMask).length < ms.length →
        ∃ t, exec (.relayLendTimeout k) v = Next t ∧ { t with cores := v.cores } = v ∧
          ∀ m, m = k ∨ m ∈ v.lentMembers k d.relayMask →
            (t.core m).relay = .none ∧ (t.core m).stickyNew &&& BADMX = BADMX ∧
            { (t.core m).arch with seq := (v.core m).arch.seq } = (v.core m).arch))

/-- R69, R70, R88-R90, R94-R96: what the array does in a begin cycle, in a cycle that writes a tile row, in one that reads a tile row
and in a detection cycle, for an operation alone on its core. A written row holds, inside the extents, the entry values with
every product added in ascending order, one rounding each. OVFINF is set where a replay's rerun overflows again and no replay is
left. -/
def Obligations.ArrayCycles : Prop :=
  ∀ (s : State) (k : CoreId) (o : MxOp) (q : MxPart), s.hasCore k = true → s.dieHeld (dieOf k) = false →
    let c := s.core k
    let now := c.now
    let f := tileFmt q.layout
    let others (t : State) := ∀ j, j ≠ k → t.core j = s.core j
    (c.arrayOnly k o q 0 → o.begun = false → now = o.b → now + 52 ≤ o.land →
      ∃ t, exec (.matrixPassBegin k) s = Next t ∧
        (t.core k).arch = c.arch.updTile q.tile (fun m => { m with teo := if o.start = 0 then m.teo else 0 }) ∧
        (t.core k).mxq = [{ o with begun := true, teo := [(if o.start = 0 then c.arch.tiles[q.tile].teo else 0).toInt] }] ∧
        others t ∧ { t with cores := s.cores } = s) ∧
    (∀ p m b, c.arrayOnly k o q 0 → o.begun = true → o.writeAt q now = some (p, m) → now ≤ o.land → q.subs = [b] →
      Sparse.find q.done (rowKey p m) = none → Memory.wf s.mem = true →
      let codes := (Sparse.find q.entry (rowKey p m)).getD []
      let value (col : Nat) : Nat := (((o.terms q p m col).foldl
        (fun st ab => elemStep f st ((ab.1.mul ab.2).scale (o.teo.getD 0 0))) (o.enterElem q p m col codes)).toCode f)
      let at_ := tileAddr k q.layout q.tile.val m b.col0
      let n := b.ext * elemBytes q.layout
      b.col0 + b.ext ≤ tileWidth q.layout →
      ∃ t, exec (.matrixRowWrite k none) s = Next t ∧
        (∀ col, col < b.ext → Memory.bytes t.mem (at_ + col * elemBytes q.layout) (elemBytes q.layout) =
          natLe (elemBytes q.layout) (value (b.col0 + col))) ∧
        (∀ x, x < at_ ∨ at_ + n ≤ x → Memory.byte t.mem x = Memory.byte s.mem x) ∧
        (t.core k).arch = c.arch ∧ others t ∧ { t with cores := s.cores, mem := s.mem, bibs := s.bibs } = s) ∧
    (∀ p m, c.arrayOnly k o q 2 → o.entryAt q now = some (p, m) → now < o.land → o.arm = false →
      let row := s.tileRow k q.layout q.tile.val m (tileWidth q.layout)
      ∃ t q', exec (.matrixRowRead ⟨k, .none⟩) s = Next t ∧ (t.core k).mxq.map (fun x => x.parts) = [[q']] ∧
        Sparse.find q'.entry (rowKey p m) = some row ∧ (t.core k).arch = c.arch ∧ others t ∧ { t with cores := s.cores } = s) ∧
    (∀ p, c.arrayOnly k o q 1 → o.df ≠ 1 → o.detectAt now = some p → now ≤ o.land →
      (o.overflowed p = false → exec (.matrixPassEnd k none) s = Next (s.updCore k fun c => { c with stage := 2 })) ∧
      (o.overflowed p = true → o.canReplay = false → ∃ t, exec (.matrixPassEnd k none) s = Next t ∧
        (t.core k).arch = c.arch.updTile q.tile (fun m => { m with ovfinf := true }) ∧
        (t.core k).stickyNew = c.stickyNew ||| OVFINF ∧ others t ∧ { t with cores := s.cores } = s) ∧
      (o.overflowed p = true → o.canReplay = true → ∃ t h, ∃ b : Bool, exec (.matrixPassEnd k none) s = Next t ∧
        (t.core k).hold = some h ∧ h.check = false ∧ h.left = 456 + 128 * o.r * (p + 1) ∧ h.detect = p ∧ h.times = 1 ∧
        (t.core k).arch = c.arch.updTile q.tile (fun m => { m with ovfinf := m.ovfinf || b }) ∧
        (t.core k).stickyNew = (if b then c.stickyNew ||| OVFINF else c.stickyNew) ∧ others t ∧ { t with cores := s.cores } = s))

/-- R70, R87, R93, R95, R99, R106, R107, R332: the operations whose landing cycle is the next one leave the array there; one alone on its
core leaves its marks on its tile. A single-bit upset of the rows that the array reads in a cycle is corrected and counted; with a
double-bit error the operations that read leave the array, and the core has a fault. A replay's hold ends by presenting what its rerun
left; a rerun that overflows again is followed by the next overflow replay with a hold of its own; where the rerun's check lanes find a
mismatch a check replay of that pass follows an overflow replay once, and a check replay's own mismatch is a core fault with CFAULT. -/
def Obligations.ArrayLandingsAndHolds : Prop :=
  ∀ (s : State) (k : CoreId), s.hasCore k = true → s.dieHeld (dieOf k) = false →
    (∀ l v, leastOf ((s.core k).mxq.map fun o => max o.land (s.core k).now) = some l → v = s.runTo k l → (v.core k).now = l →
      (v.core k).held = false →
      exec (.matrixLanding k) s = Next (v.settle k) ∧
      ((v.core k).stage < 3 → ((v.settle k).core k).hold = none → ∀ o ∈ ((v.settle k).core k).mxq, l < o.land)) ∧
    (∀ l v, (s.core k).nextOpCycle 3 MxOp.readsAt = some l → v = s.runTo k l → (v.core k).now = l → (v.core k).held = false →
      exec (.matrixRowRead ⟨k, .none⟩) s = Next (v.settle k) ∧
      exec (.matrixRowRead ⟨k, .single⟩) s = Next ((v.settle k).sramCe k) ∧
      exec (.matrixRowRead ⟨k, .double⟩) s = Next ((((v.toJudge k none).dropReading k).settle k).coreFault k 2) ∧
      (∀ o ∈ (((v.toJudge k none).dropReading k).core k).mxq, o.readsAt (((v.toJudge k none).core k).now) = false)) ∧
    (∀ o q, (s.core k).arrayOnly k o q 2 → (s.core k).now = o.land → o.relay = false →
      let marked := (s.core k).arch.updTile q.tile fun m =>
        { m with replays := BitVec.ofNat 2 o.replays, chkrep := o.chkrep, ovfinf := q.ovfinf,
                 armed := if o.arm then false else m.armed }
      ∃ t, exec (.matrixLanding k) s = Next t ∧ (t.core k).mxq = [] ∧
        (t.core k).arch = (if o.arm then marked.updTile (q.tile + 1) (fun m => { m with image := false }) else marked) ∧
        (∀ j, j ≠ k → t.core j = s.core j) ∧ { t with cores := s.cores } = s) ∧
    (∀ h, (s.core k).hold = some h →
      let presented := Next (h.teo.foldl State.setTeo
        (h.writes.foldl (fun v w => v.wrSlot w.1 w.2) (s.updCore k fun c => { c with hold := none, mxq := h.ops })))
      (h.again = none → exec (.replayHoldEnd k none) s = presented) ∧
      (∀ p f, h.ops.find? (fun o => o.id == h.op) = none → exec (.replayHoldEnd k (some (p, f))) s = presented) ∧
      (∀ o p f, h.ops.find? (fun o => o.id == h.op) = some o →
        (o.rerunMismatch p f = false → h.again = none → exec (.replayHoldEnd k (some (p, f))) s = presented) ∧
        (∀ pd, o.rerunMismatch p f = false → h.again = some pd →
          ∃ t h', exec (.replayHoldEnd k (some (p, f))) s = Next t ∧ (t.core k).hold = some h' ∧ h'.check = false ∧
            h'.detect = h.detect ∧ h'.times = h.times + 1 ∧
            h'.left = 456 + (if o.df = 1 then o.o else 128 * o.r * (pd + 1)) + 4 * (o.parts.length - 1)) ∧
        (o.rerunMismatch p f = true → h.overflowFirst o p f = false → h.check = true → p = h.pass →
          ∃ v : State, exec (.replayHoldEnd k (some (p, f))) s = Next (v.coreFault (o.partAt k f.part).1 1) ∧ (v.core k).hold = none ∧
            (∀ x ∈ (v.core k).mxq, x.id ≠ o.id) ∧ (v.core (o.partAt k f.part).1).stickyNew &&& CFAULT = CFAULT) ∧
        (o.rerunMismatch p f = true → h.overflowFirst o p f = false → h.check = false ∨ h.pass < p →
          ∃ t h', exec (.replayHoldEnd k (some (p, f))) s = Next t ∧ (t.core k).hold = some h' ∧ h'.check = true ∧
            h'.pass = p ∧ h'.writes = h.writes ∧ h'.teo = h.teo ∧
            h'.left = 192 + (if o.df = 1 then o.o else 128 * o.r) + 4 * (o.parts.length - 1))))

/-- R138, R169-R171, R191: a load whose bytes lie in the core's own Basin, or for the vector forms its own Cistern, reads them two
cycles after the issue and lands with the register's new value; scalar loads zero-extend, LDVW widens A24 elements. -/
def Obligations.LocalLoads : Prop :=
  ∀ (s : State) (k : CoreId) (dst ar : Reg) (ctr : BitVec 6) (off : BitVec 40), s.canStart k → ctr.toNat < 48 →
    let base := ((s.sregNow k ar).extractLsb' 0 48 + off.signExtend 48).toNat
    let reach (n al : Nat) := (s.settle k).reach k (base - base % al) n
    let scalar (i : Instr) (n : Nat) := reach n n = .basin → s.startsSlot k i .load 6 fun v =>
      [.sreg dst (BitVec.ofNat 64 (leNat (Memory.bytes v.mem (base - base % n) n)))]
    scalar (.ldb k dst ar ctr off) 1 ∧ scalar (.ldh k dst ar ctr off) 2 ∧ scalar (.ldw k dst ar ctr off) 4 ∧
    scalar (.ldd k dst ar ctr off) 8 ∧
    (∀ size : BitVec 3, size.toNat ≤ 5 →
      let n := 32 * 2 ^ size.toNat
      let a := base - base % min n 64
      let ws (v : State) : List Wr := [.vreg dst (Vector.ofFn fun (j : Fin 256) =>
        if 4 * j.val < n then BitVec.ofNat 32 (leNat (Memory.bytes v.mem (a + 4 * j.val) 4)) else 0)]
      (reach n (min n 64) = .basin → s.startsSlot k (.ldv k dst ar ctr size off) .load 8 ws) ∧
      (reach n (min n 64) = .cistern → s.startsSlot k (.ldv k dst ar ctr size off) .load 10 ws)) ∧
    (∀ size : BitVec 3, size = 4 ∨ size = 5 →
      let n := 24 * 2 ^ size.toNat
      let a := base - base % 64
      let ws (v : State) : List Wr := [.vreg dst (Vector.ofFn fun (j : Fin 256) =>
        if 3 * j.val < n then widen24 (BitVec.ofNat 24 (leNat (Memory.bytes v.mem (a + 3 * j.val) 3))) else 0)]
      (reach n 64 = .basin → s.startsSlot k (.ldvw k dst ar ctr size off) .load 8 ws) ∧
      (reach n 64 = .cistern → s.startsSlot k (.ldvw k dst ar ctr size off) .load 10 ws))

/-- R138, R169-R171, R191: a store to the core's own Basin or Cistern reads its source register in the issue cycle and lands three
cycles later with exactly its bytes. -/
def Obligations.LocalStores : Prop :=
  ∀ (s : State) (k : CoreId) (src ar : Reg) (ctr : BitVec 6) (off : BitVec 40), s.canStart k → ctr.toNat < 48 →
    let base := ((s.sregNow k ar).extractLsb' 0 48 + off.signExtend 48).toNat
    let own (n al : Nat) := ((s.settle k).reach k (base - base % al) n).isLocal = true
    let scalar (i : Instr) (n : Nat) := own n n →
      exec i s = Next (s.withFlying k .store 3 (.writes [.mem (base - base % n) (natLe n (s.sregNow k src).toNat)]))
    scalar (.stb k src ar ctr off) 1 ∧ scalar (.sth k src ar ctr off) 2 ∧ scalar (.stw k src ar ctr off) 4 ∧
    scalar (.std k src ar ctr off) 8 ∧
    (∀ size : BitVec 3, size.toNat ≤ 5 →
      let n := 32 * 2 ^ size.toNat
      own n (min n 64) → exec (.stv k src ar ctr size off) s = Next (s.withFlying k .store 3 (.writes
        [.mem (base - base % min n 64) (((s.vregNow k src).toList.take (n / 4)).flatMap fun x => natLe 4 x.toNat)])))

/-- R157, R170, R172, R191, R503: a far access joins the core's queue while fewer than 32 are outstanding, and waits for a place
otherwise; an unmapped one stops the
core with UNMAP and cause 0x06, a load delivering zeros; a scalar load does not reach the core's own Cistern; a counter above 47 makes
the bundle bad. -/
def Obligations.FarAndUnmappedAccesses : Prop :=
  ∀ (s u : State) (k : CoreId) (r ar : Reg) (ctr : BitVec 6) (off : BitVec 40), s.canStart k → u = s.settle k →
    let base := ((s.sregNow k ar).extractLsb' 0 48 + off.signExtend 48).toNat
    let a := base - base % 8
    let c := u.core k
    let stop (c : Core) : Core :=
      { c.stopSeq 0x06 with
        stickyNew := c.stickyNew ||| UNMAP
        launch := c.launch.map fun l => { l with unmapped := some (l.unmapped.getD (BitVec.ofNat 48 a)) } }
    (ctr.toNat < 48 → u.reach k a 8 = .far → c.far.length < 32 → c.farWait = [] →
      exec (.ldd k r ar ctr off) s = Next (u.updCore k fun c =>
        { c with far := c.far ++ [⟨false, .d, r, a, 8, ctr, [], [], [], none, c.arch.seq.pc, c.now⟩] }) ∧
      exec (.std k r ar ctr off) s = Next (u.updCore k fun c =>
        { c with far := c.far ++
          [⟨true, .b, r, a, 8, ctr, natLe 8 (s.sregNow k r).toNat, [], [], none, c.arch.seq.pc, c.now⟩] })) ∧
    (ctr.toNat < 48 → u.reach k a 8 = .far → 32 ≤ c.far.length ∨ c.farWait ≠ [] →
      exec (.ldd k r ar ctr off) s = Next (u.updCore k fun c => { c with farWait := c.farWait ++ [.load ⟨.d, r, ar, ctr, 0, off⟩] }) ∧
      exec (.std k r ar ctr off) s =
        Next (u.updCore k fun c => { c with farWait := c.farWait ++ [.store ⟨.d, r, ar, ctr, 0, off⟩] })) ∧
    (ctr.toNat < 48 → u.reach k a 8 = .unmapped →
      exec (.std k r ar ctr off) s = Next (u.updCore k stop)) ∧
    (ctr.toNat < 48 → u.reach k a 8 = .unmapped ∨ u.reach k a 8 = .cistern →
      ∃ body, exec (.ldd k r ar ctr off) s = Next ((s.withFlying k .load 6 body).updCore k stop) ∧
        ∀ v : State, v.fuses = s.fuses → v.reach k a 8 = u.reach k a 8 → v.bodyWrites k body = [.sreg r 0]) ∧
    (48 ≤ ctr.toNat →
      exec (.ldd k r ar ctr off) s = Next (u.updCore k Core.badBundle) ∧
      exec (.std k r ar ctr off) s = Next (u.updCore k Core.badBundle))

/-- R172, R200, R201, R337: a Runnel reads the block of a far load or store, each block of an access on its own; the completion of the last
writes the register or the bytes and raises the counter by 1. A block that fails its check is fetched once more before anything is
delivered; one that fails again ends the access as a data fault, with nothing delivered. A word of a Basin that a Runnel reads with a
double-bit error is a core fault there. -/
def Obligations.FarAccessesComplete : Prop :=
  ∀ (s u : State) (k : CoreId) (i : Nat) (f : FarAcc) (on : Fin 2), s.hasCore k = true → s.dieHeld (dieOf k) = false →
    u = s.settle k → (u.core k).far[i]? = some f → ∀ hc : f.ctr.toNat < 48,
    let blk := f.addr / 4096
    let within := 0 < f.size ∧ f.addr + f.size ≤ 4096 * (blk + 1)
    let bytes := ((u.readBlock (4096 * blk)).1.drop (f.addr % 4096)).take f.size
    let only (i : Nat) (g : FarAcc) (c' : Core) := c' = { u.core k with far := c'.far } ∧
      c'.far.length = (u.core k).far.length ∧ c'.far[i]? = some g ∧ ∀ j, j ≠ i → c'.far[j]? = (u.core k).far[j]?
    u.dieReaches (dieOf k) (4096 * blk) = true → f.lost = none →
    (f.served = [] → f.store = false → (∀ g ∈ (u.core k).far.take i, g.store = false) → within → u.farCheck blk = true →
      ∃ c', exec (.farAccessService k ⟨⟨i, 0⟩, on, .none⟩) s = Next (u.updCore k fun _ => c') ∧
        only i { f with served := [⟨blk, on, bytes, false, false⟩] } c') ∧
    (∀ o x, f.served = [] → f.store = false → (∀ g ∈ (u.core k).far.take i, g.store = false) → u.place (4096 * blk) = .basin o x →
      exec (.farAccessService k ⟨⟨i, 0⟩, on, .double⟩) s = Next (u.coreFault o 2)) ∧
    (∀ got, f.served = [⟨blk, on, got, false, false⟩] → f.store = false → within → f.f.isVec = false →
      (∀ g ∈ (u.core k).far.take i, g.ctr ≠ f.ctr) → (u.core k).landed = [] → (u.core k).landedLoads = [] →
      ∃ c', exec (.farAccessComplete k ⟨i, 0⟩ ⟨false, false, .none⟩) s = Next (u.updCore k fun _ => c') ∧
        c'.far = (u.core k).far.eraseIdx i ∧
        c'.arch = { (u.core k).arch with
          sregs := (u.core k).arch.sregs.set f.dst.val (BitVec.ofNat 64 (leNat got)),
          ctrs := (u.core k).arch.ctrs.set f.ctr.toNat ((u.core k).arch.ctrs[f.ctr.toNat] + 1) }) ∧
    (∀ got, f.served = [⟨blk, on, got, false, false⟩] → f.store = false → 4096 * (blk + 1) < f.addr + f.size → f.size ≤ 4096 →
      ∃ c', exec (.farAccessComplete k ⟨i, 0⟩ ⟨false, false, .none⟩) s = Next (u.updCore k fun _ => c') ∧
        only i { f with served := [⟨blk, on, got, false, true⟩] } c') ∧
    (∀ o x got w, w = u.settle o → f.served = [⟨blk, on, got, false, false⟩] → f.store = true → within →
      (∀ g ∈ (u.core k).far.take i, g.ctr ≠ f.ctr) → f.data.length = f.size → u.place f.addr = .basin o x →
      u.farCheck blk = true → (w.readBlock (4096 * blk)).2 = none → w.place f.addr = .basin o x →
      (w.core o).landed = [] → (w.core o).images = [] → Memory.wf w.mem = true →
      ∃ t, exec (.farAccessComplete k ⟨i, 0⟩ ⟨false, false, .none⟩) s = Next t ∧
        (∀ (n : Nat) (h : n < f.data.length), Memory.byte t.mem (f.addr + n) = f.data[n]) ∧
        (∀ y, y < f.addr ∨ f.addr + f.size ≤ y → Memory.byte t.mem y = Memory.byte w.mem y) ∧
        (t.core k).far = (w.core k).far.eraseIdx i ∧
        (t.core k).arch = { (w.core k).arch with
          ctrs := (w.core k).arch.ctrs.set f.ctr.toNat ((w.core k).arch.ctrs[f.ctr.toNat] + 1) } ∧
        (∀ j, j ≠ k → t.core j = w.core j) ∧ { t with cores := w.cores, mem := w.mem } = w) ∧
    (∀ x : FarBlk, x.blk = blk → x.fin = false → f.served = [x] → blk ∉ f.retried → within →
      (∀ g ∈ (u.core k).far.take i, g.ctr ≠ f.ctr) →
      ∃ c', exec (.farAccessComplete k ⟨i, 0⟩ ⟨true, false, .none⟩) s = Next (u.updCore k fun _ => c') ∧
        only i { f with served := [], retried := f.retried ++ [blk] } c') ∧
    (∀ x : FarBlk, x.blk = blk → x.fin = false → f.served = [x] → blk ∈ f.retried → within → u.farCheck blk = true →
      (∀ g ∈ (u.core k).far.take i, g.ctr ≠ f.ctr) →
      exec (.farAccessComplete k ⟨i, 0⟩ ⟨true, false, .none⟩) s =
        Next ((({ u with fresh := u.fresh + 1 } : State).updCore k fun c => { c with far := c.far.eraseIdx i }).farFault k
          (4096 * blk) (bibCrc ((u.readBlock (4096 * blk)).2.getD 0)) ((Config.freeWord u.fresh).extractLsb' 0 32)))

/-- R166, R193-R195, R221, R224: the sync slot's operations start with what they read in the issue cycle and land two cycles later;
an unlisted one makes the bundle bad. -/
def Obligations.SyncOperationsStart : Prop :=
  ∀ (s : State) (k lc : CoreId) (ctr : BitVec 6) (hc : ctr.toNat < 48) (r : Reg) (imm : BitVec 16) (ws : Fin 16)
    (cond : BitVec 3) (scope : BitVec 2), s.canStart k → lc.val < (s.settle k).coreCount →
    let n : Fin 48 := ⟨ctr.toNat, hc⟩
    let starts (i : Instr) (w : Wr) := exec i s = Next (s.withFlying k .sync 2 (.writes [w]))
    starts (.cinc k ctr imm) (.ctr n false imm) ∧
    starts (.cset k ctr imm) (.ctr n true imm) ∧
    starts (.cadd k ctr r) (.ctr n false ((s.sregNow k r).extractLsb' 0 16)) ∧
    starts (.crd k ctr r) (.sreg r (((s.settle k).core k).arch.ctrs[n].zeroExtend 64)) ∧
    starts (.cincr k lc ctr imm) (.remote lc ctr imm) ∧
    (cond.toNat < 4 → starts (.watch k ws lc ctr cond imm) (.watch ws lc ctr cond imm)) ∧
    starts (.unwatch k ws) (.unwatch ws) ∧
    (scope.toNat < 2 → imm.toNat < 16 → starts (.bar k ws scope imm) (.bar ws scope imm)) ∧
    (scope = 2 → imm.toNat < 8 → starts (.bar k ws scope imm) (.bar ws scope imm)) ∧
    (∀ c : BitVec 6, 48 ≤ c.toNat → exec (.cinc k c imm) s = Next ((s.settle k).updCore k Core.badBundle)) ∧
    (4 ≤ cond.toNat → exec (.watch k ws lc ctr cond imm) s = Next ((s.settle k).updCore k Core.badBundle)) ∧
    (scope = 3 → exec (.bar k ws scope imm) s = Next ((s.settle k).updCore k Core.badBundle))

/-- R194, R219, R221, R222, R224, R228: what a WATCH, UNWATCH, BAR or CINCR leaves when it lands alone: the slot's record, and the
registration, arrival or counter change handed on. -/
def Obligations.SyncOperationsLand : Prop :=
  ∀ (s : State) (k : CoreId) (no : BitVec 3) (b : BIdx) (i l : Nat) (w : Wr), s.hasCore k = true → s.dieHeld (dieOf k) = false →
    ({ s.core k with inflight := [] } : Core).atRest → (s.core k).watchers = [] → (s.core k).stickyNew = 0 →
    (s.core k).inflight = [⟨.sync, b, i, l, .writes [w]⟩] → (s.core k).now ≤ l →
    let a := (s.core k).arch
    let tag := (s.core k).nextTag
    let lands (a' : CoreArch) (msgs : Msgs) (ws : List Watcher) := ∃ t, exec (.operationLanding ⟨k, no, .none⟩) s = Next t ∧
      (t.core k).arch = a' ∧ (t.core k).watchers = ws ∧ t.msgs = msgs ∧ (∀ j, j ≠ k → t.core j = s.core j) ∧
      s.onlyCores { t with msgs := s.msgs }
    (∀ sl lc c cond imm, w = .watch sl lc c cond imm →
      let a' := { a with watches := a.watches.set sl.val ⟨.armed, 0, 0, lc, c, cond, imm, tag, false⟩ }
      (lc = k → lands a' s.msgs [⟨k, sl, tag, c, cond, imm⟩]) ∧
      (lc ≠ k → dieOf lc = dieOf k → (s.core lc).watchers = [] → ∃ t, exec (.operationLanding ⟨k, no, .none⟩) s = Next t ∧
        (t.core k).arch = a' ∧ t.core lc = { s.core lc with watchers := [⟨k, sl, tag, c, cond, imm⟩] } ∧ t.msgs = s.msgs ∧
        (∀ j, j ≠ k → j ≠ lc → t.core j = s.core j) ∧ s.onlyCores t) ∧
      (dieOf lc ≠ dieOf k → lands a' { s.msgs with regs := s.msgs.regs ++ [⟨lc, ⟨k, sl, tag, c, cond, imm⟩⟩] } [])) ∧
    (∀ sl, w = .unwatch sl → lands { a with watches := a.watches.set sl.val WatchRec.reset } s.msgs []) ∧
    (∀ sl scope ctx, w = .bar sl scope ctx →
      lands { a with watches := a.watches.set sl.val ⟨.armed, scope + 1, s.joinGen k scope ctx, 0, 0, 0, ctx, tag, false⟩ }
        { s.msgs with arrs := s.msgs.arrs ++ [⟨k, sl, tag, scope, ctx⟩] } []) ∧
    (∀ lc c v, w = .remote lc c v → lands a { s.msgs with ctrs := s.msgs.ctrs ++ [⟨lc, k.val, c, v, false⟩] } [])

/-- R196, R218-R220, R222-R225, R236: a delivered counter change is added, in the order of its source; a registration that arrives
stands with its counter's Starter; a notification counts only with the tag of the slot's registration and wakes a WAIT; while the logical
core rotates its Starter holds both. The watches on a core's counters are judged at the end of each cycle, on what the counters then
hold: a watch of the core itself that holds for what the cycle delivered from outside is notified in it; one that held without it is
notified four cycles on; a watch of another core is notified by a message; one that does not hold stays. A core whose port a Cooldown test isolates
is reached by neither. -/
def Obligations.CountersAndWatchesMeet : Prop :=
  (∀ (s : State) (k : CoreId) (ws : Fin 16), s.hasCore k = true → s.dieHeld (dieOf k) = false →
      (s.cutOff k = true → (∀ l, exec (.counterDelivery k l) s = Next s) ∧ exec (.watchNotification k ws) s = Next s) ∧
      (∀ m, s.cutOff k = false → s.msgs.ctrs.filter (fun x => x.target == k) = [m] → m.hasPath s = true → m.outside = false →
        ∀ hc : m.ctr.toNat < 48,
        let u := ({ s with msgs := { s.msgs with ctrs := s.msgs.ctrs.filter fun x => x.target != k } } : State).settle k
        exec (.counterDelivery k [0]) s = Next (u.updCore k fun c =>
          { c with
            arch := { c.arch with ctrs := c.arch.ctrs.set m.ctr.toNat (c.arch.ctrs[m.ctr.toNat] + m.amount) }
            outside := c.outside ++ [(m.ctr, m.amount)] })) ∧
      (∀ m n, s.msgs.ctrs.filter (fun x => x.target == k) = [m, n] → m.src = n.src → exec (.counterDelivery k [1]) s = Next s) ∧
      (∀ m rest, s.msgs.regs = m :: rest → m.w.core = k → m.w.slot = ws → s.path (dieOf k) (dieOf m.target) = true →
        exec (.watchRegistrationArrival k ws) s =
          Next (({ s with msgs := { s.msgs with regs := rest } } : State).updCore m.target fun c =>
            { c with watchers := (c.watchers.filter fun x => !(x.core == k && x.slot == ws)) ++ [m.w] })) ∧
      (∀ m rest, s.cutOff k = false → s.msgs.notes = m :: rest → m.target = k → m.slot = ws → m.hasPath s = true →
        let u := ({ s with msgs := { s.msgs with notes := rest } } : State).settle k
        let w := (u.core k).arch.watches[ws]
        let slotIs (st : Wst) (a : CoreArch) : CoreArch := { a with watches := a.watches.set ws.val { w with wst := st } }
        (w.wst = .armed → w.tag = m.tag → (∀ sl, (u.core k).arch.seq.phase ≠ .wait sl) →
          exec (.watchNotification k ws) s = Next (u.updArch k (slotIs .notified))) ∧
        (w.wst = .armed → w.tag = m.tag → (u.core k).arch.seq.phase = .wait ws →
          exec (.watchNotification k ws) s = Next (u.updArch k fun a =>
            { slotIs .empty a with seq := { a.seq with phase := .issuing ((u.core k).now + 1) } })) ∧
        (w.tag ≠ m.tag → (∀ sl, (u.core k).arch.seq.phase ≠ .wait sl) → exec (.watchNotification k ws) s = Next u))) ∧
  ∀ (s : State) (k : CoreId) (w : Watcher), s.pending = [] → s.hasCore k = true → s.dieHeld (dieOf k) = false →
      s.rotationHeld k = false → ({ s.power with cycle := (s.power.cycle + 1) % 64 } : Power).denies k = false →
      (∀ q a, s.stepPhase ≠ .twinWait q a) → s.clerk.waiting = [] → (∀ j, j ≠ k → (s.core j).atRest ∧ (s.core j).watchers = []) →
      ({ s.core k with outside := [] } : Core).atRest → (s.core k).watchers = [w] →
      let c := s.core k
      let v := c.arch.ctr w.ctr
      let before := c.outside.foldl (fun x ch => if ch.1 = w.ctr then x - ch.2 else x) v
      ∃ t, step s = Next t ∧ (t.core k).now = c.now + 1 ∧ (t.core k).arch.ctrs = c.arch.ctrs ∧
        (watchHolds w.cond v w.imm = false →
          (t.core k).watchers = [w] ∧ (t.core k).arch.watches = c.arch.watches ∧ t.msgs = s.msgs) ∧
        (watchHolds w.cond v w.imm = true → (t.core k).watchers = [] ∧ (t.core k).outside = [] ∧
          (w.core = k → c.arch.watches[w.slot].wst = .armed → c.arch.watches[w.slot].tag = w.tag → t.msgs = s.msgs ∧
            (watchHolds w.cond before w.imm = false → (t.core k).notes = [] ∧
              (t.core k).arch.watches = c.arch.watches.set w.slot.val { c.arch.watches[w.slot] with wst := .notified }) ∧
            (watchHolds w.cond before w.imm = true → (t.core k).arch.watches = c.arch.watches ∧
              (t.core k).notes = [⟨c.now + 4, w.slot, w.tag⟩])) ∧
          (w.core ≠ k → (t.core k).arch.watches = c.arch.watches ∧
            t.msgs = { s.msgs with notes := s.msgs.notes ++ [⟨w.core, (dieOf k).val, w.slot, w.tag⟩] }))

/-- R228-R232: an arrival at a barrier of its die is counted; the last one releases the context: the generation rises, early
arrivals move into it and every slot named is notified; a message of another die sets that die's bit; errors set their bit in
`STR_STAT`, one event each. -/
def Obligations.DieBarriers : Prop :=
  ∀ (s : State) (k : CoreId) (j : Fin 16), s.hasCore k = true → s.dieHeld (dieOf k) = false →
    let d := dieOf k
    let b := s.bar d j
    let n := k.val % 16
    let bit : BitVec 16 := 1#16 <<< n
    (∀ m rest, s.msgs.arrs = m :: rest → m.core = k → m.scope = 0 → m.ctx = BitVec.ofNat 16 j.val →
      (b.valid = true → b.dieMask = false → b.cmask.getLsbD n = true → b.arrived.getLsbD n = false →
        (b.arrived ||| bit ≠ b.cmask → ∃ t, exec (.barrierArrival k) s = Next t ∧
          t.bar d j = { b with arrived := b.arrived ||| bit, slots := b.slots ++ [(k, m.slot, m.tag)] } ∧
          t.msgs = { s.msgs with arrs := rest }) ∧
        (b.arrived ||| bit = b.cmask → b.early = 0 → ∃ t, exec (.barrierArrival k) s = Next t ∧
          t.bar d j = { b with gen := b.gen + 1, arrived := 0, slots := b.eslots, eslots := [], darr := b.dearly, dearly := 0 } ∧
          t.msgs = { s.msgs with
            arrs := rest
            notes := s.msgs.notes ++ (b.slots ++ [(k, m.slot, m.tag)]).map fun x => ⟨x.1, d.val, x.2.1, x.2.2⟩ })) ∧
      (b.valid = false → ∃ t, exec (.barrierArrival k) s = Next t ∧ t.bar d j = b ∧
        (t.dies[d]).str = ⟨BitVec.ofNat 8 j.val, BitVec.ofNat 7 k.val, (s.dies[d]).str.bits ||| 0x08⟩ ∧
        t.events.eseq = s.events.eseq + (if (s.dies[d]).str.bits.getLsbD 3 then 0 else 1))) ∧
    (∀ m, s.hasDie d = true → s.msgs.dies.filter (fun x => x.target == d) = [m] → s.path m.sender d = true → m.ctx = j →
      m.dmask = b.dmask →
      (m.gen = b.gen + 1 → ∃ t, exec (.dieBarrierMessage d 0) s = Next t ∧
        t.bar d j = { b with dearly := b.dearly ||| (1#4 <<< m.sender.val) } ∧
        t.msgs = { s.msgs with dies := s.msgs.dies.filter fun x => x.target != d }) ∧
      (m.gen = b.gen → b.full = true → b.dieMask = true → b.darr.getLsbD d.val = true → b.cmask ≠ 0 →
        b.darr ||| (1#4 <<< m.sender.val) = b.dmask → b.early = 0 →
        ∃ t, exec (.dieBarrierMessage d 0) s = Next t ∧
          t.bar d j = { b with gen := b.gen + 1, arrived := 0, slots := b.eslots, eslots := [], darr := b.dearly, dearly := 0 } ∧
          t.msgs = { s.msgs with
            dies := s.msgs.dies.filter fun x => x.target != d
            notes := s.msgs.notes ++ b.slots.map fun x => ⟨x.1, d.val, x.2.1, x.2.2⟩ }))

/-- R233-R235, R237, R241, R296, R297: configuring, binding and aborting barrier contexts, and the messages of a fabric context's
tree: a child's arrival is kept, a release passes the generation on, a wrong fingerprint is refused and counted. -/
def Obligations.BarrierRegistersAndFabric : Prop :=
  ∀ (s : State), s.dark = false →
    (s.barOpen 0 = true → ∀ (d : DieId) (j : Fin 16) (v : Word), s.hasDie d = true → s.dieOut d = false →
      (s.barRefused d j v = false → exec (.barCfgWrite d j v) s = Next (s.updBar d j fun b =>
        { b with valid := v.getLsbD 63, dieMask := v.getLsbD 62, dmask := v.extractLsb' 48 4, cmask := v.extractLsb' 0 16 })) ∧
      (s.barRefused d j v = true → ∃ t, exec (.barCfgWrite d j v) s = Next t ∧ t.bar d j = s.bar d j ∧
        (t.dies[d]).str.bits = (s.dies[d]).str.bits ||| 0x01) ∧
      exec (.babort d j) s = Next ((s.markAborted ((s.bar d j).slots ++ (s.bar d j).eslots)).updBar d j fun b =>
        { b with gen := b.gen + 1, arrived := 0, early := 0, darr := 0, dearly := 0, slots := [], eslots := [] })) ∧
    (s.barOpen 0 = true → ∀ (j : Fin 8) (v : Word),
      ((s.fab j).arrivals = false → v ≠ 0 → v.toNat < 2 ^ s.coreCount →
        exec (.fbarCfgWrite j v) s = Next (s.updFab j fun f => { f with fcmask := v })) ∧
      (∃ l : List (BitVec 16), (s.fab j).gen ∈ l ∧
        exec (.fabort j) s = Next ((s.markAborted ((s.fab j).slots ++ (s.fab j).eslots)).updFab j fun f =>
          { f with gen := f.gen + 1, arrived := 0, early := 0, slots := [], eslots := [], kids := [], ekids := [], sent := false,
                   relGen := none, aborted := l })) ∧
      ((s.fab j).arrivals = false → (s.fab j).kids = [] → (s.fab j).ekids = [] →
        (v.getLsbD 63 = true → (s.group (v.extractLsb' 0 12)).valid = true) →
        exec (.fbarBindWrite j v) s = Next (s.updFab j fun f => { f with valid := v.getLsbD 63, group := v.extractLsb' 0 12 }))) ∧
    (∀ (j : Fin 8) (m : FabMsg),
      let f := s.fab j
      let g := s.group f.group
      (g.gfp ≠ m.gfp → exec (.fabricBarrierMessage j m) s = Next { s with
        baton := { s.baton with gfpErr := true, refuse := sat16 s.baton.refuse 1 } }) ∧
      (f.valid = true → g.valid = true → g.gfp = m.gfp → m.gen = f.gen →
        (m.release = true → childrenOf g g.myrank.toNat = [] → f.early = 0 → f.fcmask ≠ 0 →
          exec (.fabricBarrierMessage j m) s = Next ((s.updFab j fun f =>
            { f with gen := f.gen + 1, arrived := 0, slots := f.eslots, eslots := [], kids := f.ekids, ekids := [],
                     sent := false, relGen := some f.gen }).sendNotes 4 f.slots)) ∧
        (m.release = false → m.fromRank.toNat ∈ childrenOf g g.myrank.toNat → f.arrived ≠ f.fcmask →
          m.fromRank.toNat ∉ f.kids →
          exec (.fabricBarrierMessage j m) s = Next (s.updFab j fun f => { f with kids := f.kids ++ [m.fromRank.toNat] }))) ∧
      (f.valid = true → f.sent = true → g.myrank ≠ 0 → f.relGen = none →
        exec (.fabricBarrierResend j) s = Next (s.sendFabric j g ((g.myrank.toNat - 1) / 16) false f.gen)) ∧
      (∀ gen, f.valid = true → f.sent = false → f.relGen = some gen →
        exec (.fabricBarrierResend j) s = Next (((childrenOf g g.myrank.toNat).filter fun r => !f.kids.contains r).foldl
          (fun s r => s.sendFabric j g r true gen) s)))

/-- R246, R257, R258, R357: what host software does to a queue: a doorbell moves `TAIL` or sets `DBERR`, and a command that arrives for a
due core makes the core owed; STOP halts an idle or waiting
queue and lets a running command end; RESUME, SKIP and FLUSH take a halted queue on. -/
def Obligations.HostActsOnQueues : Prop :=
  ∀ (s : State) (q : QId), s.dark = false → s.barOpen 0 = true → s.barOpen 1 = true → s.host.ready = true →
    let x := s.queue q.val
    let sets (i : Instr) (f : Queue → Queue) := exec i s = Next (s.updQueue q.val f)
    let goesOn (i : Instr) (y : Queue) := ∃ u, s.onlyQueue u q.val y ∧ exec i s = Next u
    let onDue (p : PCoreNo) : Prop := (x.ecls = 1 ∨ x.ecls = 2) ∧ s.servedBy x.lcore = some p ∧
      (s.pcore (dieOf x.lcore) p).due.isSome = true
    (∀ v : Word, x.en = true →
      let t : BitVec 32 := v.extractLsb' 0 32
      let moved (y : Queue) : Queue :=
        { y with tail := t, qstate := if y.qstate = .idle ∧ y.done ≠ t then .waiting else y.qstate }
      (v.extractLsb' 32 32 = 0 → (t - x.done).toNat ≤ 2 ^ x.log2n.toNat → (t - x.tail).toNat < 2 ^ 31 →
        ((∀ p, ¬ onDue p) → goesOn (.doorbell q v true) (moved x)) ∧
        (∀ p, onDue p → (s.pcore (dieOf x.lcore) p).test = none → (s.pcore (dieOf x.lcore) p).owed = false → x.done ≠ t →
          ∃ u, s.onlyQueue u q.val (moved x) ∧
            exec (.doorbell q v true) s = Next (u.updPCore (dieOf x.lcore) p fun c =>
              { c with owed := true, owedAt := s.cooldown.phours, due := none }))) ∧
      ((∀ p, ¬ onDue p) → v.extractLsb' 32 32 ≠ 0 ∨ 2 ^ x.log2n.toNat < (t - x.done).toNat ∨ 2 ^ 31 ≤ (t - x.tail).toNat →
        sets (.doorbell q v true) fun x => { x with dberr := true }) ∧
      ((∀ p, ¬ onDue p) → sets (.doorbell q v false) fun x => { x with dberr := true })) ∧
    (x.qstate = .idle → goesOn (.stop q) { x.dropHead with qstate := .halted, hcause := ST_STOPPED, ahead := [] }) ∧
    (x.qstate = .waiting → ∃ t, exec (.stop q) s = Next t ∧ (t.queue q.val).qstate = .halted ∧
      (t.queue q.val).hcause = ST_STOPPED ∧ (t.queue q.val).done = x.done ∧ (t.queue q.val).tail = x.tail ∧
      q.val ∉ t.ready ∧ q.val ∉ t.active) ∧
    (x.qstate = .active → x.begun = false → x.fin = none → sets (.stop q) fun x =>
      { x with qstate := .stopping, fin := some ⟨ST_STOPPED, 0⟩ }) ∧
    (∀ r, x.qstate = .active → x.ecls = 5 → cmdOpc (x.head.getD 0) = 0x50 → x.fin = some ⟨ST_OK, r⟩ →
      exec (.stop q) s = Next (({ s with handles := { s.handles with
        live := Sparse.del s.handles.live (r.toNat % 2 ^ 20), returned := r.toNat % 2 ^ 20 :: s.handles.returned } } : State).updQueue
        q.val fun x => { x with qstate := .stopping, fin := some ⟨ST_STOPPED, 0⟩ })) ∧
    (x.qstate = .active → x.begun = true → x.fin = none → x.ecls = 1 → (s.core x.lcore).running = true →
      exec (.stop q) s = Next ((s.updCore x.lcore fun c =>
        let c := match c.arch.seq.phase with
          | .gap a => c.goTo c.following a Phase.gap
          | _ => c
        { c with arch := { c.arch with stopCause := 0x07, seq := { c.arch.seq with phase := .stopped } } }).updQueue q.val
        fun x => { x with qstate := .stopping })) ∧
    (x.qstate = .halted →
      (goesOn (.resume q) { x.dropHead with qstate := if x.done = x.tail then .idle else .waiting, hcause := 0 }) ∧
      (x.done ≠ x.tail → goesOn (.skip q) { x.dropHead with done := x.done + 1, hcause := 0, qstate := if x.done + 1 = x.tail then .idle else .waiting })) ∧
    (x.qstate = .halted ∨ x.qstate = .idle ∨ x.qstate = .waiting → ∃ t, exec (.flush q) s = Next t ∧
      (t.queue q.val).done = x.tail ∧ (t.queue q.val).tail = x.tail ∧ (t.queue q.val).qstate = .idle ∧
      (t.queue q.val).hcause = 0 ∧ q.val ∉ t.ready)

/-- R242, R252, R253, R256, R504: a waiting head whose checks pass and whose dependency words are met is ready; one that fails a
check, or waits for a halted queue, completes with its status and halts its queue; the engine takes the ready head in order. A word once met stays met, and so does a halt once seen. -/
def Obligations.HeadsAreJudgedAndTaken : Prop :=
  ∀ (s : State) (q : QId) (c : BitVec 512), s.dark = false → (s.queue q.val).qstate = .waiting → (s.queue q.val).head = some c →
    s.guard.twin.redo = [] →
    let x := s.queue q.val
    let m1 := x.w1 || s.depMet (cmdDep c 0)
    let m2 := x.w2 || s.depMet (cmdDep c 1)
    (q.val ∉ s.ready → s.judgeHead q.val c = none → x.depHalt = false →
      (m1 = true → m2 = true → exec (.dependencyMet q) s =
        Next { (s.updQueue q.val fun x => { x with w1 := true, w2 := true }) with ready := s.ready ++ [q.val] }) ∧
      ((m1 && m2) = false → (!m1 && s.depHalted (cmdDep c 0)) = false → (!m2 && s.depHalted (cmdDep c 1)) = false →
        exec (.dependencyMet q) s = Next (s.updQueue q.val fun x => { x with w1 := m1, w2 := m2 })) ∧
      (m1 = false → s.depHalted (cmdDep c 0) = true → ∃ t, exec (.dependencyMet q) s = Next t ∧
        (t.queue q.val).qstate = .halted ∧ (t.queue q.val).hcause = ST_DEP_HALTED ∧ (t.queue q.val).done = x.done)) ∧
    (q.val ∉ s.ready → s.judgeHead q.val c = none → x.depHalt = true → ∃ t, exec (.dependencyMet q) s = Next t ∧
      (t.queue q.val).qstate = .halted ∧ (t.queue q.val).hcause = ST_DEP_HALTED ∧ (t.queue q.val).done = x.done) ∧
    (∀ st, q.val ∉ s.ready → s.judgeHead q.val c = some st → ∃ t, exec (.dependencyMet q) s = Next t ∧
      (t.queue q.val).qstate = .halted ∧ (t.queue q.val).hcause = st ∧ (t.queue q.val).done = x.done) ∧
    (s.nextTaken q.val = true → (x.ecls = 1 ∨ x.ecls = 2 → (s.core x.lcore).unavailable = false) →
      exec (.commandDispatch q) s = Next { (s.updQueue q.val fun x =>
          { x with qstate := .active, begun := false, moved := 0, fin := none }) with
        ready := s.ready.filter (fun r => r != q.val), active := s.active ++ [q.val] })

/-- R254-R257, R260: the head of an ACTIVE queue with a result completes: its 64-byte record stands in its slot and no other byte
changes; `DONE` rises by 1 where the status goes on, and the queue halts with it where it does not. A launch has its result
when its core has stopped and everything that was in flight has landed. -/
def Obligations.CommandsComplete : Prop :=
  ∀ (s : State) (q : QId) (c : BitVec 512) (f : Finish), s.dark = false → (s.queue q.val).qstate = .active →
    (s.queue q.val).head = some c →
    (s.queue q.val).fin = some f ∨ ((s.queue q.val).fin = none ∧ s.launchFin q.val = some f) →
    let x := s.queue q.val
    let slot := x.base + 64 * (x.done.toNat % 2 ^ x.log2n.toNat)
    x.base % 64 = 0 → s.stackDead slot = false → Memory.wf s.mem = true →
    ∃ t, exec (.commandCompletion q) s = Next t ∧
      Memory.bytes t.mem slot 64 = natLe 64 (completionRecord q.val x.done (c.extractLsb' 32 32) f.status f.result).toNat ∧
      (∀ a, a < slot ∨ slot + 64 ≤ a → Memory.byte t.mem a = Memory.byte s.mem a) ∧
      (f.status = ST_OK ∨ f.status = ST_PREFIX_STOP ∨ f.status = ST_FLUSHED →
        (t.queue q.val).done = x.done + 1 ∧ (t.queue q.val).qstate = if x.done + 1 = x.tail then .idle else .waiting) ∧
      (f.status ≠ ST_OK → f.status ≠ ST_PREFIX_STOP → f.status ≠ ST_FLUSHED →
        (t.queue q.val).done = x.done ∧ (t.queue q.val).qstate = .halted ∧ (t.queue q.val).hcause = f.status ∧
        (t.queue q.val).head = none ∧ (t.queue q.val).ahead = []) ∧
      (t.queue q.val).begun = false ∧ (t.queue q.val).fin = none ∧ q.val ∉ t.active ∧ (∀ j, t.core j = s.core j)

/-- R135, R259, R260, R262: the commands of a core and of a Starter: LAUNCH starts the program of a stopped core with its start
bundle and empties the watch slots of aborted barriers (R235), MARK completes, CTRSET sets a counter of a stopped core or adds to one, and
says what it cannot do. They cross the die link, and wait while it is not ACTIVE (R378); a core that rotates, or whose port a Cooldown test
isolates, is left until it is reached again (R236). -/
def Obligations.LaunchMarkAndCtrset : Prop :=
  ∀ (s : State) (q : QId) (c : BitVec 512), s.dark = false →
    let x := s.queue q.val
    let k := x.lcore
    let ends (s : State) (st : Byte) := Next (s.updQueue q.val fun x => { x with fin := some ⟨st, 0⟩ })
    (s.headFor q.val 0x01 = some c → x.begun = false → (s.core k).isStopped = true → s.dieHeld (dieOf k) = false →
      s.rotating k = false → s.linkUp (dieOf k) = true →
      exec (.launch q) s = Next ((s.updQueue q.val fun x => { x with begun := true }).updCore k fun y =>
        { y with
          arch := { y.arch with
            stopCause := 0
            watches := y.arch.watches.map fun w => if w.aborted then WatchRec.reset else w
            seq := { y.arch.seq with pc := c.extractLsb' 192 13, cyc := 0, issued := 0, lstk := [], cstk := [], past := false,
                                     phase := .issuing y.now } }
          dump := []
          lastBO := 0
          launch := some ⟨q.val, c.extractLsb' 256 48, c.getLsbD 241, y.now, none, ST_STOPPED⟩ })) ∧
    (s.headFor q.val 0x0F = some c → exec (.mark q) s = ends s ST_OK) ∧
    (s.headFor q.val 0x40 = some c →
      let lc := opf c 22 6
      let n := opf c 16 6
      (s.coreCount ≤ lc → exec (.ctrset q) s = ends s ST_ABSENT_ENGINE) ∧
      (lc < s.coreCount → lc / 16 ≠ x.inst.toNat ∨ 47 < n → exec (.ctrset q) s = ends s ST_BAD_CMD) ∧
      (∀ j : CoreId, n < 48 → lc < s.coreCount → lc / 16 = x.inst.toNat → j.val = lc → s.hubDie (dieOf j) = false →
        exec (.ctrset q) s = Next s) ∧
      (∀ (j : CoreId) (h : n < 48), lc < s.coreCount → lc / 16 = x.inst.toNat → j.val = lc → s.hubDie (dieOf j) = true →
        let u := s.settle j
        let v : BitVec 16 := BitVec.ofNat 16 (opf c 0 16)
        let gives (new change : BitVec 16) := exec (.ctrset q) s = ends (u.updCore j fun y =>
          { y with arch := { y.arch with ctrs := y.arch.ctrs.set n new }
                   outside := y.outside ++ [(BitVec.ofNat 6 n, change)] }) ST_OK
        (s.cutOff j = false → opf c 28 1 = 1 → gives ((u.core j).arch.ctrs[n] + v) v) ∧
        (s.cutOff j = false → opf c 28 1 = 0 → (u.core j).isStopped = true → gives v (v - (u.core j).arch.ctrs[n])) ∧
        (s.cutOff j = false → opf c 28 1 = 0 → (u.core j).isStopped = false →
          exec (.ctrset q) s = ends u ST_CORE_BUSY) ∧
        (s.cutOff j = true → opf c 28 1 = 1 → exec (.ctrset q) s = ends { s with
          msgs := { s.msgs with ctrs := s.msgs.ctrs ++ [⟨j, 64 + q.val, BitVec.ofNat 6 n, v, false⟩] } } ST_OK) ∧
        (s.cutOff j = true → opf c 28 1 = 0 → exec (.ctrset q) s = Next s)))

/-- R263-R265, R497: TALLOC gives the range, the handle and the tag it allocates, or its status; TFREE frees a handle and raises its
index's generation, and the range's bibs lose its tag; a handle that is not allocated is refused. -/
def Obligations.TensorHandles : Prop :=
  ∀ (s : State) (q : QId) (c : BitVec 512), s.dark = false →
    let ends (s : State) (st : Byte) (r : BitVec 384) := Next (s.updQueue q.val fun x => { x with fin := some ⟨st, r⟩ })
    (s.headFor q.val 0x50 = some c →
      let size := opf c 0 32
      let hint : BitVec 32 := BitVec.ofNat 32 (opf c 32 32)
      (s.badAlloc size hint = true → exec (.talloc q) s = ends s ST_BAD_CMD 0) ∧
      (s.badAlloc size hint = false → s.handles.front = none → exec (.talloc q) s = ends s ST_NO_HANDLE 0) ∧
      (∀ r t, s.talloc size hint = (ST_OK, r, t) → exec (.talloc q) s = ends t ST_OK r ∧
        ∃ idx h, s.handles.front = some idx ∧ Sparse.find t.handles.live idx = some h ∧ h.blocks = size ∧ h.hint = hint ∧
          r.extractLsb' 0 32 = h.gen ++ BitVec.ofNat 20 idx ∧ r.extractLsb' 32 12 = h.tag)) ∧
    (s.headFor q.val 0x51 = some c →
      let h : BitVec 32 := BitVec.ofNat 32 (opf c 0 32)
      (s.handle h = none → exec (.tfree q) s = ends s ST_BAD_HANDLE 0) ∧
      (∀ r, s.handle h = some r → Sparse.sorted s.handles.live = true →
        ∃ t, exec (.tfree q) s = ends t ST_OK 0 ∧ t.handle h = none ∧
          t.handles.freed = s.handles.freed ++ [(h.extractLsb' 0 20).toNat] ∧
          Sparse.find t.handles.gens (h.extractLsb' 0 20).toNat = some (r.gen + 1) ∧
          (∀ n b, r.first ≤ n → n < r.first + r.blocks → Sparse.find t.bibs n = some b → bibTag b = 0) ∧
          (∀ n, n < r.first ∨ r.first + r.blocks ≤ n → Sparse.find t.bibs n = Sparse.find s.bibs n) ∧
          { t with handles := s.handles, bibs := s.bibs, fills := s.fills } = s))

/-- R267, R268, R270-R272, R435: HCOPY moves blocks between host memory and a tensor and checks or makes their bibs; DUMP copies the
state window of a stopped core; the checkpoint commands judge their operands, and an import its image, before anything is written, and then
move their blocks one by one, as far as the die links reach them; a failed transfer of the host port ends them. -/
def Obligations.ClerkCopies : Prop :=
  ∀ (s : State) (q : QId) (c : BitVec 512), s.dark = false →
    let x := s.queue q.val
    let ends (s : State) (st : Byte) (r : BitVec 384) := Next (s.updQueue q.val fun x => { x with fin := some ⟨st, r⟩ })
    let ha := opf c 0 64
    (s.headFor q.val 0x52 = some c → ∀ r n hf, s.handle (BitVec.ofNat 32 (opf c 64 32)) = some r →
      (ha % 64 ≠ 0 ∨ r.blocks < opf c 96 32 + opf c 128 32 → exec (.hcopy q n hf) s = ends s ST_BAD_CMD 0) ∧
      (ha % 64 = 0 → opf c 96 32 + 1 ≤ r.blocks → opf c 128 32 = 1 → s.host.linkUp = true → x.moved = 0 →
        s.hubReaches (4096 * (r.first + opf c 96 32)) = true →
        (opf c 160 1 = 1 → ∀ b, s.readTensor r (opf c 96 32) = some b → ∃ t, exec (.hcopy q 1 hf) s = Next t ∧
          t.hostMem = Memory.setBytes s.hostMem ha b.1 ∧ (t.queue q.val).fin = some ⟨ST_OK, 1⟩ ∧ t.mem = s.mem) ∧
        (opf c 160 1 = 1 → s.readTensor r (opf c 96 32) = none → ∃ t, exec (.hcopy q 1 hf) s = Next t ∧
          t.hostMem = s.hostMem ∧ (t.queue q.val).fin = some ⟨ST_BIB_FAIL, 0⟩ ∧ t.mem = s.mem) ∧
        (opf c 160 1 = 0 → s.stackDead (4096 * (r.first + opf c 96 32)) = false → ∃ t, exec (.hcopy q 1 hf) s = Next t ∧
          t.hostMem = s.hostMem ∧ (t.queue q.val).fin = some ⟨ST_OK, 1⟩ ∧
          t.mem = Memory.setBytes s.mem (4096 * (r.first + opf c 96 32)) (Memory.bytes s.hostMem ha 4096) ∧
          Sparse.find t.bibs (r.first + opf c 96 32) =
            some (r.tag ++ (BitVec.ofNat 20 (opf c 96 32) ++ crc32c (Memory.bytes s.hostMem ha 4096)))))) ∧
    (s.headFor q.val 0x53 = some c → ha % 64 = 0 → ∀ j : CoreId, j.val = opf c 64 6 → j.val < s.coreCount →
      ((s.core j).isStopped = false → x.begun = false → exec (.dump q 16 false) s = ends s ST_CORE_BUSY 0) ∧
      ((s.core j).isStopped = true → s.host.linkUp = true → s.hubDie (dieOf j) = true → x.moved = 0 → Memory.wf s.hostMem = true →
        ∃ t, exec (.dump q 16 false) s = Next t ∧ (t.queue q.val).fin = some ⟨ST_OK, 0⟩ ∧ t.mem = s.mem ∧
          (∀ a, a < 65536 → Memory.byte t.hostMem (ha + a) = (s.core j).windowByte a) ∧
          (∀ a, a < ha ∨ ha + 65536 ≤ a → Memory.byte t.hostMem a = Memory.byte s.hostMem a))) ∧
    (s.headFor q.val 0x55 = some c → s.host.linkUp = true → Memory.wf s.hostMem = true →
      (∀ e, x.begun = false → s.ckptJudge c = .inl e → ∀ m, exec (.ckptExport q m) s = ends s e.1 e.2) ∧
      (∀ ds, x.begun = false → x.image = [] → s.ckptJudge c = .inr ds → s.imageBlocks ds ≠ [] →
        let head := s.ckptHeader ds.length ++ ds.flatMap fun d => natLe 64 d.toNat
        ∃ t, exec (.ckptExport q ⟨0, false⟩) s = Next t ∧ (t.queue q.val).begun = true ∧ (t.queue q.val).fin = none ∧
          (t.queue q.val).image = head ∧ (t.queue q.val).moved = 0 ∧ t.mem = s.mem ∧
          t.hostMem = Memory.setBytes s.hostMem ha head) ∧
      (x.begun = true →
        let blks := s.imageBlocks (imageDescs x.image)
        let at_ := ha + x.image.length
        (∀ r i b, blks[x.moved]? = some (r, i) → x.moved + 1 < blks.length → s.readTensor r i = some b → s.hubReaches (4096 * (r.first + i)) = true →
          ∃ t, exec (.ckptExport q ⟨1, false⟩) s = Next t ∧ (t.queue q.val).fin = none ∧ (t.queue q.val).moved = x.moved + 1 ∧
            (t.queue q.val).image = x.image ++ (b.1 ++ natLe 8 b.2.toNat) ∧ t.mem = s.mem ∧
            t.hostMem = Memory.setBytes s.hostMem at_ (b.1 ++ natLe 8 b.2.toNat)) ∧
        (∀ r i, blks[x.moved]? = some (r, i) → s.readTensor r i = none → s.hubReaches (4096 * (r.first + i)) = true →
          exec (.ckptExport q ⟨1, false⟩) s = ends s ST_BIB_FAIL 0) ∧
        (blks.length ≤ x.moved → ∃ t, exec (.ckptExport q ⟨0, false⟩) s = Next t ∧ (t.queue q.val).fin = some ⟨ST_OK, 0⟩ ∧
          t.hostMem = Memory.setBytes s.hostMem at_ (sha256 x.image) ∧ t.mem = s.mem) ∧
        (x.moved ≤ blks.length → ∃ t, exec (.ckptExport q ⟨0, true⟩) s = Next t ∧
          (t.queue q.val).fin = some ⟨ST_HOST_FAIL, 0⟩ ∧ t.hostMem = s.hostMem ∧ t.host.hfails = sat16 s.host.hfails 1))) ∧
    (s.headFor q.val 0x56 = some c → s.host.linkUp = true →
      (∀ e, x.begun = false → s.ckptJudge c = .inl e → ∀ m, exec (.ckptImport q m) s = ends s e.1 e.2) ∧
      (∀ ds, x.begun = false → s.ckptJudge c = .inr ds → s.imageBlocks ds ≠ [] →
        let im := Memory.bytes s.hostMem ha (s.ckptSize ds)
        (∀ n, s.imageFits im ds = false → exec (.ckptImport q ⟨n, false⟩) s = ends s ST_CKPT_MISMATCH 0) ∧
        (s.imageFits im ds = true → exec (.ckptImport q ⟨0, false⟩) s =
          Next (s.updQueue q.val fun x => { x with begun := true, image := im, moved := 0 }))) ∧
      (x.begun = true →
        let list := opf c 64 48
        let ds := s.ckptList list (opf c 112 16)
        let blks := s.imageBlocks ds
        let data := (x.image.drop (128 + 64 * ds.length + 4104 * x.moved)).take 4096
        (∀ r i, blks[x.moved]? = some (r, i) → x.moved + 1 < blks.length → s.stackDead (4096 * (r.first + i)) = false →
          s.hubReaches (4096 * (r.first + i)) = true →
          ∃ t, exec (.ckptImport q ⟨1, false⟩) s = Next t ∧ (t.queue q.val).moved = x.moved + 1 ∧ (t.queue q.val).fin = none ∧
            t.hostMem = s.hostMem ∧ t.mem = Memory.setBytes s.mem (4096 * (r.first + i)) data ∧
            Sparse.find t.bibs (r.first + i) = some (mkBib r.tag i (crc32c data))) ∧
        (blks.length ≤ x.moved → (∀ n, n < ds.length → s.place (list + 64 * n) = .hbm ∧ s.place (list + 64 * n + 8) = .hbm ∧ s.hubReaches (list + 64 * n) = true) →
          ∃ t, exec (.ckptImport q ⟨0, false⟩) s = Next t ∧ (t.queue q.val).fin = some ⟨ST_OK, 0⟩ ∧ t.hostMem = s.hostMem ∧
            t.stepCtr = BitVec.ofNat 48 (leNat ((x.image.drop 24).take 6)) ∧
            t.skips = BitVec.ofNat 32 (leNat ((x.image.drop 32).take 4)))))

/-- R18, R19, R269: STEPCLOSE without a guard commits the step once its rotations have ended: the step counter rises by 1, the
skip count too where the skip word is not 0; an unmapped skip word ends it with its first unmapped address (where the record has it is
the model's choice, log entry 89); the end of a rotation's copy gives the logical core to the spare. -/
def Obligations.StepCloseAndRotation : Prop :=
  ∀ (s : State), s.dark = false →
    (∀ (q : QId) (c : BitVec 512), s.headFor q.val 0x54 = some c → (s.queue q.val).begun = false → s.stepPhase = .idle →
      s.guard = Guard.reset →
      let addr := opf c 0 48
      (s.stepCtr = 0xFFFFFFFFFFFF → exec (.stepclose q) s = Next (s.updQueue q.val fun x => { x with fin := some ⟨ST_STEP_END, 0⟩ })) ∧
      (∀ i, s.stepCtr ≠ 0xFFFFFFFFFFFF → addr ≠ 0 → i < 4 → (s.place (addr + i)).isMem = false →
        (∀ j, j < i → (s.place (addr + j)).isMem = true) →
        exec (.stepclose q) s = Next (s.updQueue q.val fun x =>
          { x with fin := some ⟨ST_UNMAPPED, BitVec.ofNat 384 ((addr + i) * 2 ^ 192)⟩ })) ∧
      (s.stepCtr ≠ 0xFFFFFFFFFFFF → (addr = 0 ∨ ∀ i, i < 4 → (s.place (addr + i)).isMem = true ∧ s.stackDead (addr + i) = false) →
        s.rotations = [] → s.rotReq = [] → (∀ d, s.overdueOf d = []) →
        let skip := addr ≠ 0 ∧ leNat (Memory.bytes s.mem addr 4) ≠ 0
        ∃ t, exec (.stepclose q) s = Next t ∧ t.stepCtr = s.stepCtr + 1 ∧ (skip → t.skips = s.skips + 1) ∧
          (¬ skip → t.skips = s.skips) ∧ t.stepPhase = .idle ∧ t.handles.recent = [] ∧
          (t.queue q.val).fin = some ⟨ST_OK, BitVec.ofNat 384 (t.stepCtr.toNat + t.skips.toNat * 2 ^ 64)⟩)) ∧
    (∀ (k : CoreId) (r : Rotation) (rest : List Rotation), s.hasCore k = true → s.dieHeld (dieOf k) = false →
      s.rotations = r :: rest → r.core = k → s.rotationPoint k = true → s.stepPhase = .idle → r.from_ ≠ r.into →
      (∀ i, r.reason ≠ .restoreFailed i) → (r.reason = .coreFault ∨ r.reason = .twin → s.queuesStopped = true) → s.guard.replaying = none →
      s.cooldown.fill = [] →
      ∃ t, exec (.rotationCopyComplete k) s = Next t ∧ t.rotations = rest ∧
        (t.pcore (dieOf k) r.into).pst = .active ∧ (t.pcore (dieOf k) r.into).lcore = BitVec.ofNat 7 k.val ∧
        (t.pcore (dieOf k) r.from_).lcore = 0x7F ∧ (t.pcore (dieOf k) r.from_).pst ≠ .active ∧
        (∀ p, p ≠ r.from_ → p ≠ r.into → t.pcore (dieOf k) p = s.pcore (dieOf k) p) ∧ ∀ j, t.core j = s.core j)

/-- R284, R285, R288, R289, R291, R292, R299: a head of Baton begins once its operands are judged: a SHIFT with its halves, a
permutation with its entries, each send entry announced to the member of its rank; PERMI tells every other rank its count,
PERMR writes the rows that do not return as zeros. A command that is judged bad ends with its status. (No backups, no twin, nothing of another module waiting, the die links carrying traffic.) -/
def Obligations.BatonCommandsBegin : Prop :=
  ∀ (s : State) (q : QId) (up : Upset) (c : BitVec 512), s.dark = false → (s.queue q.val).begun = false → s.baton.waiting = [] →
    (∀ d ∈ s.baton.cmds, d.queue ≠ q.val) → s.guard.twen = false →
    let begun (u : State) (x : BatonCmd) : State :=
      { (u.updQueue q.val fun y => { y with begun := true }) with baton := { u.baton with cmds := u.baton.cmds ++ [x], ended := u.baton.ended.filter x.keepsEnded } }
    (s.headFor q.val 0x20 = some c →
      let gn := opf c 280 12
      let g := s.group (BitVec.ofNat 12 gn)
      let n := opf c 192 32
      let axis := opf c 292 2
      let dist := opf c 296 16
      let dir := opf c 294 1 == 1
      let halves := opf c 258 2
      let ks := batonCounters c 257 244
      let onward := g.neighbour g.myrank.toNat axis dist
      let back := g.neighbour g.myrank.toNat axis (g.axis axis - dist % g.axis axis)
      let onto := if dir then back else onward
      let of_ := if dir then onward else back
      let key : XferKey := .shift (BitVec.ofNat 2 axis) dir (BitVec.ofNat 16 dist)
      let sends := halves = 1 ∨ halves = 3
      let takes := halves = 2 ∨ halves = 3
      (g.valid = false ∨ g.naxm1.toNat < axis ∨ dist = 0 ∨ n = 0 ∨ 2 ^ 24 < n ∨ halves = 0 →
        exec (.shift ⟨q, up⟩) s = Next (s.updQueue q.val fun x => { x with fin := some ⟨ST_BAD_CMD, 0⟩ })) ∧
      (∀ e, g.valid = true → axis ≤ g.naxm1.toNat → dist ≠ 0 → 0 < n → n ≤ 2 ^ 24 → sends → s.counterAbsent ks = false →
        s.locate (opf c 0 96) n = .inl e → exec (.shift ⟨q, up⟩) s = Next (s.updQueue q.val fun x => { x with fin := some ⟨e.1, e.2⟩ })) ∧
      (∀ rs rr, g.valid = true → axis ≤ g.naxm1.toNat → dist ≠ 0 → 0 < n → n ≤ 2 ^ 24 → halves ≠ 0 → s.counterAbsent ks = false →
        g.grace = 0 → (sends → s.locate (opf c 0 96) n = .inr rs) → (takes → s.locate (opf c 96 96) n = .inr rr) →
        (sends → BitVec.ofNat 16 onto ≠ g.myrank) → (takes → BitVec.ofNat 16 of_ ≠ g.myrank) →
        let cmd := s.batonCmd q.val 0x20 g gn (opf c 264 16) (opf c 260 3) (opf c 224 8) ks
          ((if sends then [mkXfer true onto key rs g.myrank] else []) ++ (if takes then [mkXfer false of_ key rr g.myrank] else [])) none
        cmd.reached s = true →
        exec (.shift ⟨q, up⟩) s = Next (if sends then (begun s cmd).sendMsg (s.memberOf g onto).ep
            (.handshake ⟨BitVec.ofNat 12 gn, g.gfp, BitVec.ofNat 16 (opf c 264 16), key, g.myrank, s.dxt.myep, n, rs.2,
              rs.1.map fun b => BitVec.ofNat 20 b.idx, (0, 0), s.inBackup g⟩)
          else begun s cmd))) ∧
    (let gn := opf c 68 12
     let g := s.group (BitVec.ofNat 12 gn)
     let a := opf c 0 48
     let ks := batonCounters c 125 112
     let cmd (opc : Nat) (xs : List Xfer) (p : Option PermiState) :=
       s.batonCmd q.val opc g gn (opf c 80 16) (opf c 96 3) 0 ks xs p
     g.valid = true → g.grace = 0 → a % 64 = 0 → ks.1 = false → ks.2.2.2.1 = false → (s.place a).isMem = true →
     (s.headFor q.val 0x21 = some c → opf c 48 20 = 1 →
        let e : BitVec 256 := BitVec.ofNat 256 (s.rdDevNat a 32)
        let n := fld e 0 32
        let peer := fld e 32 16
        ∀ r, fld e 160 96 = 0 → fld e 49 15 = 0 → peer ≤ g.nrankm1.toNat → 0 < n → n ≤ 2 ^ 24 → s.locate (fld e 64 96) n = .inr r →
          BitVec.ofNat 16 peer ≠ g.myrank → (∀ b ∈ r.1, s.hubReaches b.addr = true) →
          (e.getLsbD 48 = true → exec (.permt ⟨q, up⟩) s =
            Next (begun s { cmd 0x21 [mkXfer false peer (.perm 0) r g.myrank] none with sRaised := true })) ∧
          (e.getLsbD 48 = false → exec (.permt ⟨q, up⟩) s =
            Next ((begun s { cmd 0x21 [mkXfer true peer (.perm 0) r g.myrank] none with rRaised := true }).sendMsg
              (s.memberOf g peer).ep
              (.handshake ⟨BitVec.ofNat 12 gn, g.gfp, BitVec.ofNat 16 (opf c 80 16), .perm 0, g.myrank, s.dxt.myep, n, r.2,
                r.1.map fun b => BitVec.ofNat 20 b.idx, (0, 0), s.inBackup g⟩)))) ∧
     (opf c 48 20 = 0 → (∀ i, i < 4 → (s.place (a + 32 * i)).isMem = true) →
       let p : BitVec 1024 := BitVec.ofNat 1024 (s.rdDevNat a 128)
       (s.headFor q.val 0x22 = some c → badParams p false = false → ∀ x, s.readPermi g p = .inr x → 2 ≤ g.ranks →
         (∀ b ∈ x.src ++ x.dst ++ x.cnt ++ x.route, s.hubReaches b.addr = true) →
         let me := g.myrank.toNat
         exec (.permi ⟨q, up⟩) s = Next (((List.range g.ranks).filter fun r => r != me).foldl
           (fun u r => u.sendMsg (s.memberOf g r).ep
             (.permi ⟨BitVec.ofNat 12 gn, BitVec.ofNat 16 (opf c 80 16), .perm 0⟩ (.count g.myrank (x.rowsFor r).length)))
           (begun s (cmd 0x22 [] (some { x with counts := [(me, (x.rowsFor me).length)] }))))) ∧
       (s.headFor q.val 0x23 = some c → badParams p true = false →
         ∀ xs zs ztag rb, s.readPermr g p = .inr (xs, zs, ztag, rb) → (∀ x ∈ xs, x.own = true → x.blks = []) →
         (∃ x ∈ xs, x.own = false ∧ x.blks ≠ []) → (∀ x ∈ xs, ∀ b ∈ x.blks, s.hubReaches b.addr = true) →
         (∀ b ∈ zs, s.hubReaches b.addr = true) →
         let u := zs.foldl (fun u b => u.writeBlock b.addr (List.replicate 4096 0) (mkBib ztag b.idx zeroCrc) .baton) s
         ∃ t d, exec (.permr ⟨q, up⟩) s = Next t ∧ t.mem = u.mem ∧ t.bibs = u.bibs ∧ (t.queue q.val).begun = true ∧
           t.baton? q.val = some d ∧ d.opc = 0x23 ∧ d.stopping = false ∧
           d.xfers.map (fun x => (x.send, x.peer, x.blks, x.run)) = xs.map fun x => (x.send, x.peer, x.blks, x.run))))

/-- R282, R285-R287, R291, R298, R310-R312, R500: what Baton does with the messages and blocks of its peers: a handshake of a wrong group is
refused and counted, one with no half for it waits, one of a half that has ended is released or accepted; an accepted send half sends its
blocks; a block that fails its check against what was announced is asked for once more, then fails the command, a good one is written
with the bib of its place; acknowledgements end a half; a backup sends what it is asked for and ends with its release; a silent peer is
marked. Ended halves are kept by the model's choice (log entry 95). (The die links carry traffic, and no SRAM word that is read has an upset.) -/
def Obligations.BatonMessagesAct : Prop :=
  ∀ (s : State) (q : QId) (e : Nat), s.dark = false → s.guard.twen = false →
    (∀ h : Handshake,
      let u := s.takeMsg [h.fromEp]
      let good := (s.group h.group).valid = true ∧ (s.group h.group).gfp = h.gfp
      let unmet := (s.findXfer fun c x => handshakeMeets h c x) = none
      (¬ good →
        let v := u.sendMsg h.fromEp (.answer ⟨h.group, h.tag, h.key⟩ .refused)
        exec (.batonHandshake h) s = Next { v with
          baton := { v.baton with refuse := sat16 v.baton.refuse 1, gfpErr := true } }) ∧
      (good → unmet → (∀ d ∈ s.baton.ended, d.awaits h = false) →
        exec (.batonHandshake h) s = Next { u with baton := { u.baton with waiting := u.baton.waiting ++ [h] } }) ∧
      (∀ d, good → s.baton.ended = [d] → d.awaits h = true → exec (.batonHandshake h) s =
        Next (({ u with baton := { u.baton with ended := [if h.backup then { d with hsB := true } else { d with hsM := true }] } } : State).sendMsg
          h.fromEp (if h.backup then .ask d.name [] true else .answer d.name .accepted)))) ∧
    (∀ d rest j data bib b, s.baton.ended.filter (fun h => h.queue == q.val && h.entry == e) = d :: rest → d.diverges j data bib b = false →
      let m := s.memberOf (s.group d.name.group) d.rank.toNat
      let ep := if b then m.backup else m.ep
      exec (.batonBlockArrival q e j data bib ⟨b, some 0⟩) s =
        Next ((s.takeHandedBlock ep j).sendMsg ep (if d.stopped then .refuse d.name j else .ack d.name [j]))) ∧
    (∀ c x, s.xfer? q.val e = some (c, x) → x.own = false → c.stopping = false → c.reached s = true →
      s.baton.cmds.filter (fun d => d.queue == q.val) = [c] →
      let g := s.group c.group
      let m := s.memberOf g x.peer.toNat
      let u := s.takeMsg [m.ep]
      let name : XferName := ⟨c.group, c.tag, x.key⟩
      (x.send = true → x.accM = false →
        (exec (.handshakeRetry ⟨q, .none⟩ e false .refused) s = Next ((u.updBaton q.val fun c => { c with refusals := c.refusals + 1 }).sendMsg
          m.ep (.handshake ⟨c.group, g.gfp, c.tag, x.key, g.myrank, s.dxt.myep, x.blks.length, x.tag,
            x.blks.map fun b => BitVec.ofNat 20 b.idx, x.run, c.backup⟩))) ∧
        (c.backup = true → exec (.handshakeRetry ⟨q, .none⟩ e false .accepted) s =
          Next ((u.hears m.ep).updXfer q.val e fun x => { x with accM := true })) ∧
        (∀ b r, c.backup = false → x.blks = [b] → x.sent = [] → s.readSource b x.tag = some r →
          exec (.handshakeRetry ⟨q, .none⟩ e false .accepted) s =
            Next ((((u.hears m.ep).updXfer q.val e fun x => { x with accM := true }).transmit m.ep c.vc
              (.block name 0 r.1 r.2)).updXfer q.val e fun x => { x with sent := [0] }))) ∧
      (∀ j b data bib, x.send = false → x.hsM = true → x.blks[j]? = some b → data.length = 4096 →
        let v := s.takeHandedBlock m.ep j
        let arrives := exec (.batonBlockArrival q e j data bib ⟨false, none⟩) s
        let good := crcOk data bib = true ∧ bibTag bib = x.srcM.1 ∧ bibIdx bib = x.srcM.2.getD j 0
        (¬ good → j ∉ x.retried → arrives =
          Next ((({ v with baton := { v.baton with bibRetry := sat16 v.baton.bibRetry 1 } } : State).sendMsg m.ep
            (.again name j)).updXfer q.val e fun x => { x with retried := x.retried ++ [j] })) ∧
        (¬ good → j ∈ x.retried → arrives = Next ((v.sendMsg m.ep (.failed name j)).failBaton q.val ST_BIB_FAIL)) ∧
        (∀ l, good → x.landed.find? (fun l => l.1 == j) = some l → l.2.1 = bibCrc bib → j ∉ x.recent →
          arrives = Next (v.sendMsg m.ep (.ack name [j]))) ∧
        (good → x.has j = false →
          let w := ((v.sendMsg m.ep (.ack name [j])).hears m.ep).writeBlock b.addr data (mkBib x.tag b.idx (bibCrc bib)) .baton
          ∃ t, arrives = Next t ∧ t.mem = w.mem ∧ t.bibs = w.bibs ∧ t.cores = w.cores)) ∧
      (x.send = true → g.grace = 0 → c.backup = false → c.opc = 0x20 → c.permi = none → c.xfers = [x] → c.scen = false →
        (s.queue q.val).fin = none → x.blks ≠ [] → (∀ j, j < x.blks.length → j ∈ x.sent) →
        ∃ t r, exec (.batonBlockAck ⟨q, .none⟩ e x.all false .acked) s = Next t ∧ t.baton? q.val = none ∧
          (t.queue q.val).fin = some ⟨ST_OK, r⟩) ∧
      (∀ p r n, c.opc = 0x22 → c.permi = some p → r.toNat < g.ranks → g.grace = 0 → Sparse.find p.counts r.toNat = none →
        p.counts.length + 1 < g.ranks → exec (.permiCountMessage q (.count r n)) s =
          Next ((s.takeMsg [(s.memberOf g r.toNat).ep]).updPermi q.val fun p => { p with counts := Sparse.put p.counts r.toNat n })) ∧
      (c.backup = true → x.send = true → x.wanted = [] →
        (∀ j b r, x.blks[j]? = some b → j ∉ x.sent → s.readSource b x.tag = some r →
          exec (.backupRequest ⟨q, .none⟩ e false [j] false) s = Next ((u.transmit m.ep c.vc (.block name j r.1 r.2)).updXfer q.val e fun x =>
            { x with sent := x.sent ++ [j] })) ∧
        (c.opc = 0x20 → c.permi = none → c.xfers = [x] → c.scen = false → x.released = [] → x.blks ≠ [] →
          (s.queue q.val).fin = none →
          (s.hasBackup g x.peer.toNat = false → ∃ t r, exec (.backupRequest ⟨q, .none⟩ e false [] true) s = Next t ∧
            t.baton? q.val = none ∧ (t.queue q.val).fin = some ⟨ST_OK, r⟩) ∧
          (s.hasBackup g x.peer.toNat = true → m.backup ≠ m.ep → s.isSilent c.group m.backup = false →
            exec (.backupRequest ⟨q, .none⟩ e false [] true) s = Next (u.updXfer q.val e fun x => { x with released := [m.ep] })))) ∧
      (g.grace ≠ 0 → m.backup ≠ noEp → x.send = false → s.isSilent c.group m.ep = false → s.baton.cmds = [c] → c.opc = 0x20 →
        c.permi = none → c.xfers = [x] → x.landed = [] → x.blks ≠ [] →
        let marked := s.updXfer q.val e fun x => { x with silM := true }
        (x.hsB = false → exec (.graceExpiry q e false) s = Next marked) ∧
        (x.hsB = true → exec (.graceExpiry q e false) s = Next ((marked.sendMsg m.backup (.ask name x.all false)).updXfer q.val e fun x =>
          { x with asked := true }))))

/-- R338, R342-R347: finish digests are kept until their step ends, or compared once; a twin's bucket digest that agrees opens its
unit's gate, its step digest that agrees lets the waiting STEPCLOSE commit; a silent twin leaves the module alone; a restored
step has every core in the registers it had at entry, stopped, and says so in an event. -/
def Obligations.StepRecordsAct : Prop :=
  ∀ (s : State), s.dark = false →
    (∀ (side : Bool) (step : BitVec 48) (f digest : Word), s.guard.fden = true →
      let g := s.fdGroup
      let n := s.fdRanks
      let u := s.takeMsg (s.endpoints g (if side then (g.myrank.toNat + 1) % n else (g.myrank.toNat + n - 1) % n))
      ((∀ x ∈ s.guard.digests, x.1 ≠ step) → s.stepCtr.toNat < step.toNat → exec (.fdDigestArrival side step digest) s =
        Next { u with guard := { u.guard with earlyFd := u.guard.earlyFd ++ [(side, step, digest)] } }) ∧
      (s.guard.digests = [(step, f, [], [])] → 3 ≤ n → exec (.fdDigestArrival side step digest) s =
        Next { u with guard := { u.guard with digests := [(step, f, [side], if digest = f then [] else [(side, digest)])] } }) ∧
      (s.guard.digests = [(step, f, [], [])] → n = 2 → digest ≠ f → exec (.fdDigestArrival side step digest) s =
        Next (({ u with guard := { u.guard with digests := [(step, f, [true], [(true, digest)])] } } : State).emit
          0x0A 2 0xFF 0x7F f 0 false)) ∧
      -- every copy is compared, that of a member and that of its backup
      (s.guard.digests = [(step, f, [true, false], [])] → 3 ≤ n → digest ≠ f → exec (.fdDigestArrival side step digest) s =
        Next (({ u with guard := { u.guard with digests := [(step, f, [true, false], [(side, digest)])] } } : State).emit
          0x08 0 0xFF 0x7F digest 0 false))) ∧
    (∀ (q : QId) (e i : Nat) (parts : List Word) (c : BatonCmd) (x : Xfer), s.xfer? q.val e = some (c, x) →
      s.gatedGroup (s.group c.group) = true → x.send = true → x.own = false → parts.length = 65 →
      (q.val, e, i) ∉ s.guard.twin.opened → c.gateUnit * i < x.blks.length → s.guard.twin.run = 1 → c.stopping = false →
      c.opc = 0x20 → c.xfers = [x] → x.accM = false → x.accB = false → x.ackM = [] → x.ackB = [] → x.wanted = [] → x.released = [] →
      s.stepPhase = .idle → c.reached s = true → s.guard.twin.gated = [⟨q.val, e, i, parts, 1⟩] →
      ∃ t, exec (.twinBucketDigest ⟨q, .none⟩ e i parts) s = Next t ∧ t.guard.twin.gated = [] ∧
        t.guard.twin.opened = s.guard.twin.opened ++ [(q.val, e, i)] ∧ t.mem = s.mem ∧ t.events = s.events) ∧
    (∀ parts : List Word, s.guard.twen = true → s.guard.twin.alone = false → parts.length = 65 →
      (s.stepPhase = .idle →
        let u := s.takeMsg [s.guard.twep]
        exec (.twinStepDigest parts) s = Next { u with guard := { u.guard with twin := { u.guard.twin with theirs := some parts } } }) ∧
      (∀ q addr, s.stepPhase = .twinWait q addr → s.atBoundary = true → s.guard.twin.sent = true → s.guard.twin.own = parts →
        s.guard.twin.run = 1 → s.guard.twin.redo = [] → (s.queue q).fin = none → ∃ t r, exec (.twinStepDigest parts) s = Next t ∧
          t.stepCtr = s.stepCtr + 1 ∧ t.stepPhase = .idle ∧ (t.queue q).fin = some ⟨ST_OK, r⟩)) ∧
    (s.guard.twen = true → s.guard.twin.alone = false → s.stepPhase = .idle → s.baton.cmds = [] →
      let u := s.emit 0x0F 1 0xFF 0x7F 1 0 false
      exec (.twinSilence true) s = Next { u with guard := { u.guard with twin := { u.guard.twin with
        alone := true, gated := [], early := [], redo := [], run := 1, rotated := [], mismatch := [] } } }) ∧
    (∀ r b, s.guard.replaying = some r → s.stoppedForRestore = true → s.guard.entryBank = some b →
      ∃ t, exec .stepRestoreComplete s = Next t ∧ t.guard.replaying = none ∧ t.events.eseq = s.events.eseq + 1 ∧
        t.guard.twin.own = List.replicate 64 0 ++ [s.guard.twin.own.getD 64 0] ∧ t.stepCtr = s.stepCtr ∧
        (∀ (k : CoreId) im, b.cores[k.val]? = some im →
          (t.core k).arch.sregs = im.arch.sregs ∧ (t.core k).arch.vregs = im.arch.vregs ∧ (t.core k).arch.seq.phase = .stopped ∧
          (t.core k).arch.stopCause = (s.core k).arch.stopCause ∧ (t.core k).inflight = [] ∧ (t.core k).mxq = []) ∧
        (∀ (d : DieId) x, b.bars[d.val]? = some x → (t.dies[d]).bars = x))

/-- R199, R202, R204-R206, R215: a stream command starts on its Runnel with the stream its descriptor gives, or ends with BAD_DESC; each
stride instruction changes the stream's address, blocks, loop counters and marks as the table of R204 says; an index gives the
blocks of its record, a skip, or BAD_INDEX. -/
def Obligations.StreamsStartAndStride : Prop :=
  ∀ (s : State) (r : RunId), s.hasCore (coreOf r) = true → s.dieHeld (dieOf (coreOf r)) = false →
    let k := coreOf r
    (s.rotating k = false → (s.core k).prefixStopped = false → ∀ (q : QId) (c : BitVec 512), (s.queue q.val).inst.toNat = r.val → s.stream r = none →
      let a := opf c 0 48
      s.dieReaches (dieOf k) a = true →
      let h : BitVec 512 := BitVec.ofNat 512 (s.rdDevNat a 64)
      let n := if fld h 0 2 = 0 then min (fld h 160 6) 32 else 0
      let d := StreamDesc.ofBits h ((List.range n).map fun i => BitVec.ofNat 64 (s.rdDevNat (a + 64 + 8 * i) 8))
      let good := a % 64 = 0 ∧ s.descReadable k a = true ∧ (n ≠ 0 → s.descReadable k (a + 63 + 8 * n) = true) ∧ d.bad h = false
      let starts (o : Host.Outcome State Fault Refusal) := ∃ t x, o = Next t ∧ t.stream r = some x ∧ x.d = d ∧ x.queue = q.val ∧
        x.a = BitVec.ofNat 48 d.tbase ∧ x.loops = Vector.replicate 4 0 ∧ x.marks = Vector.replicate 4 0 ∧ x.pidx = 0 ∧
        x.tiles = [] ∧ x.emitted = [] ∧ x.next = 0 ∧ x.complete = 0 ∧ x.r0 = (s.core k).arch.ctr d.rdyctr ∧
        x.d0 = (s.core k).arch.ctr d.donectr ∧ (t.queue q.val).qstate = .active ∧ (t.queue q.val).begun = true
      (s.headFor q.val 0x10 = some c → (s.queue q.val).begun = false →
        (good → starts (exec (.stream q) s)) ∧
        (¬ good → ∃ t res, exec (.stream q) s = Next t ∧ t.stream r = none ∧ (t.queue q.val).fin = some ⟨ST_BAD_DESC, res⟩)) ∧
      ((s.queue q.val).qstate = .waiting → (s.queue q.val).head = some c → cmdOpc c = 0x10 → (s.core (s.queue q.val).lcore).unavailable = false →
        s.nextTaken q.val = true → good → starts (exec (.streamStart q) s))) ∧
    (∀ x : StreamRun, s.stream r = some x →
      let turns (y : StreamRun) := Next (s.updStream r fun _ => y)
      (∀ w op, x.instr op = some w → x.pidx + 1 < x.d.prog.length →
        let n := strideCnt w
        let g := strideReg w
        (op = 1 → exec (.strideEmit r) s = turns { x with
          emitted := x.emitted ++ (List.range n).map fun i => ⟨(x.a + BitVec.ofNat 48 (4096 * i)).toNat, false⟩
          a := x.a + BitVec.ofNat 48 (4096 * n)
          pidx := x.pidx + 1 }) ∧
        (op = 2 → exec (.strideAdd r) s = turns { x with a := x.a + strideImm w, pidx := x.pidx + 1 }) ∧
        (op = 3 → x.loops[g] = 0 → 1 < n → n < 2 ^ 16 → fld w 0 40 ≤ x.pidx → exec (.strideLoop r) s = turns { x with
          loops := x.loops.set g.val (BitVec.ofNat 16 (n - 1)), pidx := fld w 0 40 }) ∧
        (op = 3 → x.loops[g] = 0 → n = 1 → exec (.strideLoop r) s = turns { x with pidx := x.pidx + 1 }) ∧
        (op = 3 → x.loops[g] ≠ 0 → fld w 0 40 ≤ x.pidx → exec (.strideLoop r) s = turns { x with
          loops := x.loops.set g.val (x.loops[g] - 1)
          pidx := if x.loops[g] = 1 then x.pidx + 1 else fld w 0 40 }) ∧
        (op = 4 → exec (.strideSeta r) s = turns { x with a := BitVec.ofNat 48 x.d.tbase + strideImm w, pidx := x.pidx + 1 }) ∧
        (op = 5 → exec (.strideMark r) s = turns { x with marks := x.marks.set g.val x.a, pidx := x.pidx + 1 }) ∧
        (op = 6 → exec (.strideBack r) s = turns { x with a := x.marks[g] + strideImm w, pidx := x.pidx + 1 })) ∧
      (∀ w, x.instr 7 = some w → exec (.strideEnd r) s = turns { x with ended := true }) ∧
      (∀ w, x.instr 2 = some w → x.pidx + 1 = x.d.prog.length →
        exec (.strideAdd r) s = turns { x with a := x.a + strideImm w, halt := some (ST_BAD_DESC, 0) }) ∧
      (x.d.kind = 1 → x.ended = false → x.stopping = false →
        let a := (x.d.ibase + 4 * x.idx) % 2 ^ 48
        let blk := a / 4096 * 4096
        (∀ data, x.idxBlk = some (blk, data) →
          let v := leNat ((data.drop (a - blk)).take 4)
          (v < 2 ^ 31 → v < x.d.nrec → exec (.indexRead r ⟨false, .none⟩) s = turns { x with
            emitted := x.emitted ++ (List.range x.d.recblk).map fun j => ⟨(x.d.tbase + (v * x.d.rstride + j) * 4096) % 2 ^ 48, false⟩
            idx := x.idx + 1
            ended := x.idx + 1 == x.d.nidx }) ∧
          (v = 0xFFFFFFFF → exec (.indexRead r ⟨false, .none⟩) s = turns { x with
            emitted := x.emitted ++ List.replicate x.d.recblk ⟨0, true⟩, idx := x.idx + 1, ended := x.idx + 1 == x.d.nidx }) ∧
          (v ≠ 0xFFFFFFFF → 2 ^ 31 ≤ v ∨ x.d.nrec ≤ v → (s.queue x.queue).fin = none → ∃ t res,
            exec (.indexRead r ⟨false, .none⟩) s = Next t ∧ t.stream r = none ∧ (t.queue x.queue).fin = some ⟨ST_BAD_INDEX, res⟩)) ∧
        (x.idxBlk = none → s.runnelReach k blk = true → s.dieReaches (dieOf k) blk = true → x.idxRetried = false →
          exec (.indexRead r ⟨true, .none⟩) s = turns { x with idxRetried := true })))

/-- R203, R207, R212, R213, R218: tiles of a stream: a free buffer is filled, an arriving block is checked and written with its bib
or fetched once more, a whole tile is READY and raises `RDYCTR`; outbound the program's raise makes a tile READY, it is read
out with its bibs, raises `DONECTR`, and is written at its destination; a stream that has moved every block raises `ENDCTR`. -/
def Obligations.StreamTilesMove : Prop :=
  ∀ (s : State) (r : RunId) (x : StreamRun), s.hasCore (coreOf r) = true → s.dieHeld (dieOf (coreOf r)) = false →
    s.stream r = some x → x.d.loc.toNat < 2 →
    let k := coreOf r
    let turns (y : StreamRun) : State := s.updStream r fun _ => y
    (∀ blks, x.nextBlks = some blks → blks ≠ [] → x.stopping = false →
      (x.d.dir = false → x.outstanding < 6 → x.next < x.d.depth ∨ s.advanced k x.d.donectr x.d0 (x.next - x.d.depth + 1) = true →
        ((∀ b ∈ blks, b.skip = false ∧ s.runnelReach k b.addr = true) →
          exec (.tileFillStart r) s = Next (turns { (x.addTile ⟨x.next, blks, .filling, [], [], [], false, 0⟩) with
            reqs := x.reqs ++ (List.range blks.length).map fun i => (x.next, i, s.nextStamp r) })) ∧
        -- a block that is unmapped ends the stream, behind the blocks before it
        (∀ b rest, blks = b :: rest → b.skip = false → s.runnelReach k b.addr = false → exec (.tileFillStart r) s =
          Next (turns { x with emitted := [], ended := true, halt := some (ST_UNMAPPED, b.addr) }))) ∧
      (x.d.dir = true → (x.tiles.filter fun t => t.st != .drained).length < x.d.depth →
        s.advanced k x.d.rdyctr x.r0 (x.next + 1) = true →
        exec (.outboundTileReady r) s = Next (turns (x.addTile ⟨x.next, blks, .ready, [], [], [], false, 0⟩)))) ∧
    (∀ t i b, x.tiles = [t] → t.st = .filling → t.blks[i]? = some b → i ∉ t.landed → s.inOrder r x t.n i b.addr = true →
      let f := s.farBlock b.addr x.d.ttag x.d.tbase
      let good := bibGood f.1 f.2 x.d.ttag (blockIndex b.addr x.d.tbase) = true
      (good → exec (.streamBlockArrival r t.n i ⟨false, .none⟩) s = Next ((s.writeBlock (x.d.localAddr k t.n i) f.1 f.2 .other).updStream r
        fun x => { (x.updTile t.n fun t => { t with landed := t.landed ++ [i] }) with
          reqs := x.reqs.filter fun q => q.1 != t.n || q.2.1 != i })) ∧
      (i ∉ t.retried → exec (.streamBlockArrival r t.n i ⟨true, .none⟩) s = Next (turns { x with
        tiles := [{ t with retried := t.retried ++ [i] }], 
        reqs := (x.reqs.filter fun q => q.1 != t.n || q.2.1 != i) ++ [(t.n, i, s.nextStamp r)] }))) ∧
    -- blocks of one source port arrive in the order of their requests (R16)
    (∀ (n i : Nat) (bad : Bool) (u : Upset), (∀ t ∈ x.tiles, ∀ b, t.n = n → t.blks[i]? = some b → s.inOrder r x n i b.addr = false) →
      exec (.streamBlockArrival r n i ⟨bad, u⟩) s = Next s) ∧
    (∀ t, x.tiles = [t] → t.st = .filling → t.blks.length ≤ t.landed.length → x.halt = none →
      exec (.tileReady r) s = Next ((turns { x with tiles := [{ t with st := .ready }], complete := x.complete + 1 }).raiseOwn k
        x.d.rdyctr)) ∧
    (∀ t, x.tiles = [t] → t.st = .ready → x.d.dir = true → x.stopping = false → (x.d.peeren = true → x.d.plcore.val < s.coreCount) →
      (∀ b ∈ t.blks, b.skip = false → s.runnelReach k b.addr = true ∧ (∀ o a, s.place b.addr = .istore o a → (s.core o).isStopped = true)) →
      (∀ i b, t.blks[i]? = some b → b.skip = false → (s.readOut k x.d t.n i b).2.2 = false) →
      exec (.tileDrainStart r ⟨false, .none⟩) s = Next (turns { x with tiles := [{ t with
        st := .draining
        stamp := s.nextStamp r
        out := ((t.blks.mapIdx fun i b => (i, b)).filter fun e => !e.2.skip).map fun e =>
          ((s.readOut k x.d t.n e.1 e.2).1, (s.readOut k x.d t.n e.1 e.2).2.1) }] })) ∧
    (∀ t, x.tiles = [t] → t.st = .draining → x.halt = none → exec (.tileDrained r) s =
      Next ((turns { x with tiles := [{ t with st := .drained }] }).raiseOwn k x.d.donectr)) ∧
    (∀ (t : StreamTile) (bad : List Nat), x.tiles = [t] → t.st = .drained → t.acked = false → x.halt = none → s.canArrive r x t = true →
      (∀ b ∈ t.blks, b.skip = false → s.place b.addr = .hbm) →
      let sent := (t.blks.mapIdx fun i b => (i, b)).filter fun e => !e.2.skip
      let u := (sent.zip t.out).foldl (fun u e => u.writeBlock e.1.2.addr e.2.1
        (if e.1.1 ∈ bad ∧ s.dieAt e.1.2.addr ≠ some (dieOf k) then invertCrc e.2.2 else e.2.2) (.core k)) s
      let v := u.updStream r fun x => { x with tiles := [], complete := x.complete + 1 }
      exec (.tileDelivered ⟨r, t.n, bad⟩) s = Next (if x.d.peeren then { v with
        msgs := { v.msgs with ctrs := v.msgs.ctrs ++ [⟨x.d.plcore, 70000 + r.val, x.d.pctr, 1, false⟩] } } else v)) ∧
    -- a later tile's acknowledgement waits for the earlier ones before its peer hears of it
    (∀ (t v : StreamTile), x.tiles = [t, v] → t.acked = false → t.n ≠ v.n → v.st = .drained → v.acked = false → v.blks = [] →
      exec (.tileDelivered ⟨r, v.n, []⟩) s = Next (turns { x with tiles := [t, { v with acked := true }] })) ∧
    (x.ended = true → x.halt = none → x.emitted = [] → x.tiles = [] →
      x.d.dir = true ∨ s.advanced k x.d.donectr x.d0 x.next = true →
      exec (.streamComplete r) s = Next ((s.raiseOwn k x.d.endctr).endStream r x ST_OK 0)) ∧
    (∀ (u : State) (st : Byte) (a : Nat), (u.queue x.queue).fin = none →
      let t := u.endStream r x st a
      t.stream r = none ∧ (t.runnels[r]).tiles = BitVec.ofNat 16 x.complete ∧
        (t.queue x.queue).fin = some ⟨st, BitVec.ofNat 384 (x.complete % 2 ^ 16 + a * 2 ^ 64)⟩)

/-- R329-R332, R351, R402, R403, R405-R407, R409: the controllers of the memory stacks: a block written with its bib reads back and loses its
poison; a codeword write makes a new `CRC`; a read counts and, at most once per second, reports what its decoder corrected and poisons what it could not;
scrubbing goes on in address order; refresh, temperature polls and windows change the stack's own records. (A read on a channel with no
lane left to the code, R408.) -/
def Obligations.MemoryStacksAct : Prop :=
  ∀ (s : State), s.dark = false → Memory.wf s.mem = true → Sparse.sorted s.poison = true →
    (∀ (addr : BitVec 48) (data : List Byte) (bib : Word), s.place addr.toNat = .hbm →
      let blk := addr.toNat / 4096
      let a := 4096 * blk
      s.stackDead a = false → data.length = 4096 →
      ∃ t, exec (.hbmBlockWrite addr data bib) s = Next t ∧ Memory.bytes t.mem a 4096 = data ∧
        (∀ b, b < a ∨ a + 4096 ≤ b → Memory.byte t.mem b = Memory.byte s.mem b) ∧ t.hbmBib blk = bib ∧ t.poisoned blk = false ∧
        (∀ b, b ≠ blk → t.hbmBib b = s.hbmBib b ∧ t.poisoned b = s.poisoned b) ∧ t.cores = s.cores) ∧
    (∀ (addr : BitVec 48) (data : List Byte), s.place addr.toNat = .hbm → s.place (addr.toNat + 63) = .hbm → addr.toNat % 64 = 0 → data.length = 64 →
      s.stackDead addr.toNat = false → s.stackDead (4096 * (addr.toNat / 4096)) = false →
      let blk := addr.toNat / 4096
      let old := s.hbmBib blk
      let bad := s.poisoned blk || crc32c (Memory.bytes s.mem (4096 * blk) 4096) != bibCrc old
      ∃ t, exec (.hbmCodewordWrite addr data) s = Next t ∧ Memory.bytes t.mem addr.toNat 64 = data ∧
        (∀ b, b < addr.toNat ∨ addr.toNat + 64 ≤ b → Memory.byte t.mem b = Memory.byte s.mem b) ∧
        t.hbmBib blk = mkBib (bibTag old) (bibIdx old).toNat (crc32c (Memory.bytes t.mem (4096 * blk) 4096)) ∧
        t.poisoned blk = bad) ∧
    (∀ (addr : BitVec 48) st off, s.stackAt addr.toNat = some (st, off) → s.stackDead addr.toNat = false →
      let x := s.hbms[st]
      x.badLanes = [] → off / 4096 < 2040 * 8192 →
      let blk := (s.addrOf st (off / 4096 * 4096)).map fun a => a / 4096
      exec (.hbmBlockRead addr []) s = Next (s.updStack st fun x => { x with dueRun := Vector.replicate 32 0 }) ∧
      (∀ (i : CwNo) (n : Fin 5) b, n ≠ 0 → i.val < 65 → blk = some b →
        crcOk (Memory.bytes s.mem (4096 * b) 4096) (s.hbmBib b) = true → ∃ t, exec (.hbmBlockRead addr [(i, .corrected n)]) s = Next t ∧
          (t.hbms[st]).cecnt = sat16 x.cecnt 1 ∧ (t.hbms[st]).duecnt = x.duecnt ∧ t.poison = s.poison ∧
          (x.corrected.open_ s.power.ticks = true →
            t.events.eseq = s.events.eseq + 1 ∧ (t.hbms[st]).corrected = ⟨0, some s.power.ticks⟩) ∧
          (x.corrected.open_ s.power.ticks = false →
            t.events = s.events ∧ (t.hbms[st]).corrected.held = x.corrected.held + 1) ∧
          ∀ a, Memory.byte t.mem a = Memory.byte s.mem a) ∧
      (∀ (i : CwNo) n bs b, i.val < 64 → blk = some b → (x.dueRun[i.val % 32]).toNat < 15 →
        ∃ t, exec (.hbmBlockRead addr [(i, .uncorrectable n bs)]) s = Next t ∧ (t.hbms[st]).duecnt = sat16 x.duecnt 1 ∧
          (t.hbms[st]).cecnt = x.cecnt ∧ t.poison = Sparse.put s.poison b () ∧ t.events.eseq = s.events.eseq + 1 ∧
          (∀ a, Memory.byte t.mem a = Memory.byte s.mem a) ∧
          ∀ c : Fin 32, (t.hbms[st]).dueRun[c] = if c.val = i.val % 32 then x.dueRun[c] + 1 else 0)) ∧
    (∀ (k : CoreId) (w : SramWord), s.hasCore k = true → s.dieHeld (dieOf k) = false → s.holdsWord w k = true →
      (s.core k).unavailable = false → exec (.sramScrub k w .none) s = Next s ∧
        let x := (s.core k).corrected
        (x.open_ s.power.ticks = true → exec (.sramScrub k w .single) s =
          Next ((s.updCore k fun c => { c with corrected := ⟨0, some s.power.ticks⟩ }).emitCore 0x03 0 k
            (BitVec.ofNat 64 ((x.held + 1) % 2 ^ 32)) 0)) ∧
        (x.open_ s.power.ticks = false → exec (.sramScrub k w .single) s =
          Next (s.updCore k fun c => { c with corrected := { x with held := x.held + 1 } }))) ∧
    (∀ (st : StackId) (temp : Byte) (ch : Fin 32), st.val < s.stackCount → s.clerk.deadDies.contains (dieOfStack st) = false →
      let x := s.hbms[st]
      let fast := if 85 < temp.toNat then true else if temp.toNat < 80 then false else x.ref2x
      exec (.hbmRefresh st) s = Next (s.updStack st fun x => { x with refreshBank := x.refreshBank + 1 }) ∧
      (∃ due : BitVec 32, (∀ c : Fin 32, due.getLsbD c.val = (x.winDue.getLsbD c.val ||
          decide (temp.toNat + 10 ≤ (x.winTemp[c]).toNat ∨ (x.winTemp[c]).toNat + 10 ≤ temp.toNat))) ∧
        let u := s.updStack st fun x => { x with temp := temp, ref2x := fast, winDue := due }
        exec (.hbmTempPoll st temp) s = Next (if fast = x.ref2x then u else u.emitStack 0x21 0 st
          (st.val + temp.toNat * 2 ^ 8 + (if fast then 2 ^ 16 else 0)) 0)) ∧
      (x.hstate = .inService →
        (x.badLanes = [] → exec (.patrolScrub st []) s = Next (s.updStack st fun x => { x with
          dueRun := Vector.replicate 32 0
          nextcw := x.nextcw + 64
          passes := if x.nextcw.toNat + 64 = 2 ^ 30 then sat8 x.passes 1 else x.passes })) ∧
        exec (.hbmRecentreWindow st ch true) s = Next (s.updStack st fun x => { x with
          winTemp := x.winTemp.set ch.val x.temp, winDue := x.winDue &&& ~~~(1#32 <<< ch.val), winFails := x.winFails.set ch.val 0 }) ∧
        (x.winFails[ch] = 0 → exec (.hbmRecentreWindow st ch false) s = Next (s.updStack st fun x => { x with
          winTemp := x.winTemp.set ch.val x.temp, winDue := x.winDue &&& ~~~(1#32 <<< ch.val), winFails := x.winFails.set ch.val 1 })) ∧
        (x.winFails[ch] = 1 → ∃ t, exec (.hbmRecentreWindow st ch false) s = Next t ∧
          (t.hbms[st]).hstate = .outOfService ∧ (t.svc[5]).isSome = true ∧ t.events.eseq = s.events.eseq + 1)))

/-- R332, R353-R368: Cooldown and Taper: an hour passes, owed cores grow overdue and idle ones due; a due core is tested phase by phase
with its signatures kept, a passed test returns it to service, a failed one retires it; the pattern store is staged once;
the registers take values in range; a monitor's sample is kept with its minimum. -/
def Obligations.CooldownAndTaper : Prop :=
  ∀ (s : State), s.dark = false →
    (∃ t, exec .phoursTick s = Next t ∧ t.cooldown.phours = s.cooldown.phours + 1 ∧
      ∀ (d : DieId) (p : PCoreNo), s.hasDie d = true →
        let x := s.pcore d p
        (x.owed = true → x.pst = .active → s.cooldown.deadline.toNat ≤ (s.cooldown.phours + 1 - x.owedAt).toNat →
          (t.pcore d p).overdue = true) ∧
        (x.pst = .spare → x.test = none → x.due = none → x.owed = false →
          s.cooldown.interval.toNat ≤ (s.cooldown.phours + 1 - x.lastPass).toNat → (t.pcore d p).due = some 3) ∧
        (t.pcore d p).pst = x.pst ∧ (t.pcore d p).lcore = x.lcore) ∧
    (s.barOpen 0 = true → ∀ v : Word,
      let i := v.extractLsb' 16 16
      let d := v.extractLsb' 32 16
      (24 ≤ i.toNat ∧ i.toNat ≤ 720 ∧ 1 ≤ d.toNat ∧ d.toNat ≤ 720 → exec (.cdCfgWrite v) s = Next { s with
        cooldown := { s.cooldown with deadline := d, interval := i, cfgErr := s.cooldown.cfgErr && !v.getLsbD 0 } }) ∧
      (i.toNat < 24 ∨ 720 < i.toNat ∨ d.toNat < 1 ∨ 720 < d.toNat → exec (.cdCfgWrite v) s = Next { s with
        cooldown := { s.cooldown with cfgErr := true } })) ∧
    (s.cooldown.staged = false → s.cooldown.patternBad = false → s.clerk.bstage = 12 →
      ∀ read : Option (List Byte), let digest := digest256 (sha256 (read.getD s.patternSet))
      ∃ t, exec (.patternStagingDone read) s = Next t ∧ (∀ d : DieId, s.hasDie d = true → (t.dies[d]).staged = true) ∧
        (digest = s.patternDigest → t.cooldown = { s.cooldown with staged := true } ∧ t.events = s.events) ∧
        (digest ≠ s.patternDigest → t.cooldown = { s.cooldown with patternBad := true } ∧
          t.events.eseq = s.events.eseq + 1 ∧ (t.svc[2]).isSome = true)) ∧
    (∀ (d : DieId) (p : PCoreNo), s.hasDie d = true → s.dieOut d = false →
      let x := s.pcore d p
      (∀ r, x.test = none → s.cooldown.staged = true → s.testsOn d < 2 → s.taken d p = false → s.cooldown.shutdown = false →
        x.due = some r →
        (x.pst = .spare ∨ x.pst = .parked → exec (.cooldownCoreTest d p) s = Next (s.updPCore d p fun x =>
          { x with test := some ⟨r, none, 0, 0, 0, 0, 0⟩, phase := 1, due := none })) ∧
        (∀ k i, x.serves = some k → s.idleCore k = true → s.rotating k = false → s.freeSlot d = some i →
          let im := s.imageOf k
          exec (.cooldownCoreTest d p) s = Next ((s.putSave d i ⟨k, im, im.crcs k, false⟩).updPCore d p fun x =>
            { x with test := some ⟨r, some i, 0, 0, 0, 0, 0⟩, phase := 1, due := none }))) ∧
      (∀ (i : Fin 2) v, (((s.putSave d i v).dies[d]).saves)[i] = some v) ∧
      (∀ t sig fails, x.test = some t →
        let good (ph : Nat) : Prop := sig = Config.scanSignature 0 ph s.fuses.stepping
        let becomes (ph : BitVec 3) (u : CdTest) := exec (.cooldownPhaseEnd (.core d p) sig fails) s = Next (s.updPCore d p fun x =>
          { x with phase := ph, test := some u })
        (x.phase = 1 → t.slot = none → becomes 2 t) ∧
        (∀ i v, x.phase = 1 → t.slot = some i → (s.dies[d]).saves[i] = some v →
          exec (.cooldownPhaseEnd (.core d p) sig fails) s = Next ((s.putSave d i { v with complete := true }).updPCore d p fun x =>
            { x with phase := 2 })) ∧
        (x.phase = 2 → ∀ c, (good 2 ∨ t.failed ≠ 0 → c = t.failed) → (¬ good 2 → t.failed = 0 → c = 2) →
          becomes (if s.cooldown.patternBad then 4 else 3) { t with sig2 := sig, failed := c }) ∧
        (x.phase = 3 → ∀ c, (good 3 ∨ t.failed ≠ 0 → c = t.failed) → (¬ good 3 → t.failed = 0 → c = 3) →
          becomes 4 { t with sig3 := sig, failed := c }) ∧
        (x.phase = 4 → ∀ c, (fails = 0 ∨ t.failed ≠ 0 → c = t.failed) → (fails ≠ 0 → t.failed = 0 → c = 4) →
          becomes 5 { t with fails := fails.toNat, failed := c })) ∧
      (∀ t v, x.test = some t → x.phase = 5 → s.cooldown.shutdown = false → t.slot = none →
        let ends (res : BitVec 4) (u : State) := u.cooldown.history = (cdRecord s.cooldown.phours d.val p.val res.toNat t.reason.toNat
          t.sig2 t.sig3 t.fails :: s.cooldown.history).take historySize
        (t.failed = 0 → ∃ u, exec (.cooldownTestEnd (.core d p) v) s = Next u ∧ ends 1 u ∧ u.pcore d p = { x with
          pst := if x.pst = .parked then .spare else x.pst
          test := none, phase := 0, lastRes := 1, lastPass := s.cooldown.phours, owed := false, owedAt := 0xFFFFFF, overdue := false
          told := false, faulted := false, covered := false, served := x.pst == .active, hours := 0 }) ∧
        (t.failed ≠ 0 → x.serves = none → ∃ u, exec (.cooldownTestEnd (.core d p) v) s = Next u ∧ ends t.failed u ∧
          u.events.eseq = s.events.eseq + 1 ∧ u.pcore d p = ({ x with
            test := none, phase := 0, lastRes := t.failed } : PCore).retire))) ∧
    (∀ t v, s.cooldown.hub = some t → t.phase = 5 → t.failed = 0 → ∃ u, exec (.cooldownTestEnd .hub v) s = Next u ∧
      u.cooldown.shutdownDone = true ∧ u.cooldown.hub = some { t with phase := 0 } ∧ u.cooldown.hubDue = false) ∧
    (∀ (d : Fin 5) (l : List Byte), ¬ (s.dieCount ≤ d.val ∧ d.val < 4) → l.length = 64 → ∃ u, exec (.taperSample d l) s = Next u ∧
      (∀ i : Fin 64, (u.tapers[d]).slack[i] = l.getD i.val 0 ∧
        (u.tapers[d]).kept[i] = if (l.getD i.val 0).toNat < ((s.tapers[d]).kept[i]).toNat then l.getD i.val 0
          else (s.tapers[d]).kept[i]) ∧
      (∀ i : Fin 64, (u.tapers[d]).worst.toNat ≤ (l.getD i.val 0).toNat) ∧ (u.tapers[d]).offset = (s.tapers[d]).offset ∧
      ∀ e, e ≠ d → u.tapers[e] = s.tapers[e])

/-- R373-R392: the ends of a die link train by messages and phases, agree a mask and carry units in order, each acknowledged, a
damaged one asked for again; lanes are calibrated in stride or in a window; a link that cannot train fails. -/
def Obligations.DieLinkActs : Prop :=
  ∀ (s : State) (p : DieId) (e : LinkEnd), s.dark = false → s.hasDie p = true → s.clerk.deadDies.contains p = false →
    let l := s.link p
    let x := l.at e
    let y := l.at (otherEnd e)
    (x.lstate = .sbInit → exec (.fdlCapRepeat p e) s = Next (s.updEnd p e fun x => { x with sbOut := x.sbOut ++ [.cap (fdlCap e)] })) ∧
    (x.lstate ≠ .down → x.lstate ≠ .failed →
      (x.sb1 = false → exec (.sidebandTimeout p e) s = Next (s.updBoth p fun x => { x with sb1 := true })) ∧
      (x.sb1 = true → l.hub.recoverFailed = false → l.die.recoverFailed = false → ∃ t, exec (.sidebandTimeout p e) s = Next t ∧
        (t.link p).hub.lstate = .failed ∧ (t.link p).die.lstate = .failed ∧ (t.link p).hub.fcause = 3 ∧
        (t.link p).die.fcause = 3)) ∧
    (∀ v n, x.lstate = .sbInit → x.training = .full → x.pneg = none → negotiate (fdlCap e) v = some n →
      exec (.sidebandMessage p e (.cap v)) s = Next ((s.takeSideband p e (.cap v)).updEnd p e fun x =>
        { x with pcap := v, neg := n, lstate := .negotiate, sbOut := x.sbOut ++ [.negResult n.word] })) ∧
    (∀ m, x.lstate = .widthAgree →
      (m = x.ownmask → m ≠ 0 → x.disagreed = [] → ∃ t, exec (.sidebandMessage p e (.mask m)) s = Next t ∧
        ((t.link p).at e).lstate = .active ∧ ((t.link p).at e).wmask = m ∧ ((t.link p).at e).resol = 1 ∧
        ((t.link p).at e).attempts = 0 ∧ ((t.link p).at e).record = some (l.recordOf e x.ownmask)) ∧
      (m ≠ x.ownmask → x.training = .full → m &&& x.ownmask ≠ 0 → ∃ t, exec (.sidebandMessage p e (.mask m)) s = Next t ∧
        ((t.link p).at e).lstate = .active ∧ ((t.link p).at e).wmask = m &&& x.ownmask ∧ ((t.link p).at e).resol = 3) ∧
      (m ≠ x.ownmask → x.training ≠ .full → x.attempts < 3 → ∃ t, exec (.sidebandMessage p e (.mask m)) s = Next t ∧
        ((t.link p).at e).lstate = .sbInit ∧ ((t.link p).at e).training = .full ∧
        ((t.link p).at e).disagreed = x.disagreed ++ [(x.ownmask, m)])) ∧
    (∀ lanes,
      (x.lstate = .laneTest → (∀ b : Fin 12, lanes.getD b.val 0 = 0x3FFFF) →
        (∀ (b : Fin 12) (i : Fin 18), s.flash.laneOut (laneNo p (rxUp e) b i.val) = false) →
        ∃ t, exec (.linkPhaseEnd p e lanes) s = Next t ∧ ((t.link p).at e).lstate = .calibrate ∧
          ∀ b, ((t.link p).lanes (rxUp e) b).map = (List.finRange 18).take 16 ∧ ((t.link p).lanes (rxUp e) b).fail = 0) ∧
      (x.lstate = .recover → exec (.linkPhaseEnd p e lanes) s = Next (s.updEnd p e fun x => { x with lstate := .calibrate })) ∧
      (x.lstate = .calibrate → x.training = .full → y.lstate = .calibrate → x.pmaskIn = none →
        let told := l.report (otherEnd e)
        let m := (l.upd e fun x => { x with preport := told }).offer e
        exec (.linkPhaseEnd p e lanes) s = Next (s.updEnd p e fun x =>
          { x with preport := told, lstate := .widthAgree, ownmask := m, sbOut := x.sbOut ++ [.mask m] })) ∧
      (x.lstate = .calibrate → x.training ≠ .full → x.pmaskIn = none →
        exec (.linkPhaseEnd p e lanes) s = Next (s.updEnd p e fun x =>
          { x with lstate := .widthAgree, ownmask := l.offer e, sbOut := x.sbOut ++ [.mask (l.offer e)] }))) ∧
    (∀ (u : LinkUnit) (errs : List LaneErr),
      -- the stream goes in chunks over the active bundles, and comes together again unharmed where no lane errs (R375)
      (∀ (bs : List (Fin 12)) (i j : Nat) (bytes : List Byte), 16 * j < bytes.length → (stripe bs i bytes)[j]? =
        some (bs.getD ((i + j) % bs.length) 0, (bytes.drop (16 * j)).take 16)) ∧
      (∀ bs i, crosses bs i [] u = u) ∧
      (l.up = false ∨ y.send (otherEnd e) u = none → exec (.linkUnitArrival p e ⟨u, errs⟩) s = Next s) ∧
      (l.up = true → y.bundles ≠ [] → unitFormed (otherEnd e) u = true → unitKind u < 2 →
        (y.resend = [] → unitSeq u = y.txNext → y.hasRoom u = true → unitSeq u = x.rxNext → hubCheckFails e u = false →
          y.switch = none → x.held = [] → x.asked = [] → x.early = [] → exec (.linkUnitArrival p e ⟨u, []⟩) s =
            Next ((s.updEnd p (otherEnd e) fun y => { y with
              txChunk := y.txChunk + unitSize u / 16, txNext := y.txNext + 1, replay := y.replay ++ [u] }).updEnd p e fun x =>
                { x with delivered := x.delivered ++ [⟨unitDest u, unitVc u, u.header.extractLsb' 0 24, u⟩]
                         rxNext := x.rxNext + 1, acks := x.acks ++ [ackUnit (unitSeq u) none] })) ∧
        (y.resend = [] → unitSeq u = y.txNext → y.hasRoom u = false → exec (.linkUnitArrival p e ⟨u, errs⟩) s = Next s) ∧
        (∀ y', y.send (otherEnd e) u = some y' → y'.bundles ≠ [] → headerBad (crosses y'.bundles y.txChunk errs u) = true →
          ((∀ a ∈ x.asked, a.useq ≠ unitSeq u) → exec (.linkUnitArrival p e ⟨u, errs⟩) s =
            Next ((s.updEnd p (otherEnd e) fun _ => y').updEnd p e fun x =>
              { x with asked := x.asked ++ [⟨unitSeq u, none, false⟩], acks := x.acks ++ [ackUnit (x.rxNext - 1) (some (unitSeq u))],
                       mresend := sat16 x.mresend 1 })) ∧
          ((∃ a ∈ x.asked, a.useq = unitSeq u ∧ a.bib = false) → ∃ t, exec (.linkUnitArrival p e ⟨u, errs⟩) s = Next t ∧
            (t.link p).hub.lstate = .recover ∧ (t.link p).die.lstate = .recover ∧
            (t.link p).hub.recovers = sat8 l.hub.recovers 1 ∧ unitSeq u ∈ ((t.link p).at (otherEnd e)).resend))) ∧
      (l.up = true → y.bundles ≠ [] → unitFormed (otherEnd e) u = true → unitKind u = 2 → u ∈ y.acks →
        let upTo : BitVec 12 := BitVec.ofNat 12 (leNat (u.payload.take 4))
        let ask := leNat (u.payload.drop 4)
        let n : BitVec 12 := BitVec.ofNat 12 ask
        let kept := x.replay.filter fun v => decide (2048 ≤ (upTo - unitSeq v).toNat)
        let takes (x' : LinkPort) := exec (.linkUnitArrival p e ⟨u, []⟩) s =
          Next ((s.updEnd p (otherEnd e) fun y => { y with acks := y.acks.erase u, txChunk := y.txChunk + 1 }).updEnd p e fun _ => x')
        (ask = 0xFFFFFFFF → takes { x with replay := kept }) ∧
        (ask < 4096 → n ∈ kept.map unitSeq → n ∉ x.resend → takes { x with replay := kept, resend := x.resend ++ [n] }))) ∧
    (l.hub.training = .recover → l.hub.lstate = .recover → l.hub.attempts < 3 → l.die.attempts < 3 →
      ∃ t, exec (.recoverTimeout p) s = Next t ∧ (t.link p).hub.lstate = .sbInit ∧ (t.link p).die.lstate = .sbInit ∧
        (t.link p).hub.training = .full ∧ (t.link p).die.training = .full ∧ (t.link p).hub.recoverFailed = true) ∧
    (∀ (b : Fin 12) (dir : Bool) f rest, (l.lanes dir b).free = f :: rest → l.calibrates = true → l.hub.instride = true →
      l.hub.wmask.getLsbD b.val = true → l.away.getLsbD b.val = false → (l.lanes dir b).map.length = 16 →
      let z := l.lanes dir b
      (∀ eye : Byte, 77 ≤ eye.toNat → exec (.instrideCalStep p b dir false true eye) s =
        let m := if eye < z.least then eye else z.least
        Next ((s.updLink p fun l => (l.updLanes dir b fun z =>
          { z with next := z.next + 1, map := z.map.set z.next.val f, misses := 0, least := if z.next = 15 then 0xFF else m }).count dir b
            fun c => { c with wmargin := if z.next = 15 then m else c.wmargin }).updBoth p fun x =>
              { x with sbOut := x.sbOut ++ [.switchLane b dir z.next (if dir then l.die else l.hub).txChunk] })) ∧
      (z.misses < 2 → ∀ eye : Byte, exec (.instrideCalStep p b dir true true eye) s =
        Next (s.updLink p fun l => (l.updLanes dir b fun z =>
          { z with next := z.next + 1, misses := z.misses + 1, least := if z.next = 15 then 0xFF else z.least }).count dir b
            fun c => { c with shmis := sat16 c.shmis 1, wmargin := if z.next = 15 then z.least else c.wmargin }))) ∧
    (∀ (b : Fin 12) (dir : Bool) (i : Fin 18) (useq : BitVec 12), l.calibrates = true → l.byWindow b = true → l.away.getLsbD b.val = true →
      (∀ d, (l.lanes d b).map.length = 16 ∧ ∀ j ∈ (l.lanes d b).map, (l.lanes d b).fail.getLsbD j.val = false) →
      exec (.windowCalibration p b ⟨[], useq⟩) s = Next s ∧
      (i ∈ (l.lanes dir b).map → (l.lanes dir b).map.Nodup → (l.lanes dir b).free ≠ [] →
        ∃ t, exec (.windowCalibration p b ⟨[(dir, i)], useq⟩) s = Next t ∧ ((t.link p).lanes dir b).map.length = 16 ∧
          i ∉ ((t.link p).lanes dir b).map ∧ ((t.link p).lanes dir b).fail.getLsbD i.val = true ∧
          t.events.eseq = s.events.eseq + 1)) ∧
    (∀ (b : Fin 12) (useq : BitVec 12), l.up = true → l.hub.widthChange = true → l.hub.wmask.getLsbD b.val = true →
      (l.away = 0 → l.calibrates = true → l.byWindow b = true → exec (.bundleServiceHandshake p b true useq) s =
        Next ((s.updLink p fun l => { l with away := bundleBit b }).updBoth p fun x => x.changeMask (x.wmask &&& ~~~bundleBit b) useq)) ∧
      (l.away.getLsbD b.val = true → exec (.bundleServiceHandshake p b false useq) s =
        Next ((s.updLink p fun l => { l with away := 0 }).updBoth p fun x => x.changeMask x.wmask useq)) ∧
      (∀ (z : LinkPort) (m : BitVec 12),
        ((useq - z.txNext).toNat < 2048 → useq ≠ z.txNext → z.changeMask m useq = { z with switch := some (useq, m) }) ∧
        ((useq = z.txNext ∨ 2048 ≤ (useq - z.txNext).toNat) → (z.changeMask m useq).sendMask = m ∧
          ∀ v ∈ z.replay.map unitSeq, (v - useq).toNat < 2048 → v ∈ (z.changeMask m useq).resend))) ∧
    (s.barOpen 0 = true → (e = .die → s.dieOut p = false) →
      (x.lstate = .active → y.inTraining = false → x.fastFeature = true → x.record.isSome = true → x.attempts < 3 →
        ∃ t, exec (.preset p e) s = Next t ∧ ((t.link p).at e).lstate = .sbInit ∧ ((t.link p).at e).training = .fast ∧
          ((t.link p).at e).sbOut = [.resetNotice false, .cap (fdlCap e)] ∧ ((t.link p).at e).replay = x.replay ∧
          ((t.link p).at e).resend = x.replay.map unitSeq ∧ ((t.link p).at e).txNext = x.txNext ∧
          ((t.link p).at e).rxNext = x.rxNext ∧ ((t.link p).at e).record = x.record ∧ (t.link p).at (otherEnd e) = y) ∧
      ∃ t, exec (.retrain p e) s = Next t ∧ (t.link p).hub.lstate = .sbInit ∧ (t.link p).die.lstate = .sbInit ∧
        (t.link p).hub.training = .full ∧ (t.link p).die.training = .full ∧ (t.link p).hub.attempts = 1 ∧
        (t.link p).die.attempts = 1 ∧ (t.link p).away = 0)

/-- R414-R427, R429, R430: the fabric transport: an accepted frame is entered into its sequence, handed on and owed an acknowledgement;
one too far ahead or damaged is dropped; acknowledgements free frames, lost ones are sent again; capability frames restart a
pair; ports pause, go up and down, and take their registers. -/
def Obligations.FabricTransportActs : Prop :=
  ∀ (s : State) (p : PortId) (f : DxtFrame) (ep : BitVec 24) (vc : Fin 8), s.dark = false → p.val < s.portCount →
    (∀ dt, s.attached p = true → f.payload.length = frameBytes dt → f.dtype = dt → f.fcsOk = true → s.frameBad f = false →
      f.linkLocal = false → s.dxt.myep ≠ noEp → f.src ≠ s.dxt.myep → (s.twinPort p = true → f.src = s.guard.twep) →
      let u := (s.countFec p f).meetFrame p f
      ∀ x, u.peer f.src = some x →
        let v := x.vcs[f.vc]
        let enters (w : State) := w.updPeer f.src fun x => x.updVc f.vc fun v => v.enter f.psn
        let owes (w : State) := w.updPeer f.src fun x => x.updVc f.vc fun v => { v with owed := v.owed + 1 }
        (dt = 0 → v.known f.psn = false → v.ahead f.psn < 256 → v.owed < 15 → exec (.dxtBlockFrame p f) s =
          Next (owes ((enters u).handOver (.block f.src f.ctx f.bpos f.payload)))) ∧
        (dt = 0 → 256 ≤ v.ahead f.psn → v.ahead f.psn < 2 ^ 31 → exec (.dxtBlockFrame p f) s = Next u) ∧
        (dt = 1 → f.psn = v.rxNext → v.bitmap = 0 → v.held = [] → v.owed < 15 → ∃ t y, exec (.dxtMessageFrame p f) s = Next t ∧
          t.dxt.handed = u.dxt.handed ++ [.msg f.src f.vc f.payload] ∧ t.peer f.src = some y ∧
          (y.vcs[f.vc]).rxNext = v.rxNext + 1 ∧ (y.vcs[f.vc]).held = [] ∧ (y.vcs[f.vc]).owed = v.owed + 1) ∧
        (dt = 2 → let w := u.acknowledge f.src f.vc f.ackn (BitVec.ofNat 256 (leNat f.payload))
          exec (.dxtAckFrame p ⟨f, none⟩) s = Next w ∧
          ∀ r : PortId, x.probed.getLsbD r.val = true → f.vc = 0 → exec (.dxtAckFrame p ⟨f, some r⟩) s = Next (w.setMark f.src r false)) ∧
        (dt = 3 → (∀ j : Fin 8, (x.vcs[j]).unacked = []) → ∃ t y, exec (.dxtCapabilityFrame p f) s = Next t ∧
          t.peer f.src = some y ∧ y.cap = some f.payload ∧ y.capOwed = false ∧
          ∀ j : Fin 8, (y.vcs[j]).txNext = 0 ∧ (y.vcs[j]).rxNext = 0 ∧ (y.vcs[j]).bitmap = 0 ∧ (y.vcs[j]).unacked = [])) ∧
    (s.attached p = true → f.payload.length = 4104 → f.dtype = 0 →
      (f.fcsOk = false → exec (.dxtBlockFrame p f) s = Next (((s.countFec p f).updPort p fun x => { x with fcserr := sat16 x.fcserr 1 }).updDxt fun d =>
        { d with drops := sat16 d.drops 1 })) ∧
      (f.fcsOk = true → f.dver ≠ 1 → exec (.dxtBlockFrame p f) s = Next ((s.countFec p f).updDxt fun d => { d with drops := sat16 d.drops 1 }))) ∧
    (∀ x, s.peer ep = some x →
      ((x.vcs[vc]).owed ≠ 0 → ∀ r, (s.reaching ep).head? = some r → exec (.dxtAckTimer ep vc) s =
        Next ((s.updPeer ep fun x => x.updVc vc fun v => { v with owed := 0 }).putOut
          (.ack r ep vc ((x.vcs[vc]).rxNext - 1) (x.vcs[vc]).bitmap))) ∧
      (∀ g r psn, x.capOwed = false → (x.vcs[vc]).unacked.find? (fun f => f.psn == psn) = some g → g.port = some r → g.sent = true →
        g.tries < 7 → r ∈ s.reaching ep → exec (.dxtRetransmit ep vc psn) s =
          Next ((s.updDxt fun d => { d with retx := sat16 d.retx 1 }).putFrame ep vc g r (g.tries + 1))) ∧
      (x.marks.getLsbD p.val = true → s.attached p = true → exec (.pathProbe p ep) s =
        Next ((s.updPeer ep fun x => { x with probed := x.probed ||| (1#24 <<< p.val) }).putOut (.cap p (some ep) (s.capability p)))) ∧
      (x.capOwed = true → exec (.capabilityFrameRepeat ep) s = Next (s.sendCap ep)) ∧
      (peerMax ≤ s.dxt.peers.length → x.quiet = true → s.leastUsed x = true → s.dxt.blocked = [] →
        exec (.peerEntryEviction ep) s = Next (s.updDxt fun d => { d with peers := Sparse.del d.peers ep.toNat }))) ∧
    (s.attached p = true → s.firstAttached ≠ some p →
      exec (.capabilityBeacon p) s = Next (s.putOut (.cap p none (s.capability p)))) ∧
    -- a pause keeps acknowledgements and capability frames back too
    (∀ w : Wire, (s.paused w.port w.vc = false → s.putOut w = s.putWire 0 w) ∧
      (s.paused w.port w.vc = true → s.putOut w = s.updPort w.port fun x => { x with kept := x.kept ++ [w] })) ∧
    -- the frame on the wire
    (∀ num r psn body, let f := s.frameOf num (.data r ep vc psn body)
      f.dmac = s.dxt.macpfx ++ ep ∧ f.smac = s.dxt.macpfx ++ s.dxt.myep ∧ f.etype = s.dxt.etype ∧
        f.tag.extractLsb' 13 3 = s.dxt.pcpmap.extractLsb' (3 * vc.val) 3 ∧ f.tag.extractLsb' 0 12 = s.dxt.vid ∧
        f.header.extractLsb' 0 8 = 1 ∧ f.header.extractLsb' 12 3 = BitVec.ofNat 3 vc.val ∧ f.header.extractLsb' 16 24 = s.dxt.myep ∧
        f.header.extractLsb' 40 24 = ep ∧ f.header.extractLsb' 64 32 = psn ∧ f.header.extractLsb' 160 32 = BitVec.ofNat 32 body.pos ∧
        f.header.extractLsb' 195 5 = BitVec.ofNat 5 r.val ∧ f.header.extractLsb' 200 24 = s.pmask) ∧
    (∀ pcp : Fin 8, s.dxt.pfcen = true → s.attached p = true →
      exec (.pfcFrame p pcp true) s = Next (s.updPort p fun x => { x with paused := x.paused ||| (1#8 <<< pcp.val) }) ∧
      (s.dxt.peers = [] → s.ports[p].kept = [] → exec (.pfcFrame p pcp false) s =
        Next (s.updPort p fun x => { x with paused := x.paused &&& ~~~(1#8 <<< pcp.val) }))) ∧
    (∀ (cablem iloss : Byte) (lpan : Bool),
      (s.ports[p].pstate = .training ∨ s.ports[p].pstate = .down → 10 ≤ s.clerk.bstage → s.cooldown.shutdownDone = false →
        ∃ t, exec (.fportLinkChange p true cablem iloss lpan) s = Next t ∧ (t.ports[p]).pstate = .up ∧ (t.ports[p]).iloss = iloss ∧
          (t.ports[p]).lpan = lpan ∧ (t.ports[p]).left = false ∧
          (t.ports[p]).cablem = (if (s.ports[p]).pmd = 1 then 0xFF else cablem) ∧ (∀ r, r ≠ p → t.ports[r] = s.ports[r]) ∧
          t.events.eseq = s.events.eseq + (if (s.ports[p]).left then 1 else 0)) ∧
      (s.ports[p].pstate = .up → ∃ t, exec (.fportLinkChange p false cablem iloss lpan) s = Next t ∧
        t.ports[p] = { s.ports[p] with pstate := .down, left := true, paused := 0, lpep := 0xFFFFFF, kept := [] } ∧
        t.events.eseq = s.events.eseq + 1)) ∧
    (s.barOpen 0 = true → ∀ v : Word,
      (let own : BitVec 24 := v.extractLsb' 40 24
       let written (d : Dxt) : Dxt :=
        { d with
          myep := if s.batonBound then d.myep else own
          etype := v.extractLsb' 24 16, vid := v.extractLsb' 12 12, pfcen := v.getLsbD 2
          dcfgErr := (d.dcfgErr && !v.getLsbD 0) || s.batonBound }
       (s.dxt.pfcen = false ∨ v.getLsbD 2 = true → exec (.dxtCfgWrite v) s = Next (s.updDxt written)) ∧
       (s.dxt.pfcen = true → v.getLsbD 2 = false → ∃ t, exec (.dxtCfgWrite v) s = Next t ∧ t.dxt.myep = (written s.dxt).myep ∧
          t.dxt.etype = (written s.dxt).etype ∧ t.dxt.vid = (written s.dxt).vid ∧ t.dxt.pfcen = false ∧
          t.dxt.dcfgErr = (written s.dxt).dcfgErr ∧ ∀ r : PortId, (t.ports[r]).paused = 0 ∧ (t.ports[r]).kept = [])) ∧
      (v.getLsbD 16 = true ∨ v.getLsbD 17 = false → exec (.dxtMacWrite v) s = Next (s.updDxt fun d => { d with dcfgErr := true })) ∧
      (v.getLsbD 16 = false → v.getLsbD 17 = true →
        exec (.dxtMacWrite v) s = Next (s.updDxt fun d => { d with macpfx := v.extractLsb' 0 24 })) ∧
      (∃ t, exec (.fpCfgWrite p v) s = Next t ∧ (t.ports[p]).pen = v.getLsbD 2 ∧
        (t.ports[p]).pmd = (if v.getLsbD 1 then (s.ports[p]).pmd else v.extractLsb' 0 2) ∧
        (v.getLsbD 2 = false → (t.ports[p]).pstate = .disabled) ∧
        (v.getLsbD 2 = true → (s.ports[p]).pen = false → (t.ports[p]).pstate = .training) ∧
        (v.getLsbD 1 = true → t.dxt.dcfgErr = true)))

/-- R159, R162, R431-R439: the host port: the aperture reads and writes memory, or answers zeros and sets `APTERR`; its base, the core
state windows, configuration requests and single registers; the loss and return of its link and PERST#. -/
def Obligations.HostPortActs : Prop :=
  ∀ (s : State), s.dark = false →
    (s.barOpen 2 = true → ∀ (off : BitVec 38) (n : Nat) (data : List Byte),
      let a := s.host.aptb.toNat * 2 ^ 30 + off.toNat
      (off.toNat + n ≤ s.host.aperture →
        (s.reachable a n = true → s.hubReaches a = true → s.place a = .hbm → exec (.apertureRead off n) s = Next { s with
          host := { s.host with
            rdata := (List.range n).map fun i => if s.stackDead (a + i) then 0 else Memory.byte s.mem (a + i), rstat := 0 } }) ∧
        (s.reachable a n = false ∨ s.addrOut a = true → exec (.apertureRead off n) s = Next { s with
          host := { s.host with rdata := List.replicate n 0, rstat := 0, aptErr := true } })) ∧
      (data ≠ [] → off.toNat + data.length ≤ s.host.aperture →
        (s.reachable a data.length = false ∨ s.addrOut a = true → exec (.apertureWrite off data) s = Next { s with
          host := { s.host with aptErr := true } }) ∧
        (s.reachable a data.length = true → s.hubReaches a = true →
          (s.place a = .hbm → a % 64 = 0 → data.length % 64 = 0 → exec (.apertureWrite off data) s = Next (s.writeHbmBytes a data)) ∧
          (s.place a = .hbm → a % 64 ≠ 0 ∨ data.length % 64 ≠ 0 → exec (.apertureWrite off data) s = Next { s with
            host := { s.host with aptErr := true, aer := s.host.aer + 1 } }) ∧
          (∀ k o, s.place a = .istore k o →
            ((s.core k).isStopped = true → exec (.apertureWrite off data) s = Next { s with mem := Memory.setBytes s.mem a data }) ∧
            ((s.core k).isStopped = false → exec (.apertureWrite off data) s = Next { s with
              host := { s.host with aptErr := true } })) ∧
          (∀ k o, s.place a = .basin k o ∨ s.place a = .cistern k o → Memory.wf (s.settle k).mem = true →
            Sparse.sorted (s.settle k).bibs = true → ∃ t, exec (.apertureWrite off data) s = Next t ∧
            Memory.bytes t.mem a data.length = data ∧
            (∀ b, b < a ∨ a + data.length ≤ b → Memory.byte t.mem b = Memory.byte (s.settle k).mem b) ∧
            (∀ b, a / 4096 ≤ b → b ≤ (a + data.length - 1) / 4096 → Sparse.find t.bibs b = none))))) ∧
    (s.barOpen 0 = true →
      (∀ v : Word,
        (v.toNat % 2 ^ 18 % 2 ^ s.host.bar4 = 0 → exec (.hpAptWrite v) s = Next { s with
          host := { s.host with aptb := v.extractLsb' 0 18 } }) ∧
        (v.toNat % 2 ^ 18 % 2 ^ s.host.bar4 ≠ 0 → exec (.hpAptWrite v) s = Next { s with
          host := { s.host with aptErr := true } })) ∧
      (∀ (k : CoreId) (off : BitVec 16) (v : BitVec 32), s.hasCore k = true → s.dieHeld (dieOf k) = false → off.toNat % 4 = 0 →
        ((s.core k).isStopped = true → exec (.coreStateWindowAccess k off none) s = Next { s with
            host := { s.host with rdata := (List.range 4).map fun i => (s.core k).windowByte (off.toNat + i), rstat := ST_OK } }) ∧
        ((s.core k).isStopped = false → exec (.coreStateWindowAccess k off none) s = Next { s with
            host := { s.host with rdata := List.replicate 4 0, rstat := ST_CORE_BUSY } }) ∧
        ((s.core k).isStopped = true → off = 0x140 → exec (.coreStateWindowAccess k off (some v)) s =
          Next (s.updArch k fun a => { a with sticky := a.sticky &&& ~~~v.extractLsb' 0 9 }))) ∧
      (∀ v : Word,
        exec (.registerWrite 0x20200 v) s = Next { s with baton := { s.baton with vcWeight := v } } ∧
        exec (.registerWrite 0x20208 v) s = Next { s with baton := { s.baton with vcMap := v.extractLsb' 0 12 } } ∧
        exec (.registerWrite 0x20808 v) s = Next { s with events := { s.events with evcons := v.extractLsb' 32 32 } } ∧
        exec (.registerWrite 0x700010 v) s = Next { s with dxt := { s.dxt with pcpmap := v.extractLsb' 0 24 } } ∧
        exec (.registerWrite 0x780008 v) s = Next { s with host := { s.host with
          hfails := v.extractLsb' 16 16, linkLost := s.host.linkLost && !v.getLsbD 1, aptErr := s.host.aptErr && !v.getLsbD 0 } } ∧
        (s.dieOut 0 = false → exec (.registerWrite 0x1080000 v) s = Next { s with hbms := s.hbms.set 0 { s.hbms[0] with
          duecnt := v.extractLsb' 16 16, cecnt := v.extractLsb' 0 16 } }) ∧
        exec (.registerWrite 0x5000000 v) s = Next s)) ∧
    (∀ q : QId, (s.queue q.val).hostTransfer = true → ∃ t r, exec (.completionTimeout q) s = Next t ∧
      (t.queue q.val).fin = some ⟨ST_HOST_FAIL, r⟩ ∧ t.host.hfails = sat16 s.host.hfails 1 ∧ t.mem = s.mem ∧
      t.hostMem = s.hostMem) ∧
    (s.host.linkUp = true → s.queues = [] →
      exec .hostLinkLoss s = Next ({ s with host := { s.host with linkUp := false, linkLost := true } }.emitHub 0x27 0
        (1 + s.host.lspeed.toNat * 2 ^ 4 + s.host.lwidth.toNat * 2 ^ 8))) ∧
    (s.queues = [] ∨ s.host.linkUp = false → exec .perstAssert s = Next { s with
      host := HostPort.reset }) ∧
    (∀ speed width : BitVec 4, 1 ≤ speed.toNat → speed.toNat ≤ 6 → (width = 1 ∨ width = 2 ∨ width = 4 ∨ width = 8) →
      s.host.pendingMsi = [] → exec (.hostLinkTrained speed width) s =
        Next ({ s with host := { s.host with linkUp := true, lspeed := speed, lwidth := width, ready := s.clerk.bstage == 12 } }.emitHub 0x27 0
          (speed.toNat * 2 ^ 4 + width.toNat * 2 ^ 8))) ∧
    (s.host.linkUp = true →
      let host (h : HostPort) := Next { s with host := h }
      (∀ d, exec (.configWrite (.powerState d)) s = host { s.host with d3hot := d }) ∧
      (∀ base, exec (.configWrite (.bar 0 base)) s = host { s.host with
        bars := s.host.bars.set 0 (some (BitVec.ofNat 64 (base.toNat / 2 ^ 27 * 2 ^ 27))) }) ∧
      (∀ g, exec (.configWrite (.bar4Size g)) s = host { s.host with bar4 := g.val }) ∧
      (s.host.pendingMsi = [] → (∀ b, exec (.configWrite (.msixEnable b)) s = host { s.host with msixOn := b }) ∧
        ∀ n a d m, s.barOpen 1 = true → exec (.configWrite (.msixEntry n a d m)) s = host { s.host with
          msixTable := Sparse.put s.host.msixTable n.val (a, d)
          unmasked := if m then Sparse.del s.host.unmasked n.val else Sparse.put s.host.unmasked n.val () }) ∧
      (∀ n a d m, s.barOpen 1 = false → exec (.configWrite (.msixEntry n a d m)) s = Next s) ∧
      (∀ n, exec (.configWrite (.maxPayload n)) s = host { s.host with mps := n.val }) ∧
      (∀ n, exec (.configWrite (.maxReadRequest n)) s = host { s.host with mrrs := n.val }) ∧
      ∀ r, exec (.configWrite (.completionTimeout r)) s = host { s.host with timeout := r })

/-- R19, R31, R244, R249, R276-R279, R333, R334, R357, R361, R426, R441-R448, R454-R458, R462-R467, R472, R473, R484, R489, R490: each
mailbox command of a ready module takes its slot and is served with the effect and the reply of its table, or BAD_CMD, as one whose `MBLEN` is
out of range is; the Clerk's slots are not written by others; a reply gives the slot back and interrupts. -/
def Obligations.MailboxCommandsAct : Prop :=
  ∀ (s : State) (e : MbEnv), s.dark = false → s.barOpen 1 = true → s.host.ready = true → s.clerk.bstage = 12 →
    s.clerk.recovery = false → s.clerk.foreign = false → s.clerk.slots[e.slot].owned = false → s.clerk.waiting = [] →
    s.clerk.replies = [] → s.clerk.dieResets = [] → e.seq ≠ 0 → e.len.toNat ≤ 4032 →
    let taken (cmd : Byte) (req : List Byte) : State := s.updSlot e.slot fun x =>
      ⟨mbHeader e.len.toNat e.stat cmd e.seq e.vec true, Memory.setBytes x.payload 0 req⟩
    -- ATTEST keeps Serial commands back as one of them does (R464)
    let owes (t : State) (cmd st : Byte) (reply : List Byte) (after : AfterReply) := Next (t.updClerk fun c =>
      { c with replies := [⟨e.slot, e.seq, e.vec, cmd, mbSerial cmd || cmd == 0x05, st, reply, after, false⟩] })
    let answers (i : Instr) (cmd : Byte) (req : List Byte) (f : State → State) (st : Byte) (reply : List Byte) (after : AfterReply) :=
      req.length ≤ e.len.toNat → exec i s = owes (f (taken cmd req)) cmd st reply after
    let ok (i : Instr) (cmd : Byte) (req : List Byte) (f : State → State) (reply : List Byte) :=
      answers i cmd req f ST_OK reply .none
    let bad (i : Instr) (cmd : Byte) (req : List Byte) (st : Byte) := answers i cmd req id st [] .none
    ok (.identify e) 0x01 [] id s.identity ∧
    ok (.measureRead e) 0x02 [] id s.clerk.measured ∧
    (∀ (reg : Byte) (digest : BitVec 256),
      let req := [reg] ++ List.replicate 7 0 ++ natLe 32 digest.toNat
      (∀ i : Fin 8, reg.toNat = i.val → 5 ≤ i.val →
        ok (.measureExtend e reg digest) 0x03 req (fun u => u.updClerk fun c => c.extend i digest) []) ∧
      (reg.toNat < 5 ∨ 7 < reg.toNat → bad (.measureExtend e reg digest) 0x03 req ST_BAD_CMD) ∧
      (e.len.toNat < 40 → exec (.measureExtend e reg digest) s = owes (taken 0x03 req) 0x03 ST_BAD_CMD [] .none)) ∧
    (∀ (ha : Word) (n : BitVec 32), s.host.linkUp = true →
      let req := natLe 8 ha.toNat ++ natLe 4 n.toNat
      (Config.certChain.length ≤ n.toNat → ok (.certRead e ha n false) 0x04 req
        (fun u => { u with hostMem := Memory.setBytes u.hostMem ha.toNat Config.certChain }) (natLe 4 Config.certChain.length)) ∧
      (n.toNat < Config.certChain.length → bad (.certRead e ha n false) 0x04 req ST_BAD_CMD)) ∧
    (∀ (nonce : BitVec 256) (ha : Word), s.host.linkUp = true →
      let body := s.attestBody nonce
      ok (.attest e nonce ha false) 0x05 (natLe 32 nonce.toNat ++ natLe 8 ha.toNat)
        (fun u => { u with
          hostMem := Memory.setBytes u.hostMem ha.toNat (body ++ padTo 16224 (Config.slhSign identitySeeds body)) }) (natLe 4 16576)) ∧
    (∀ (cls inst log2n : Byte) (vec : BitVec 16),
      let req := [cls, inst, log2n, 0] ++ natLe 2 vec.toNat
      let good := 4 ≤ log2n.toNat ∧ log2n.toNat ≤ 16 ∧ 1 ≤ cls.toNat ∧ cls.toNat ≤ 5 ∧ inst.toNat < classSize cls.toNat ∧
        vec.toNat < 2048
      let blocks := (2 ^ log2n.toNat * 64 + 4095) / 4096
      let q := firstFree 0 s.queueNumbers
      (¬ good → bad (.queueAlloc e cls inst log2n vec) 0x10 req ST_BAD_CMD) ∧
      (∀ first t, good → q < 65536 → (taken 0x10 req).allocate (s.ringMode cls.toNat inst.toNat) blocks (fun _ => 0) = some (first, t) →
        answers (.queueAlloc e cls inst log2n vec) 0x10 req
          (fun _ => ({ t with rings := Sparse.put t.rings q ⟨first, blocks⟩ } : State).updQueue q fun _ =>
            { Queue.disabled with
              base := 4096 * first, en := true, ecls := BitVec.ofNat 4 cls.toNat, inst := inst
              vector := BitVec.ofNat 11 vec.toNat, log2n := BitVec.ofNat 5 log2n.toNat, qstate := .idle })
          ST_OK (natLe 2 q ++ List.replicate 6 0 ++ natLe 8 (4096 * first)) .none)) ∧
    (∀ n : BitVec 16,
      let x := s.queue n.toNat
      (x.qstate = .idle ∨ x.qstate = .halted → ok (.queueFree e n) 0x11 (natLe 2 n.toNat)
        (fun u => { u with queues := Sparse.del u.queues n.toNat, rings := Sparse.del u.rings n.toNat }) []) ∧
      (x.qstate ≠ .idle → x.qstate ≠ .halted → bad (.queueFree e n) 0x11 (natLe 2 n.toNat) ST_BAD_CMD)) ∧
    (∀ (ha : Word) (log2 : Byte) (vec : BitVec 16) (hf : Bool), ha.toNat % 4096 = 0 → 6 ≤ log2.toNat → log2.toNat ≤ 20 → vec.toNat < 2048 →
      s.events.held = [] → ok (.eventRing e ⟨ha, hf⟩ log2 vec) 0x18 (natLe 8 ha.toNat ++ [log2, 0] ++ natLe 2 vec.toNat)
        (fun u => { u with events := { u.events with
          ring := some (ha.toNat, log2.toNat, BitVec.ofNat 11 vec.toNat), evprod := 0, evcons := 0 } }) []) ∧
    (∀ addr : Word,
      (s.groupRec addr.toNat = none → bad (.groupWrite e addr) 0x20 (natLe 8 addr.toNat) ST_BAD_CMD) ∧
      (∀ r b base, s.groupRec addr.toNat = some r → s.badGroup r = false → s.placeSlots r.number r.members.length = some (b, base) →
        s.baton.waiting = [] → (∀ j : Fin 8, (s.fab j).valid = false) → 8 ≤ e.len.toNat → base + r.members.length ≤ slotMax →
        ∃ t, exec (.groupWrite e addr) s = Next t ∧
          let g := t.group (BitVec.ofNat 12 r.number)
          g.valid = true ∧ g.gfp = BitVec.ofNat 32 (leNat ((sha256 r.bytes).take 4)) ∧ g.grace = BitVec.ofNat 16 r.grace ∧
          g.myrank = BitVec.ofNat 16 (r.rankOf s.dxt.myep) ∧ g.ggen = (s.group (BitVec.ofNat 12 r.number)).ggen + 1 ∧
          (∀ i m, r.members[i]? = some m → t.memberOf g i = m) ∧
          t.clerk.replies.map (fun x => (x.slot, x.status, x.reply)) =
            [(e.slot, ST_OK, natLe 2 (r.rankOf s.dxt.myep) ++ [0, 0] ++ natLe 4 g.gfp.toNat ++ natLe 3 base)])) ∧
    (∀ n : BitVec 16, n.toNat ≤ 4095 → s.groupActive n.toNat = false → s.baton.waiting = [] → 2 ≤ e.len.toNat → ∃ t, exec (.groupClear e n) s = Next t ∧
      (t.group (BitVec.ofNat 12 n.toNat)).valid = false ∧
      t.clerk.replies.map (fun x => (x.slot, x.status, x.reply)) = [(e.slot, ST_OK, [])]) ∧
    (∀ (h : BitVec 32),
      (s.handle h = none → bad (.placeQuery e h) 0x28 (natLe 4 h.toNat) ST_BAD_HANDLE) ∧
      (∀ r f, s.handle h = some r → Sparse.find s.frames (r.first / frameBlocks) = some f → ok (.placeQuery e h) 0x28 (natLe 4 h.toNat) id
        ([if f.fmode then 0xFF else BitVec.ofNat 8 f.fdie.toNat] ++ List.replicate 7 0 ++ natLe 8 (4096 * r.first) ++
          natLe 8 (4096 * (r.first + r.blocks) - 1) ++ natLe 8 0 ++ s.pcoreWords))) ∧
    (∀ (ep : BitVec 24) x c, s.peer ep = some x → x.cap = some c → c.length = 64 → ok (.peerQuery e ep) 0x29 (natLe 3 ep.toNat) id
      (c ++ natLe 3 ((s.reaching ep).foldl (fun (m : BitVec 24) p => m ||| (1 <<< p.val)) 0).toNat ++ [1])) ∧
    (∀ (addr : Word) l,
      let p : BitVec 512 := BitVec.ofNat 512 (s.rdDevNat addr.toNat 64)
      let dlist := fld p 0 48
      let dcount := fld p 64 13
      let dint := fld p 195 13
      let g := s.group (p.extractLsb' 212 12)
      s.guard.replaying = none → s.stepPhase = .idle → s.reachable addr.toNat 64 = true →
      (∀ x ∈ s.queues, x.2.qstate = .active → x.2.ecls ≠ 1 ∧ x.2.ecls ≠ 2 ∧ x.2.ecls ≠ 4) →
      fld p 48 16 = 0 → fld p 77 118 = 0 → fld p 208 4 = 0 → fld p 224 5 = 0 → fld p 256 256 = 0 →
      (p.getLsbD 230 = true → 1 ≤ dint ∧ dint ≤ 4096 ∧ g.valid = true) → dcount ≤ 4096 →
      (0 < dcount → dlist % 16 = 0 ∧ s.reachable dlist (16 * dcount) = true) →
      (p.getLsbD 231 = true → s.fuses.gy4 = true ∧ p.getLsbD 229 = true ∧ p.getLsbD 230 = true ∧ g.grace ≠ 0) →
      s.digList dlist dcount = some l →
      ok (.guardSet e addr) 0x30 (natLe 8 addr.toNat) (fun u =>
        let t : State := { u with
          guard := { Guard.reset with
            repen := p.getLsbD 229, fden := p.getLsbD 230, twen := p.getLsbD 231, fdgroup := p.extractLsb' 212 12, dint := dint
            twep := p.extractLsb' 232 24, list := l, fdValue := u.guard.fdValue }
          dxt := { u.dxt with twmode := p.getLsbD 231 }
          fabs := u.fabs.map fun f => { f with log := [], replay := [] } }
        if p.getLsbD 229 then t.tellTwinPorts.saveStep else t.tellTwinPorts) []) ∧
    (∀ masks : Vector (BitVec 32) 4, (∀ d : DieId, masks[d].toNat < 2 ^ 18 ∧ (s.hasDie d = false → masks[d] = 0)) → 16 ≤ e.len.toNat →
      ∃ t, exec (.cdRequest e masks) s = Next t ∧ ∀ (d : DieId) (p : PCoreNo), s.hasDie d = true →
        let x := s.pcore d p
        (masks[d].getLsbD p.val = true → x.pst = .spare ∨ x.pst = .parked → x.test = none → x.due = none → x.owed = false →
          t.pcore d p = { x with due := some 5 }) ∧
        (masks[d].getLsbD p.val = false → t.pcore d p = x)) ∧
    (∀ (lc : Byte) (k : CoreId), lc.toNat = k.val → s.hasCore k = true →
      ((s.core k).unavailable = false → ok (.rotate e lc) 0x32 [lc] (fun u =>
        { u with rotReq := if u.rotReq.contains k then u.rotReq else u.rotReq ++ [k] }) []) ∧
      ((s.core k).unavailable = true → bad (.rotate e lc) 0x32 [lc] ST_NO_SPARE)) ∧
    (∀ (ha : Word) (off n : BitVec 32),
      let other := !s.clerk.slot
      s.host.linkUp = true → off.toNat % 4096 = 0 → n.toNat % 4096 = 0 → n.toNat ≤ 2 ^ 24 → off.toNat + n.toNat ≤ 2 ^ 26 →
      s.flash.bootRec.bpend ≠ some other →
      answers (.fwWrite e ha off n 0 false) 0x38 (natLe 8 ha.toNat ++ natLe 4 off.toNat ++ natLe 4 n.toNat ++ [0]) (fun u =>
        { u with
          flash := u.flash.setSlot other ((u.flash.slot other).erase (off.toNat / 4096) (n.toNat / 4096))
          clerk := { u.clerk with written := some other } }) ST_OK (natLe 4 n.toNat)
        (.program other (off.toNat / 4096) (Memory.bytes s.hostMem ha.toNat n.toNat))) ∧
    (let other := !s.clerk.slot
     (slotFault s.fuses (s.flash.slot other) = none → answers (.fwCommit e) 0x39 [] id ST_OK [0] (.commit other)) ∧
     (∀ r, slotFault s.fuses (s.flash.slot other) = some r →
        answers (.fwCommit e) 0x39 [] id ST_BAD_CMD [BitVec.ofNat 8 r] .none)) ∧
    ((s.clerk.trial = true → ok (.fwConfirm e) 0x3A [] (fun u =>
        { u with
          flash := u.flash.writeRec u.clerk.slot none 0
          fuses := { u.fuses with svn := max u.fuses.svn (min 64
            (({ u with flash := u.flash.writeRec u.clerk.slot none 0 } : State).running.num 8 2)) }
          clerk := { u.clerk with trial := false } }) []) ∧
     (s.clerk.trial = false → bad (.fwConfirm e) 0x3A [] ST_BAD_CMD)) ∧
    ok (.fwStatus e) 0x3B [] id (s.flash.bootRec.bytes ++ s.flash.slotA.bytes 0 624 ++ s.flash.slotB.bytes 0 624 ++
      [slotState (s.verifies false), slotState (s.verifies true)]) ∧
    slotState true ≠ slotState false ∧
    answers (.resetModule e) 0x40 [1, 0] id ST_OK [] .moduleReset ∧
    (∀ (d : DieId) (n : Byte), n.toNat = d.val →
      (s.hasDie d = true → (s.link d).hub.lstate ≠ .failed → (s.link d).die.lstate ≠ .failed →
        answers (.resetDie e n) 0x40 [2, n] id ST_OK [] (.dieReset d)) ∧
      (s.hasDie d = false → bad (.resetDie e n) 0x40 [2, n] ST_BAD_CMD)) ∧
    (ok (.shutdown e 0) 0x41 [0] (fun u => { u with clerk := { u.clerk with shutdown := true } }) [] ∧
     (1 ≤ e.len.toNat → ∃ t, exec (.shutdown e 1) s = Next t ∧ t.clerk.shutdown = true ∧ t.cooldown.shutdown = true)) ∧
    (ok (.sensorRead e 0) 0x48 [0] (fun u => { u with power := { u.power with peak := 0 } }) s.power.page0 ∧
     ok (.sensorRead e 1) 0x48 [1] id ((List.range 16).flatMap fun i => s.railRecord i) ∧
     ok (.sensorRead e 2) 0x48 [2] id s.page2) ∧
    (∀ (cap floor ramp ecap : BitVec 16) (persist : Byte),
      let n : Limits := ⟨cap, floor, ramp, ecap⟩
      let req := natLe 2 cap.toNat ++ natLe 2 floor.toNat ++ natLe 2 ramp.toNat ++ natLe 2 ecap.toNat ++ [15, persist]
      (persist.toNat ≤ 1 → s.limitsOk n = true → floor.toNat + 200 ≤ cap.toNat →
        ok (.powerSet e cap floor ramp ecap 15 persist) 0x49 req (fun u => { u with
          power := { u.power with limits := n }
          flash := { u.flash with limits := if persist = 1 then some n else u.flash.limits } }) n.bytes) ∧
      (s.limitsOk n = false → bad (.powerSet e cap floor ramp ecap 15 persist) 0x49 req ST_BAD_CMD)) ∧
    ok (.serviceStatus e) 0x50 [] id ([s.svcByte] ++ List.replicate 7 0 ++ (s.svc.toList.flatMap fun m =>
      natLe 3 (m.getD 0xFFFFFF).toNat)) ∧
    (∀ (ha : Word) (marks : Byte), s.host.linkUp = true →
      let token := Memory.bytes s.hostMem ha.toNat 16256
      let body := token.take 32
      Config.slhVerify (s.running.bytes 576 48) body (token.drop 32) = true → leNat (body.take 8) = s.fuses.serial.toNat →
      s.flash.tokens.toNat < leNat ((body.drop 12).take 4) → ((body.drop 9).take 3 ++ body.drop 16).all (fun b => b == 0) = true →
      marks &&& ~~~(body.getD 8 0) = 0 →
      ok (.serviceClear e ha marks false) 0x51 (natLe 8 ha.toNat ++ [marks]) (fun u => { u with
        svc := Vector.ofFn fun i => if marks.getLsbD i.val then none else u.svc[i]
        flash := { u.flash with tokens := BitVec.ofNat 32 (leNat ((body.drop 12).take 4)) } }) []) ∧
    (∀ h : Word, h.getLsbD 0 = true → headerRefused h = true → ∃ t, exec (.mailboxUnlistedCommand e.slot h) s = Next t ∧
      (t.clerk.slots[e.slot]).header = h ∧
      (s.stageServes ⟨e.slot, h.extractLsb' 16 16, h.extractLsb' 5 11, h.extractLsb' 32 8, .unlisted⟩ = true →
        t.clerk.replies.map (fun x => (x.slot, x.seq, x.status, x.reply)) = [(e.slot, h.extractLsb' 16 16, ST_BAD_CMD, [])])) ∧
    (∀ h : Word, h.getLsbD 0 = false →
      let held (i : Fin 8) := Next (s.updSlot i fun x => { x with header := h &&& ~~~0x1F#64 })
      exec (.mailboxUnlistedCommand e.slot h) s = held e.slot ∧ exec (.mailboxOwnedWrite e.slot 0 (natLe 8 h.toNat)) s = held e.slot) ∧
    (∀ (i : Fin 8) (off : BitVec 12) (data : List Byte),
      (s.clerk.slots[i].owned = true → exec (.mailboxOwnedWrite i off data) s =
        Next { s with clerk := { s.clerk with mberr := true } }) ∧
      (s.clerk.slots[i].owned = false → 0x40 ≤ off.toNat → off.toNat + data.length ≤ 4096 →
        exec (.mailboxOwnedWrite i off data) s = Next (s.updSlot i fun x =>
          { x with payload := Memory.setBytes x.payload (off.toNat - 0x40) data }))) ∧
    (∀ (u : State) (r : Reply), u.dark = false → u.clerk.replies = [r] → u.clerk.waiting = [] → r.cmd ≠ 0x41 →
      let v := (({ u with clerk := { u.clerk with replies := [] } } : State).updSlot r.slot fun x =>
        ⟨mbHeader r.reply.length r.status r.cmd r.seq r.vec false, Memory.setBytes x.payload 0 r.reply⟩).interrupt r.vec
      (r.after = .none → exec (.mailboxReply r.slot) u = Next v) ∧
      (r.after = .moduleReset ∨ (∃ d, r.after = .dieReset d) → r.replied = false → exec (.mailboxReply r.slot) u =
        Next (v.updClerk fun c => { c with replies := [{ r with replied := true }] })) ∧
      (∀ b blk data, r.after = .program b blk data → exec (.mailboxReply r.slot) u = Next { v with
        flash := u.flash.setSlot b ((u.flash.slot b).program blk (data.length / 4096) data) }) ∧
      (∀ b, r.after = .commit b → exec (.mailboxReply r.slot) u = Next { v with
        flash := u.flash.writeRec u.flash.bootRec.bact (some b) 0 }) ∧
      (r.after = .moduleReset → r.replied = true → u.guard.absorbed = [] → Sparse.sorted u.frames = true → ∃ t, exec (.mailboxReply r.slot) u = Next t ∧ t.irqs = u.irqs ∧ t.clerk.bstage = 1 ∧
        t.clerk.rkind = 2 ∧ t.clerk.rsrc = 1 ∧ t.queues = [] ∧ t.host.bars = u.host.bars ∧
        t.host.ready = false ∧
        -- the reserved frames, which stay backed, hold what they held
        ∀ a f, a < 2 ^ 41 → Sparse.find u.frames (a / 2 ^ 30) = some f → u.frameCount - u.dieCount ≤ a / 2 ^ 30 →
          Memory.byte t.mem a = Memory.byte u.mem a ∧ t.hbmBib (a / 4096) = u.hbmBib (a / 4096) ∧
            t.poisoned (a / 4096) = u.poisoned (a / 4096)))

/-- R26, R445, R451, R452, R466, R470, R475-R488: starts, resets and the supply: power good and a Clerk watchdog start the module anew
and leave every mailbox slot zero and no reply owed; boot steps end, stop or make the module ready; faults of the clocks, the
supply and the coolant stop what they name; the power target follows its bounds. -/
def Obligations.BootAndPowerAct : Prop :=
  ∀ (s : State),
    let cleared (t : State) := t.clerk.replies = [] ∧ t.clerk.waiting = [] ∧ ∀ i : Fin 8, t.clerk.slots[i] = ⟨0, []⟩
    (s.power.stage.starting = true → ∃ t, exec .powerGood s = Next t ∧ cleared t ∧ t.clerk.bstage = 1 ∧ t.clerk.rkind = 1 ∧
      t.power.stage = .on ∧ t.mem = [] ∧ t.bibs = [] ∧ t.shelf = State.reset.shelf ∧ t.frames = [] ∧ t.queues = [] ∧ t.fuses = s.fuses ∧ t.hostMem = s.hostMem ∧ t.svc = s.svc ∧
      t.flash = { s.flash with starts := s.flash.starts + 1 } ∧ t.host = HostPort.reset ∧ ∀ k, (t.core k).arch = Core.reset.arch) ∧
    (s.dark = false →
      (∃ t, exec .clerkWatchdogExpiry s = Next t ∧ cleared t ∧ t.clerk.bstage = 1 ∧ t.clerk.rkind = 2 ∧ t.clerk.rsrc = 2 ∧
        t.clerk.late = s.clerk.late ++ [⟨0x2B, 2, 0⟩] ∧ t.queues = [] ∧ t.host.bars = s.host.bars ∧
        t.stepCtr = 0 ∧ (∀ k, (t.core k).arch = Core.reset.arch) ∧
        -- the reserved frames, which stay backed, hold what they held
        ∀ a f, a < 2 ^ 41 → Sparse.sorted s.frames = true → Sparse.find s.frames (a / 2 ^ 30) = some f → s.frameCount - s.dieCount ≤ a / 2 ^ 30 →
          Memory.byte t.mem a = Memory.byte s.mem a ∧ t.hbmBib (a / 4096) = s.hbmBib (a / 4096) ∧
            t.poisoned (a / 4096) = s.poisoned (a / 4096)) ∧
      (s.clerk.bstage = 1 → exec (.bootStepEnd .done) s = Next { s with clerk := { s.clerk with bstage := 2 } }) ∧
      (s.clerk.bstage = 4 → s.flash.badCopies = [] → s.clerk.waiting = [] → ∃ t, exec (.bootStepEnd .done) s = Next t ∧
        (s.coolantForBoot = true → t.clerk.bstage = 5 ∧ t.power.diesOn = 1) ∧
        (s.coolantForBoot = false → t.clerk.bstage = 255 ∧ t.clerk.bfail = 5 ∧ t.power = s.power)) ∧
      (s.clerk.bstage = 4 → s.clerk.waiting = [] →
        exec (.bootStepEnd .failed) s = Next { s with clerk := { s.clerk with bfail := 4, bstage := 255 } }) ∧
      (s.clerk.bstage = 6 → s.linksSettled = true → s.someLink = true →
        exec (.bootStepEnd .done) s = Next { s with clerk := { s.clerk with bstage := 7 } }) ∧
      (s.clerk.bstage = 7 → ∃ t, exec (.bootStepEnd .done) s = Next t ∧ t.clerk.bstage = 8 ∧
        ∀ st : StackId, st.val < s.stackCount → (s.hbms[st]).hstate = .training → (t.hbms[st]).hstate = .inService) ∧
      (s.clerk.bstage = 11 → s.clerk.foreign = false → s.svc[3] = none → s.clerk.late = [] → s.flash.badCopies = [] → s.cooldown.cut = [] →
        s.cooldown.cutAreas = [] →
        s.clerk.waiting = [] → ∃ t, exec (.bootStepEnd .done) s = Next t ∧ t.host.ready = true ∧ t.clerk.bstage = 12 ∧
          t.events.eseq = s.events.eseq + 1) ∧
      (∃ t e, exec (.pllLockLoss .reference) s = Next t ∧ t.dark = true ∧ t.host.linkUp = false ∧
        t.clerk.late = s.clerk.late ++ [e] ∧ e.evt = 0x11) ∧
      (∀ d : DieId, s.hasDie d = true → s.clerk.deadDies.contains d = false → ∃ t, exec (.pllLockLoss (.dieRoot d)) s = Next t ∧
        t.clerk.deadDies = s.clerk.deadDies ++ [d] ∧ t.dieHeld d = true) ∧
      (∀ r : Fin 13, 5 ≤ r.val → ∀ d : DieId, d.val = (r.val - 5) % 4 → s.hasDie d = true → s.clerk.deadDies.contains d = false →
        ∃ t, exec (.railFault r) s = Next t ∧ t.power.rails.getLsbD r.val = true ∧ t.dieHeld d = true) ∧
      (∀ c : ThermalCause, s.power.pstop = false → s.causePresent c = true → ∃ t, exec (.thermalStop c) s = Next t ∧
        t.power.pstop = true ∧ (∀ d, t.dieHeld d = true) ∧ ∀ k, (t.core k).arch = Core.reset.arch) ∧
      (∃ t, exec (.powerStageTrip .hub) s = Next t ∧ t.power.stage = .off ∧ t.power.latchedOff = true ∧ t.host.linkUp = false) ∧
      (∀ m : PowerReading,
        (s.clerk.limitStage < 5 → exec (.powerControlTick m) s = Next { s with power := { s.power.measure m with
          target := min m.demand 15000, duties := Vector.replicate 64 64, therm := false, flowlim := false, caplim := false, ramplim := false
          ballast := false, fshort := false, ballastPower := 0, recentBallast := (0 :: s.power.recentBallast).take 100 } }) ∧
        (s.clerk.bstage = 12 → s.clerk.shutdown = false → s.hotspot m = false → ∃ t, exec (.powerControlTick m) s = Next t ∧
          let l := s.power.limits
          let cap := 100 * (if s.power.pcap then min l.ecap.toNat l.cap.toNat else l.cap.toNat)
          let hot := cap - (if s.fuses.gy4 then 150 else 85) * (m.inlet - 4000).toNat
          let u := min cap (min hot (600 * m.flow))
          let rho := l.ramp.toNat
          let old := s.power.target
          t.power.target = min (min u (old + rho)) (max (max (old - rho) (min (100 * l.floor.toNat) (old + rho))) m.demand) ∧
            t.power.last = m ∧
            t.power.peak = max s.power.peak (mean (((m :: s.power.recent).take 100).map fun r => r.pin)) ∧ t.power.energy = s.power.energy + m.pin))) ∧
    (s.clerk.modFault = true → s.power.stage = .on → ∃ t, exec .moduleFaultReset s = Next t ∧ cleared t ∧ t.clerk.bstage = 1 ∧
      t.clerk.rkind = 2 ∧ t.clerk.rsrc = 3 ∧ t.dark = false) ∧
    (s.power.pwren = false → exec .pwrenAssert s = Next { s with
      power := { s.power with pwren := true, stage := .step 1 0, tries := 0, latchedOff := false } }) ∧
    (s.power.stage.starting = true → ∃ t, exec .hotSwapStepTimeout s = Next t ∧ t.power.tries = s.power.tries + 1 ∧
      t.power.stage = (if 3 ≤ s.power.tries + 1 then .off else .retry) ∧ t.power.latchedOff = decide (3 ≤ s.power.tries + 1)) ∧
    (s.power.stage.starting = false → exec .hotSwapStepTimeout s = Next s) ∧
    exec .pwrenDeassert s = Next { s with
      power := { s.power with stage := .off, pwren := false, tries := 0, latchedOff := false }
      host := { s.host with linkUp := false } } ∧
    (∀ i, i = .brownOut ∨ i = .overvoltage ∨ i = .railFault 0 →
      (s.power.stage = .off → exec i s = Next s) ∧
      (s.power.stage ≠ .off → ∃ t e, exec i s = Next t ∧ t.power.stage = .off ∧ t.host.linkUp = false ∧
        t.clerk.late = s.clerk.late ++ [e] ∧ e.evt = 0x33 ∧ e.sev = 2)) ∧
    (s.power.stage = .off → s.power.pwren = true → s.power.latchedOff = false →
      exec .inputRestored s = Next { s with power := { s.power with stage := .step 1 0 } }) ∧
    (∀ b, exec (.pcapChange b) s = Next { s with power := { s.power with pcap := b } })

/-- What a reset state is (R9, R244, R276, R294, R416, R417, R439, R451, R462, R466): the boot step, the identifiers, the queues, the
groups and the links as the spec leaves them, and the memories canonical. The first grade, stepping A1 and the zero general
registers are this model's choice (log entries 1 and 3). -/
def Obligations.ResetIsAsStated : Prop :=
  let s := State.reset
  s.canonical ∧ s.pending = [] ∧ s.clerk.bstage = 1 ∧ s.clerk.rkind = 1 ∧ s.host.ready = false ∧ s.host.linkUp = false ∧
    s.dxt.myep = 0xFFFFFF ∧ s.dxt.etype = 0x88B6 ∧ s.dxt.macpfx = 0x065CA0 ∧ s.baton.vcWeight = 0x0810104020404020 ∧
    s.baton.vcMap = 0xE09 ∧ s.baton.groups = [] ∧ s.stepCtr = 0 ∧ s.skips = 0 ∧ s.handles.live = [] ∧
    (∀ q : QId, (s.queue q.val).en = false) ∧ (∀ i : Fin 8, s.clerk.meas[i] = 0 ∧ s.clerk.slots[i] = ⟨0, []⟩) ∧
    (∀ d : DieId, (s.link d).hub.lstate = .down ∧ (s.link d).die.lstate = .down) ∧
    (∀ k, (s.core k).isStopped = true ∧ (s.core k).arch.ctrs = Vector.replicate 48 0) ∧
    (∀ (d : DieId) (p : PCoreNo), (s.pcore d p).pst = if p.val < 16 then .active else .spare)

/-- Every step keeps every memory in its canonical form: sorted by address, with no byte of zero listed. -/
def Obligations.StepsKeepMemoriesCanonical : Prop :=
  ∀ s t : State, s.canonical → step s = Next t → t.canonical
end

