-- ==== Sys2Proof/WellFormed.lean ====
section
/-! DEFINITION. Well-formed commands: operands that the spec's encodings, registers and messages can hold. An operand whose type
already holds exactly those values needs no check. -/

namespace Sys2Proof

open Machine in
/-- The scalar operation that a command starts. -/
def Instr.scalarOp : Instr → Option ScalarOp
  | .rdcr _ sd sx => some (.rdcr sd sx)
  | .wrcr _ sa sx => some (.wrcr sa sx)
  | .rdtm _ sd sx => some (.rdtm sd sx)
  | .wrtm _ sa sx => some (.wrtm sa sx)
  | _ => none

open Machine in
/-- The vector operation that a command starts, where its encoding restricts a field. -/
def Instr.vectorOp : Instr → Option VecOp
  | .vadd _ fmt vd va b => some (.bin .add fmt vd va b)
  | .vsub _ fmt vd va b => some (.bin .sub fmt vd va b)
  | .vmul _ fmt vd va b => some (.bin .mul fmt vd va b)
  | .vmin _ fmt vd va b => some (.bin .min fmt vd va b)
  | .vmax _ fmt vd va b => some (.bin .max fmt vd va b)
  | .vmaxmag _ fmt vd va b => some (.bin .maxmag fmt vd va b)
  | .vabs _ fmt vd va => some (.un false fmt vd va)
  | .vneg _ fmt vd va => some (.un true fmt vd va)
  | .vcmp _ fmt cc vd va b => some (.cmp fmt cc vd va b)
  | .vdiv _ fmt vd va vb => some (.div fmt vd va vb)
  | .vsqrt _ fmt vd va => some (.sqrt fmt vd va)
  | .vrsum _ fmt sa va => some (.red .sum fmt sa va)
  | .vrmax _ fmt sa va => some (.red .max fmt sa va)
  | .vrmin _ fmt sa va => some (.red .min fmt sa va)
  | .vrmaxmag _ fmt sa va => some (.red .maxmag fmt sa va)
  | .vtail _ vd va vb vc cnt => some (.tail vd va vb vc cnt)
  | _ => none

open Machine in
/-- The load operation that a command starts. -/
def Instr.loadOp : Instr → Option LoadOp
  | .ldb _ dst areg ctr off => some ⟨.b, dst, areg, ctr, 0, off⟩
  | .ldh _ dst areg ctr off => some ⟨.h, dst, areg, ctr, 0, off⟩
  | .ldw _ dst areg ctr off => some ⟨.w, dst, areg, ctr, 0, off⟩
  | .ldd _ dst areg ctr off => some ⟨.d, dst, areg, ctr, 0, off⟩
  | .ldv _ dst areg ctr size off => some ⟨.v, dst, areg, ctr, size, off⟩
  | .ldvw _ dst areg ctr size off => some ⟨.vw, dst, areg, ctr, size, off⟩
  | _ => none

open Machine in
/-- The store operation that a command starts. -/
def Instr.storeOp : Instr → Option StoreOp
  | .stb _ src areg ctr off => some ⟨.b, src, areg, ctr, 0, off⟩
  | .sth _ src areg ctr off => some ⟨.h, src, areg, ctr, 0, off⟩
  | .stw _ src areg ctr off => some ⟨.w, src, areg, ctr, 0, off⟩
  | .std _ src areg ctr off => some ⟨.d, src, areg, ctr, 0, off⟩
  | .stv _ src areg ctr size off => some ⟨.v, src, areg, ctr, size, off⟩
  | _ => none

open Machine in
/-- The sync operation that a command starts. -/
def Instr.syncOp : Instr → Option SyncOp
  | .cinc _ ctr imm => some (.cinc ctr imm)
  | .cset _ ctr imm => some (.cset ctr imm)
  | .cadd _ ctr sreg => some (.cadd ctr sreg)
  | .crd _ ctr sreg => some (.crd ctr sreg)
  | .cincr _ lcore ctr imm => some (.cincr lcore ctr imm)
  | .watch _ ws lcore ctr cond imm => some (.watch ws lcore ctr cond imm)
  | .unwatch _ ws => some (.unwatch ws)
  | .bar _ ws scope imm => some (.bar ws scope imm)
  | _ => none

open Machine in
/-- The flow action of a command, where its flow word restricts a field. -/
def Instr.flowOp : Instr → Option FlowOp
  | .brc _ reg fmode cond bitn t => some (.brc reg fmode cond bitn t)
  | .loop _ csrc cimm reg t => some (.loop csrc cimm reg t)
  | _ => none

/-- A faulty row presents 256 elements of a part of a Relay chain of at most 16 cores. -/
def FaultyRow.wf (f : FaultyRow) : Bool := f.lanes.length == 256 && decide (f.part < 16) && decide (f.row < 128)

/-- A decoder outcome carries whole codewords (R329). -/
def CwOutcome.wf : CwOutcome → Bool
  | .corrected n => decide (n.val ≠ 0)
  | .uncorrectable n data => decide (n ≠ 0) && data.length == 64
  | .miscorrected _ data => data.length == 64
  | .undetected _ data => data.length == 64

/-- A received frame carries the payload of its type (Table: DXT frame). -/
def DxtFrame.wf (f : DxtFrame) : Bool := [4104, 64, 32].contains f.payload.length

/-- Operands in the ranges of the messages and encodings they come from. -/
def Instr.shape : Instr → Bool
  | .matrixRowWrite _ f => f.all FaultyRow.wf
  | .matrixPassEnd _ f => f.all FaultyRow.wf
  | .replayHoldEnd _ f => f.all fun x => x.2.wf
  | .batonBlockArrival _ _ _ data _ _ => data.length == 4096
  | .twinBucketDigest _ _ _ parts => parts.length == 65
  | .twinStepDigest parts => parts.length == 65
  | .hbmBlockRead _ errs => errs.all fun e => e.2.wf
  | .patrolScrub _ errs => errs.all fun e => e.2.wf
  | .hbmBlockWrite _ data _ => data.length == 4096
  | .hbmCodewordWrite _ data => !data.isEmpty && data.length % 64 == 0
  | .dxtBlockFrame _ f => f.wf
  | .dxtMessageFrame _ f => f.wf
  | .dxtAckFrame _ a => a.frame.wf
  | .dxtCapabilityFrame _ f => f.wf
  | .apertureRead _ n => decide (0 < n)
  | .apertureWrite _ data => !data.isEmpty
  | .mailboxOwnedWrite _ off data => decide (off.toNat + data.length ≤ 0x1000)
  | .taperSample _ slack => !slack.isEmpty
  | .linkPhaseEnd _ _ lanes => lanes.length ≤ 12
  | .batonHandshake h => h.srcIdx.length == h.nblk
  | _ => true

/-- A well-formed command: a listed operation (R166, R167), and operands that can arise. -/
def Instr.wf (i : Instr) : Bool :=
  i.shape && i.scalarOp.all Machine.ScalarOp.listed && i.vectorOp.all Machine.VecOp.listed &&
    i.loadOp.all Machine.LoadOp.listed && i.storeOp.all Machine.StoreOp.listed &&
    i.syncOp.all (Machine.SyncOp.listed 64) && i.flowOp.all Machine.FlowOp.listed

end Sys2Proof
end

