-- ==== Sys2Proof/Tests/Slice0.lean ====
section
/-! SUPPORT. Tests of the model on small states, words written out from the encodings of the spec, and for every statement with
hypotheses a state and operands that meet them. -/

namespace Sys2Proof.Tests

set_option Elab.async false

open Sys2Proof Sys2Proof.Machine

/-! ### Small states -/

/-- The module after reset. -/
def s0 : State := State.reset

/-- The module after reset with one core changed. -/
def coreIs (k : CoreId) (f : Core → Core) : State := s0.updCore k f

/-- Core 3 after reset with its architectural state changed. -/
def arch3 (f : CoreArch → CoreArch) : State := coreIs 3 fun c => { c with arch := f c.arch }

/-- Core 3 about to issue its bundle 5. -/
def issuing3 (f : SeqState → SeqState) : State :=
  arch3 fun a => { a with seq := f { a.seq with pc := 5, phase := .issuing 0 } }

/-- Every die link ACTIVE. -/
def linked (s : State) : State :=
  { s with links := s.links.map fun l => { l with hub := { l.hub with lstate := .active }, die := { l.die with lstate := .active } } }

/-- A module that host software uses: ready, its link up, its BARs assigned. -/
def hosted (f : State → State) : State :=
  f { linked s0 with
    clerk := { s0.clerk with bstage := 12 }
    host := { s0.host with ready := true, linkUp := true, bars := Vector.replicate 3 (some 0) } }

/-- An outcome is a next state that meets a test. -/
def leaves (o : Host.Outcome State Fault Refusal) (p : State → Bool) : Bool :=
  match o with
  | .next t => p t
  | _ => false

/-- A module that host software uses, with the head command c in queue 9 of an engine, in a queue state. -/
def headed (ecls : BitVec 4) (inst : Byte) (st : QState) (c : BitVec 512) : State :=
  hosted fun s => { s with
    queues := [(9, { Queue.disabled with base := 0x10000, en := true, ecls := ecls, inst := inst, log2n := 4, tail := 1,
                                          qstate := st, head := some c })]
    frames := [(0, ⟨false, 0, 0⟩), (63, ⟨false, 0, 2036⟩)] }

/-- A command of an opcode with its operand field (R250). -/
def cmdOf (opc ops : Nat) : BitVec 512 := BitVec.ofNat 512 (opc + ops <<< 192)

/-- Queue 9. -/
def q9 (s : State) : Queue := s.queue 9

/-! ### Witnesses: scalar forms -/

theorem witness_ScalarRegisterForms : s0.canStart 63 := ⟨by decide +kernel, by decide +kernel, by decide +kernel⟩

theorem witness_ScalarImmediateForms : s0.canStart 0 := ⟨by decide +kernel, by decide +kernel, by decide +kernel⟩

theorem witness_ScalarMultiplies : (arch3 fun a => { a with sregs := a.sregs.set 1 0xFFFFFFFFFFFFFFFF }).canStart 3 :=
  ⟨by decide +kernel, by decide +kernel, by decide +kernel⟩

/-- The selectors where the clauses of CoreRegisterForms meet, with a register that names a layout and one that does not. -/
theorem witness_CoreRegisterForms :
    (arch3 fun a => { a with sregs := (a.sregs.set 1 3).set 2 4 }).canStart 3 ∧
      ((arch3 fun a => { a with sregs := (a.sregs.set 1 3).set 2 4 }).sregNow 3 1).toNat % 2 ^ 32 < 4 ∧
      4 ≤ ((arch3 fun a => { a with sregs := (a.sregs.set 1 3).set 2 4 }).sregNow 3 2).toNat % 2 ^ 32 ∧
      (63#9).toNat < 64 ∧ (64 ≤ (127#9).toNat ∧ (127#9).toNat < 128) ∧ (128 ≤ (191#9).toNat ∧ (191#9).toNat < 192) ∧
      192 ≤ (192#9).toNat ∧ 3 ≤ (3#9).toNat ∧ 2 ≤ (2#9).toNat :=
  ⟨⟨by decide +kernel, by decide +kernel, by decide +kernel⟩, by decide +kernel, by decide +kernel, by decide +kernel, by decide +kernel, by decide +kernel, by decide +kernel, by decide +kernel, by decide +kernel⟩

theorem witness_StepIdlePassesOneCycle :
    s0.pending = [] ∧ (∀ k, (s0.core k).atRest) ∧ (∀ k, (s0.core k).watchers = []) ∧
      ({ s0 with clerk := { s0.clerk with modFault := true } } : State).dark = true := by
  refine ⟨rfl, ?_, by decide +kernel, by decide +kernel⟩
  unfold Core.atRest
  decide +kernel

/-! ### Witnesses: bundles and landings -/

/-- A bundle with an operation in every slot. -/
def bundleAll : Bundle :=
  { sc := some (.alu .add 1 2 (.reg 3)), ve := some (.red .sum 5 9 5), mx := some (.mmul ⟨7, 1, 2, 1, 1, false⟩),
    ld := some ⟨.d, 4, 5, 47, 0, -8⟩, st := some ⟨.v, 6, 7, 0, 5, 64⟩, sy := some (.watch 15 63 47 3 9), flow := .next, gap := 63 }

/-- A bundle whose scalar field is a flow word. -/
def bundleFlow : Bundle :=
  { sc := none, ve := none, mx := none, ld := none, st := none, sy := none, flow := .brc 31 false 6 63 8191, gap := 0 }

theorem witness_BundleDecodesItsEncoding : bundleAll.wf 64 = true ∧ bundleFlow.wf 64 = true := by decide +kernel

theorem witness_OnlyListedBundlesDecode :
    Bundle.decode 64 bundleAll.encode = some bundleAll ∧ Bundle.decode 64 bundleFlow.encode = some bundleFlow := by decide +kernel

/-- Core 3 stopped, with one operation in flight that lands in cycle 7. -/
def flying (slot : SlotId) (w : Wr) : State :=
  coreIs 3 fun c => { c with inflight := [⟨slot, 5, 0, 7, .writes [w]⟩] }

theorem witness_LandingWritesOneRegister : ∀ w ∈ [Wr.sreg 31 9, .count 4 2, .ctr 47 true 5, .ctr 0 false 0xFFFF,
      .layout 3, .w1c 0x1FF],
    (flying .scalar w).hasCore 3 = true ∧ (flying .scalar w).dieHeld (dieOf 3) = false ∧
      ({ (flying .scalar w).core 3 with inflight := [] } : Core).atRest ∧ ((flying .scalar w).core 3).watchers = [] ∧
      ((flying .scalar w).core 3).stickyNew = 0 ∧
      ((flying .scalar w).core 3).inflight = [⟨.scalar, 5, 0, 7, .writes [w]⟩] ∧ ((flying .scalar w).core 3).now ≤ 7 := by
  unfold Core.atRest
  decide +kernel

theorem witness_LandingWritesOneRegister_vector : ∃ v : VReg,
    ((flying .vector (.vreg 0 v)).core 3).inflight = [⟨.vector, 5, 0, 7, .writes [.vreg 0 v]⟩] := ⟨VReg.zero, rfl⟩

theorem test_landing_adds_modulo_2_16 :
    leaves (exec (.operationLanding ⟨3, 0, .none⟩) (flying .sync (.ctr 0 false 0xFFFF)))
      (fun t => (t.core 3).arch.ctrs[0] == 0xFFFF && (t.core 3).now == 7) = true := by decide +kernel

/-- After a bad bundle's stop BADBUN stands through a W1C write that lands with it. -/
theorem test_landing_w1c_leaves_badbun :
    leaves (exec (.operationLanding ⟨3, 0, .none⟩) ((flying .scalar (.w1c 0x1FF)).updArch 3 fun a => { a with sticky := 0x1FF, stopCause := 3 }))
      (fun t => (t.core 3).arch.sticky == BADBUN) = true := by decide +kernel

/-- The last bytes of core 3's Basin: a store over the end of a block. -/
theorem witness_LandingStoresItsBytes :
    let addr := 0x800000000000 + 3 * 0x2000000 + 4095
    let s := flying .store (.mem addr [1, 2])
    (s.hasCore 3 = true ∧ s.dieHeld (dieOf 3) = false ∧ ({ s.core 3 with inflight := [] } : Core).atRest ∧
      (s.core 3).watchers = [] ∧ (s.core 3).stickyNew = 0 ∧
      (s.core 3).inflight = [⟨.store, 5, 0, 7, .writes [.mem addr [1, 2]]⟩] ∧ (s.core 3).now ≤ 7) ∧
      Memory.wf s.mem = true ∧ Sparse.sorted s.bibs = true ∧ ([1, 2] : List Byte).length ≤ 1024 ∧ 0x800000000000 ≤ addr ∧
      leaves (exec (.operationLanding ⟨3, 0, .none⟩) s) (fun t => Memory.bytes t.mem (addr - 1) 4 == [0, 1, 2, 0]) = true := by
  unfold Core.atRest
  decide +kernel

/-! ### Witnesses: flow -/

theorem witness_NextAndLoopEnds :
    (∃ u, (issuing3 id).issuesIn 3 u ∧ (u.core 3).far.length ≤ 32 ∧ (u.core 3).atLoopEnd = false ∧ (u.core 3).arch.seq.pc ≠ 8191) ∧
    (∃ u, (issuing3 fun q => { q with pc := 8191 }).issuesIn 3 u ∧ (u.core 3).atLoopEnd = false ∧ (u.core 3).arch.seq.pc = 8191) ∧
    (∃ u, (issuing3 fun q => { q with lstk := [⟨0, 2, 5, 2⟩] }).issuesIn 3 u ∧ (u.core 3).arch.seq.lstk = [⟨0, 2, 5, 2⟩] ∧
      (5 : BIdx) = (u.core 3).arch.seq.pc ∧ 0 = (u.core 3).arch.seq.cstk.length ∧ 1 < (2 : BitVec 32).toNat) ∧
    (∃ u, (issuing3 fun q => { q with lstk := [⟨0, 2, 5, 1⟩] }).issuesIn 3 u ∧ (u.core 3).arch.seq.lstk = [⟨0, 2, 5, 1⟩] ∧
      (5 : BIdx) = (u.core 3).arch.seq.pc ∧ 0 = (u.core 3).arch.seq.cstk.length ∧ (1 : BitVec 32).toNat ≤ 1) := by
  refine ⟨⟨_, ⟨by decide +kernel, by decide +kernel, rfl⟩, ?_⟩, ⟨_, ⟨by decide +kernel, by decide +kernel, rfl⟩, ?_⟩, ⟨_, ⟨by decide +kernel, by decide +kernel, rfl⟩, ?_⟩,
    ⟨_, ⟨by decide +kernel, by decide +kernel, rfl⟩, ?_⟩⟩ <;> decide +kernel

theorem witness_BranchesTransfer :
    ∃ u, (issuing3 fun q => { q with lstk := [⟨0, 2, 7, 3⟩] }).issuesIn 3 u ∧ (u.core 3).far.length ≤ 32 ∧
      (u.core 3).atLoopEnd = false ∧ (u.core 3).arch.seq.pc ≠ 8191 ∧
      ((5 : BitVec 3).toNat < 6 → (0 : BitVec 6) = 0) ∧ ((6 : BitVec 3).toNat < 6 → (63 : BitVec 6) = 0) ∧
      (u.core 3).arch.sregs[(0 : Reg)] = 0 ∧ (a32Val ((u.core 3).arch.sregs[(0 : Reg)].extractLsb' 0 32)).isZero = true :=
  ⟨_, ⟨by decide +kernel, by decide +kernel, rfl⟩, by decide +kernel⟩

/-- An empty loop stack, a loop stack with room and a body behind, a zero count, and call stacks of 7, 1 and the index 8,191. -/
theorem witness_LoopsAndCalls :
    (∃ u, (issuing3 id).issuesIn 3 u ∧ (u.core 3).far.length ≤ 32 ∧ (u.core 3).atLoopEnd = false ∧
      (u.core 3).arch.seq.lstk.length < 4 ∧ (u.core 3).arch.seq.pc.toNat < (6 : BIdx).toNat ∧ (6 : BIdx) ≠ 8191 ∧
      (1 : BitVec 16).zeroExtend 32 ≠ 0#32 ∧ (u.core 3).arch.sregs[(0 : Reg)].extractLsb' 0 32 = 0 ∧
      (∀ e, (u.core 3).arch.seq.lstk.head? = some e → e.depth = 0 → e.last ≠ 6)) ∧
    (∃ u, (issuing3 fun q => { q with cstk := List.replicate 7 9 }).issuesIn 3 u ∧ (u.core 3).arch.seq.cstk.length < 8) ∧
    (∃ u, (issuing3 fun q => { q with cstk := [8191] }).issuesIn 3 u ∧ (u.core 3).arch.seq.cstk = 8191 :: []) := by
  refine ⟨⟨_, ⟨by decide +kernel, by decide +kernel, rfl⟩, by decide +kernel, by decide +kernel, by decide +kernel,
    by decide +kernel, by decide +kernel, by decide +kernel, by decide +kernel, ?_⟩,
    ⟨_, ⟨by decide +kernel, by decide +kernel, rfl⟩, by decide +kernel⟩,
    ⟨_, ⟨by decide +kernel, by decide +kernel, rfl⟩, by decide +kernel⟩⟩
  intro e h
  cases h

/-- Core 3 about to issue bundle 5, its watch slot 15 in a state. -/
def watching (st : Wst) : State :=
  arch3 fun a => { a with watches := a.watches.set 15 { WatchRec.reset with wst := st },
                          seq := { a.seq with pc := 5, phase := .issuing 0 } }

theorem witness_WaitsFencesHalts :
    (∃ u, (watching .armed).issuesIn 3 u ∧ (u.core 3).far.length ≤ 32 ∧ (u.core 3).atLoopEnd = false ∧
      (u.core 3).launch = none ∧ (u.core 3).arch.watches[(15 : Fin 16)].wst = .armed ∧ (u.core 3).arch.seq.pc ≠ 8191) ∧
    (∃ u, (watching .notified).issuesIn 3 u ∧ (u.core 3).arch.watches[(15 : Fin 16)].wst = .notified) :=
  ⟨⟨_, ⟨by decide +kernel, by decide +kernel, rfl⟩, by decide +kernel⟩,
    ⟨_, ⟨by decide +kernel, by decide +kernel, rfl⟩, by decide +kernel⟩⟩

theorem witness_BadFlowsStop :
    (∃ u, (issuing3 fun q => { q with lstk := List.replicate 4 ⟨0, 2, 5, 2⟩, cstk := List.replicate 8 9 }).issuesIn 3 u ∧
      (u.core 3).arch.seq.lstk.length = 4 ∧ (u.core 3).arch.seq.cstk.length = 8) ∧
    (∃ u, (issuing3 id).issuesIn 3 u ∧ (u.core 3).arch.seq.lstk.length < 4 ∧ (5 : BIdx).toNat ≤ (u.core 3).arch.seq.pc.toNat ∧
      (u.core 3).arch.seq.cstk = [] ∧ (u.core 3).arch.watches[(0 : Fin 16)].wst = .empty ∧ (u.core 3).far.length ≤ 32 ∧
      (u.core 3).atLoopEnd = false) ∧
    (∃ u, (issuing3 fun q => { q with lstk := [⟨1, 2, 5, 2⟩], cstk := [9] }).issuesIn 3 u ∧ (u.core 3).atLoopEnd = true ∧
      (u.core 3).arch.seq.cstk.length < 8 ∧ (u.core 3).arch.seq.cstk ≠ []) :=
  ⟨⟨_, ⟨by decide +kernel, by decide +kernel, rfl⟩, by decide +kernel⟩,
    ⟨_, ⟨by decide +kernel, by decide +kernel, rfl⟩, by decide +kernel⟩,
    ⟨_, ⟨by decide +kernel, by decide +kernel, rfl⟩, by decide +kernel⟩⟩

/-- Core 3 about to issue bundle 5, which its instruction store holds. -/
def storing (b : Bundle) : State :=
  (issuing3 id).wr (istoreBase 3 + 64 * 5) (natLe 64 b.encode.toNat)

/-- Bundle 5: an addition and no more. -/
def bundleAdd : Bundle :=
  { sc := some (.alu .add 1 2 (.reg 3)), ve := none, mx := none, ld := none, st := none, sy := none, flow := .next, gap := 63 }

theorem witness_BundleIssues :
    (∃ u, (storing bundleAdd).issuesIn 3 u ∧ (u.core 3).far.length ≤ 32 ∧ (u.core 3).atLoopEnd = false ∧
      Bundle.decode u.coreCount (BitVec.ofNat 512 (leNat (Memory.bytes u.mem (istoreBase 3 + 64 * 5) 64))) = some bundleAdd ∧
      (u.core 3).arch.seq.pc = 5 ∧ (u.core 3).flowBad bundleAdd.flow = none) ∧
    (∃ u, (issuing3 id).issuesIn 3 u ∧
      Bundle.decode u.coreCount (BitVec.ofNat 512 (leNat (Memory.bytes u.mem (istoreBase 3 + 64 * 5) 64))) =
        some ⟨none, none, none, none, none, none, .next, 0⟩) ∧
    (∃ u, ((issuing3 id).wr (istoreBase 3 + 64 * 5) [0, 0x80, 0, 0, 0, 0, 0, 0, 0, 0xFF]).issuesIn 3 u ∧
      Bundle.decode u.coreCount (BitVec.ofNat 512 (leNat (Memory.bytes u.mem (istoreBase 3 + 64 * 5) 64))) = none) :=
  ⟨⟨_, ⟨by decide +kernel, by decide +kernel, rfl⟩, by decide +kernel⟩,
    ⟨_, ⟨by decide +kernel, by decide +kernel, rfl⟩, by decide +kernel⟩,
    ⟨_, ⟨by decide +kernel, by decide +kernel, rfl⟩, by decide +kernel⟩⟩

/-- A bundle with two far accesses, on a core with 31 outstanding. -/
theorem witness_BundleIssues_held :
    let far : FarAcc := ⟨false, .d, 1, 0, 8, 0, [], [], [], none, 0, 0⟩
    let s := (storing ⟨none, none, none, some ⟨.d, 1, 2, 0, 0, 0⟩, some ⟨.d, 1, 2, 0, 0, 0⟩, none, .next, 0⟩).updCore 3 fun c =>
      { c with far := List.replicate 31 far }
    ∃ u, ({ s with frames := [(0, ⟨false, 0, 0⟩)] } : State).issuesIn 3 u ∧
      32 < (u.core 3).far.length + u.farCount 3 (some ⟨.d, 1, 2, 0, 0, 0⟩) (some ⟨.d, 1, 2, 0, 0, 0⟩) ∧
      (u.core 3).flowBad .next = none :=
  ⟨_, ⟨by decide +kernel, by decide +kernel, rfl⟩, by decide +kernel⟩

/-- Core 3 in the gap cycles of bundle `pc`, with a loop stack. -/
def gapAt (pc : BIdx) (l : List LoopEntry) : State :=
  arch3 fun a => { a with seq := { a.seq with pc := pc, phase := .gap 9, lstk := l } }

/-- In the middle of the store, at its end, and at the end of a loop with two iterations left and with one. -/
theorem witness_GapCyclesPass : ∀ s ∈ [gapAt 5 [], gapAt 8191 [], gapAt 5 [⟨0, 2, 5, 2⟩], gapAt 5 [⟨0, 2, 5, 1⟩, ⟨0, 1, 6, 3⟩]],
    s.hasCore 3 = true ∧ s.dieHeld (dieOf 3) = false ∧ ((s.core 3).setPhase .stopped).atRest ∧ (s.core 3).watchers = [] ∧
      (s.core 3).stickyNew = 0 ∧ (s.core 3).launch = none ∧ (s.core 3).arch.seq.phase = .gap 9 ∧ (s.core 3).now ≤ 9 := by
  unfold Core.atRest
  decide +kernel

theorem witness_GapCyclesPass_loops :
    ((gapAt 5 []).core 3).atLoopEnd = false ∧ ((gapAt 8191 []).core 3).atLoopEnd = false ∧
      (0 = ((gapAt 5 [⟨0, 2, 5, 2⟩]).core 3).arch.seq.cstk.length ∧ 1 < (2 : BitVec 32).toNat ∧ (1 : BitVec 32).toNat ≤ 1) := by
  decide +kernel

/-- The loop-end test comes after the gap cycles (R151). -/
theorem test_gap_then_loop_end :
    leaves (exec (.gapExpiry 3) (gapAt 5 [⟨0, 2, 5, 2⟩]))
      (fun t => (t.core 3).arch.seq.pc == 2 && (t.core 3).arch.seq.lstk == [⟨0, 2, 5, 1⟩]) = true := by decide +kernel

theorem test_gap_past_8191_stops :
    leaves (exec (.gapExpiry 3) (gapAt 8191 []))
      (fun t => (t.core 3).arch.stopCause == 0x04 && (t.core 3).arch.seq.cyc == 9 && (t.core 3).arch.seq.pc == 8191) = true := by
  decide +kernel

/-- A launch that stops after 4 bundles, in LAND and in EDGE mode; the operation issued after the last wait cycle is discarded. -/
theorem witness_PrefixStops : ∀ edge ∈ [false, true],
    let s := (issuing3 fun q => { q with issued := 4 }).updCore 3 fun c =>
      { c with launch := some ⟨9, 4, edge, 0, none, 0⟩, inflight := [⟨.load, 4, 0, 6, .writes [.sreg 1 1]⟩] }
    (s.hasCore 3 = true ∧ s.dieHeld (dieOf 3) = false ∧ ((s.settle 3).core 3).held = false ∧
      ((s.settle 3).core 3).arch.seq.phase ≠ .stopped ∧ ((s.settle 3).core 3).launch = some ⟨9, 4, edge, 0, none, 0⟩ ∧
      (4 : BitVec 48) ≠ 0 ∧ (4 : BitVec 48) = ((s.settle 3).core 3).arch.seq.issued ∧ ((s.settle 3).core 3).mxq = [] ∧
      ((s.settle 3).core 3).relay.waits = none) ∧
      leaves (exec (.prefixStop 3) s) (fun t => (t.core 3).arch.stopCause == 0x02 &&
        (t.core 3).dump == if edge then [1, 0x0000000600030004] else [0]) = true := by
  decide +kernel

/-! ### Witnesses: vector slot -/

/-- Core 3 with its scalar registers 1 and 2 set. -/
def regs3 (a b : Word) : State := arch3 fun x => { x with sregs := (x.sregs.set 1 a).set 2 b }

/-- The base of core 3's Basin. -/
def basin3 : Word := 0x800006000000

/-- The last row of the Basin is local, and a register always is. -/
theorem witness_LaneArithmetic :
    (regs3 (basin3 + 0x1800000) 0).canStart 3 ∧ (regs3 (basin3 + 0x1800000) 0).srcLocal 3 (.row 1 (-1024)) ∧
      s0.canStart 3 ∧ s0.srcLocal 3 (.reg 0) := by
  unfold State.canStart State.srcLocal State.localNow
  decide +kernel

theorem witness_LaneCompareSelectAndBits :
    (regs3 0x900001800000 0).canStart 3 ∧ (regs3 0x900001800000 0).srcLocal 3 (.row 1 0) ∧ (5 : BitVec 3).toNat < 6 ∧
      6 ≤ (6 : BitVec 3).toNat ∧
      (∃ o, VecOp.decode (laneField 0x0A 1 2 0 5 5 (.reg 3)) = some o ∧
        (laneField 0x0A 1 2 0 5 5 (.reg 3)).extractLsb' 38 3 ≠ 0) := by
  refine ⟨?_, ?_, by decide, by decide, .cmp 5 5 1 2 (.reg 3), by decide +kernel, by decide +kernel⟩
  · unfold State.canStart; decide +kernel
  · unfold State.srcLocal State.localNow; decide +kernel

theorem witness_LaneUnaryAndMoves : s0.canStart 15 ∧ ((3 : BitVec 4) = 3 ∨ (3 : BitVec 4) = 5) := by
  unfold State.canStart
  decide +kernel

/-- The lanes of the example of R183. -/
def sumExample : VReg :=
  (((VReg.zero.set 0 0x4B800000).set 1 0x3F800000).set 2 0x3F800000).set 3 0xCB800000

/-- The example of R183: the sum in lane order is 0. -/
theorem test_vrsum_example_R183 :
    leaves (exec (.vrsum 3 5 9 5) (arch3 fun x => { x with vregs := x.vregs.set 5 sumExample })) (fun t =>
      (t.core 3).inflight.map (fun o => (o.land, o.body)) == [(12, .writes [.sreg 9 0])]) = true := by decide +kernel

/-- The field of the example of R183, and reserved and unlisted formats. -/
theorem test_vector_word_vrsum : VecOp.decode 0x200140054800000000000000 = some (.red .sum 5 9 5) := by decide +kernel

/-- Lanes of NaN but for the first, which holds 1. -/
def oneLane : VReg := (Vector.replicate 256 0x7FC00000).set 0 0x3F800000

theorem witness_Reductions :
    s0.canStart 3 ∧ (extreme FVal.ltZ (elemsOf 5 oneLane)).isSome = true ∧
      (extreme (fun p q => q.ltZ p) (elemsOf 5 oneLane)).isSome = true ∧ (blockMag (elemsOf 5 oneLane)).isSome = true ∧
      (∀ x ∈ elemsOf 5 (Vector.replicate 256 0x7FC00000), x.isNan = true) ∧
      blockMag (elemsOf 5 (Vector.replicate 256 0x7FC00000)) = none ∧
      VecOp.decode 0x200140054800000000000000 = some (.red .sum 5 9 5) := by
  unfold State.canStart
  decide +kernel

theorem witness_Reductions_integers :
    (0 : Lane) ∈ VReg.zero.toList ∧ (∀ y ∈ VReg.zero.toList, y.toInt ≤ (0 : Lane).toInt) ∧
      ∀ y ∈ VReg.zero.toList, (0 : Lane).toInt ≤ y.toInt := by
  refine ⟨by decide +kernel, fun y hy => ?_, fun y hy => ?_⟩ <;>
    · have h : y = 0 := List.eq_of_mem_replicate (by rw [VReg.zero, Vector.toList_replicate] at hy; exact hy)
      subst h
      exact Int.le_refl _

/-- A record of R46: coarse scale 1, format 0, with or without a plane. -/
def scale1 (plane : Bool) : Word := if plane then 0x3F80000000000100 else 0x3F80000000000000

theorem witness_Conversions : ∀ plane ∈ [false, true],
    let s := regs3 (scale1 plane) (basin3 + 0x1800000 - 256)
    let r := FmtScale.ofWord (s.sregNow 3 1)
    s.canStart 3 ∧ r.okScaled = true ∧ (r.finePlane = true →
      s.localNow 3 (planeAddr (s.sregNow 3 2) (planeLen r.blockAxis 256)) (planeLen r.blockAxis 256)) ∧
      (r.finePlane = plane) ∧ (fmtOf r.fmt).isSome = true ∧ r.blockAxis = 0 ∧
      s.localNow 3 (alignDown (slotAddr (s.sregNow 3 2) (0 : BitVec 24)) 64) (packedBytes r.fmt) := by
  unfold State.canStart State.localNow
  decide +kernel

theorem witness_Conversions_auto :
    let s := regs3 0x3F80000000000100 basin3
    let r := FmtScale.ofWord (s.sregNow 3 1)
    s.canStart 3 ∧ r.okAuto = true ∧ r.okFexp = true ∧ s.localNow 3 (planeAddr (s.sregNow 3 2) 8) 8 ∧
      (FmtScale.ofWord 0).okScaled = false ∧ (FmtScale.ofWord 0).okFexp = false ∧
      (FmtScale.ofWord 0x100).okScaled = false ∧ (FmtScale.ofWord 0x100).finePlane = true := by
  unfold State.canStart State.localNow
  decide +kernel

theorem witness_TileRowOutput :
    s0.canStart 3 ∧ ((FmtScale.ofWord 0x3F80000000000005).rsvZero = true ∧ (FmtScale.ofWord 0x3F80000000000005).fmt = 5) ∧
      ((FmtScale.ofWord 0x3F80000000000004).rsvZero = true ∧ (FmtScale.ofWord 0x3F80000000000004).fmt = 4) ∧
      (FmtScale.ofWord (scale1 false)).okScaled = true ∧ (FmtScale.ofWord (scale1 false)).finePlane = false ∧
      (fmtOf 0).isSome = true := by
  unfold State.canStart
  decide +kernel

theorem witness_PacerAndTailwater : s0.canStart 3 ∧ ((30 : Reg).val % 2 = 0) := by
  unfold State.canStart
  decide +kernel

theorem witness_VectorOperandErrors :
    s0.canStart 3 ∧ 8 ≤ (8 : BitVec 4).toNat ∧ ((0 : BitVec 4).toNat < 8 ∧ (0 : BitVec 4) ≠ 3 ∧ (0 : BitVec 4) ≠ 5 ∧ (0 : BitVec 4) ≠ 7) ∧
      ((s0.settle 3).reach 3 (rowAddr (s0.sregNow 3 0) 0) 1024).isLocal = false := by
  unfold State.canStart
  decide +kernel

/-! ### Witnesses: matrix slot and array -/

/-- A descriptor of a 1 x 1 x 1 product of format-0 operands at Basin offsets 64 and 128, with a chain mask (R63, R64). -/
def descNat (mask n : Nat) : Nat :=
  1 + 1 <<< 17 + n <<< 26 + mask <<< 64 + (64 + 64 <<< 32 + 0x3F80000000000000 <<< 128) <<< 128 +
    (128 + 64 <<< 32 + 0x3F80000000000000 <<< 128) <<< 320

/-- The same with core 3 holding the descriptor at its Basin's offset 0. -/
def matrix3 (mask n : Nat) : State := s0.wr (basinBase 3) (natLe 64 (descNat mask n))

/-- A matrix operation on tile 2 under ZERO. -/
def mxZero : MxArgs := ⟨0, 0, 2, 0, 1, false⟩

theorem witness_MatrixOperationsAccepted :
    (matrix3 0 1).canStart 3 ∧ (((matrix3 0 1).settle 3).judgeMatrix 3 false mxZero 0).bits = 0 ∧
      (((matrix3 0 1).settle 3).core 3).descOff 0 0 = 0 ∧ mxZero.start ≠ 0 ∧ mxZero.arm = false ∧
      (((matrix3 0 1).settle 3).judgeMatrix 3 false { mxZero with df := 3 } 0).bits ≠ 0 ∧
      (((matrix3 8 1).settle 3).judgeMatrix 3 true mxZero 0).bits = 0 ∧
      (chainCores (((matrix3 8 1).settle 3).judgeMatrix 3 true mxZero 0).desc.relayMask).length = 1 ∧
      (((matrix3 8 1).settle 3).judgeMatrix 3 true { mxZero with start := 3 } 0).bits ≠ 0 := by
  unfold State.canStart
  decide +kernel

/-- Block cycle 132, one pass of 128 cycles, landing in cycle B + O - 1 + 52 (R69, R70). -/
theorem test_mmul_schedule :
    leaves (exec (.mmul 3 mxZero) (matrix3 0 1)) (fun t =>
      (t.core 3).mxq.map (fun o => (o.b, o.o, o.p, o.land)) == [(132, 128, 1, 311)] &&
        ((t.core 3).arch.tiles[2]).scaled) = true := by decide +kernel
/-- An operation that is not yet in its array's first cycle. -/
def op3Held : MxOp :=
  { id := 0, bidx := 5, c := 0, b := 132, o := 128, r := 1, p := 1, df := 0, start := 1, arm := false, packed := false,
    relay := false, rows := 1, strm := [], parts := [], teo := [], replays := 0, chkrep := false, begun := false }

/-- Core 3 leads a chain of cores 3 and 4 over 257 columns, and core 4 is lent to it or not. -/
def chain34 (lent : Bool) : State :=
  let s := s0.updCore 3 fun c => { c with relay := .lead mxZero (natLe 64 (descNat 24 257)) 5 }
  if lent then s.updCore 4 fun c => { c with relay := .member 3 7 (natLe 64 (descNat 0 1)) 9 } else s

theorem witness_RelayChains :
    (matrix3 24 257).canStart 3 ∧ (((matrix3 24 257).settle 3).judgeMatrix 3 true mxZero 0).bits = 0 ∧
      ((matrix3 24 257).core 3).mxq = [] ∧ 1 < (chainCores (((matrix3 24 257).settle 3).judgeMatrix 3 true mxZero 0).desc.relayMask).length ∧
      (s0.canStart 3 ∧ (4 : Fin 16).val ≠ (3 : CoreId).val % 16 ∧
        (((s0.sregNow 3 0).extractLsb' 0 32).toNat + 64 * (393215 : BitVec 19).toNat) % 64 = 0 ∧
        ((s0.sregNow 3 0).extractLsb' 0 32).toNat + 64 * (393215 : BitVec 19).toNat + 64 ≤ 0x1800000 ∧
        ((s0.settle 3).core 3).places < 4 ∧ (0 : BitVec 6).toNat < usableTiles ((s0.settle 3).core 3).arch.layout) := by
  unfold State.canStart
  decide +kernel

/-- A MRELAY behind an operation of its own array, and one that is rejected at the end of its wait. -/
theorem witness_RelayChains_waits :
    (let s := (matrix3 24 257).updCore 3 fun c => { c with mxq := [op3Held] };
      s.canStart 3 ∧ ((s.settle 3).core 3).mxq ≠ [] ∧
        (chainCores ((s.settle 3).judgeMatrix 3 true mxZero 0).desc.relayMask).length ≠ 1) ∧
    (((matrix3 24 257).settle 3).judgeMatrix 3 true { mxZero with df := 3 } 0).bits ≠ 0 ∧
    (chainCores (((matrix3 24 257).settle 3).judgeMatrix 3 true { mxZero with df := 3 } 0).desc.relayMask).length ≠ 1 := by
  unfold State.canStart
  decide +kernel

theorem witness_RelayChains_lent :
    let v := chain34 true
    v.hasCore 3 = true ∧ v.dieHeld (dieOf 3) = false ∧ (v.core 3).relay = .lead mxZero (natLe 64 (descNat 24 257)) 5 ∧
      (v.core 3).mxq = [] ∧ chainMembers 3 (readDesc 3 (leNat (natLe 64 (descNat 24 257)))).relayMask = [4] ∧
      (v.core 4).lentTo 3 = some (7, natLe 64 (descNat 0 1)) ∧ tileWidth (v.core 3).arch.layout = 256 ∧
      (v.memberPart mxZero (readDesc 3 (leNat (natLe 64 (descNat 24 257)))) 1 4 7 (natLe 64 (descNat 0 1))).2 = 0 ∧
      leaves (exec (.relayChainLent 3) v) (fun t => (t.core 4).relay == .running 3 && (t.core 3).mxq.length == 1) = true := by
  decide +kernel

theorem witness_RelayChains_timeout :
    let v := chain34 false
    (v.core 3).mxq = [] ∧
      (v.lentMembers 3 (readDesc 3 (leNat (natLe 64 (descNat 24 257)))).relayMask).length <
        (chainMembers 3 (readDesc 3 (leNat (natLe 64 (descNat 24 257)))).relayMask).length ∧
      leaves (exec (.relayLendTimeout 3) v) (fun t => (t.core 3).relay == .none && (t.core 3).stickyNew == BADMX) = true := by
  decide +kernel

/-- The part of the operation of `matrix3`, and the operation as accepted in cycle 0. -/
def part3 : MxPart :=
  ⟨3, 2, 0, 0, [⟨0, 128, 0, 1, 1, (readDesc 3 (descNat 0 1)).x, (readDesc 3 (descNat 0 1)).w⟩], [], [], [], [], false⟩

def op3 : MxOp :=
  { id := 0, bidx := 5, c := 0, b := 132, o := 128, r := 1, p := 1, df := 0, start := 1, arm := false, packed := false,
    relay := false, rows := 1, strm := [], parts := [part3], teo := [], replays := 0, chkrep := false,
    begun := false }

/-- Core 3 stopped in a cycle with an operation in its array. -/
def array3 (o : MxOp) (now stage : Nat) : State :=
  coreIs 3 fun c => { c with now := now, stage := stage, mxq := [o], lastBO := 260 }

theorem witness_ArrayCycles_begin :
    let s := array3 op3 132 0
    s.hasCore 3 = true ∧ s.dieHeld (dieOf 3) = false ∧ (s.core 3).arrayOnly 3 op3 part3 0 ∧ op3.begun = false ∧
      (s.core 3).now = op3.b ∧ (s.core 3).now + 52 ≤ op3.land := by
  unfold Core.arrayOnly
  decide +kernel

/-- The operation after its begin, its rows read: the product 1.5 x 2 in tile row 0. -/
def op3Begun : MxOp :=
  { op3 with begun := true, teo := [0], strm := [(0, [some (.fin false 3 (-1))])],
             parts := [{ part3 with held := [(0, [some (.fin false 2 0)])] }] }

theorem witness_ArrayCycles_write :
    let q : MxPart := { part3 with held := [(0, [some (.fin false 2 0)])] }
    let s := array3 op3Begun 184 0
    (s.core 3).arrayOnly 3 op3Begun q 0 ∧ op3Begun.begun = true ∧ op3Begun.writeAt q (s.core 3).now = some (0, 0) ∧
      (s.core 3).now ≤ op3Begun.land ∧ Sparse.find q.done (rowKey 0 0) = none ∧ Memory.wf s.mem = true ∧
      (q.subs.map fun b => decide (b.col0 + b.ext ≤ tileWidth q.layout)) = [true] ∧
      leaves (exec (.matrixRowWrite 3 none) s) (fun t =>
        Memory.bytes t.mem (tileAddr 3 0 2 0 0) 8 == [0, 0, 0x40, 0x40, 0, 0, 0, 0]) = true := by
  unfold Core.arrayOnly
  decide +kernel

theorem witness_ArrayCycles_read :
    let s := array3 { op3 with start := 0 } 128 2
    (s.core 3).arrayOnly 3 { op3 with start := 0 } part3 2 ∧ ({ op3 with start := 0 } : MxOp).entryAt part3 (s.core 3).now = some (0, 0) ∧
      (s.core 3).now < ({ op3 with start := 0 } : MxOp).land ∧ op3.arm = false := by
  unfold Core.arrayOnly
  decide +kernel

/-- The operation in its detection cycle, with an element that has overflowed or none, armed or not. -/
def op3Done (big arm : Bool) : MxOp :=
  { op3 with begun := true, teo := [0], arm := arm
             parts := [{ part3 with done := [(0, [some (if big then .ovf false else .code 0)])] }] }

theorem witness_ArrayCycles_detect : ∀ big ∈ [false, true], ∀ arm ∈ [false, true],
    let o := op3Done big arm
    let q : MxPart := { part3 with done := [(0, [some (if big then .ovf false else .code 0)])] }
    let s := array3 o 311 1
    (s.core 3).arrayOnly 3 o q 1 ∧ o.df ≠ 1 ∧ o.detectAt (s.core 3).now = some 0 ∧ (s.core 3).now ≤ o.land ∧
      o.overflowed 0 = big ∧ o.canReplay = arm := by
  unfold Core.arrayOnly
  decide +kernel

theorem witness_ArrayLandingsAndHolds :
    let s := array3 (op3Done false false) 311 2
    s.hasCore 3 = true ∧ s.dieHeld (dieOf 3) = false ∧
      (s.core 3).arrayOnly 3 (op3Done false false) { part3 with done := [(0, [some (.code 0)])] } 2 ∧
      (s.core 3).now = (op3Done false false).land ∧ (op3Done false false).relay = false ∧
      leastOf ((s.core 3).mxq.map fun o => max o.land (s.core 3).now) = some 311 ∧ (s.runTo 3 311).core 3 = s.core 3 ∧
      ((s.runTo 3 311).core 3).held = false ∧ (((s.runTo 3 311).settle 3).core 3).hold = none := by
  unfold Core.arrayOnly
  decide +kernel

/-- The operation after a rerun of its only pass. -/
def op3Rerun : MxOp :=
  { op3Begun with parts := [{ part3 with held := [(0, [some (.fin false 2 0)])], done := [(0, [some (.code 0x40400000)])] }] }

/-- Core 3 in a hold, of an overflow replay or of the check replay of pass 0. -/
def holding3 (check ovf : Bool) : State :=
  coreIs 3 fun c => { c with
    now := 311
    hold := some ⟨check, 584, [op3Rerun], [(tileAddr 3 0 2 0 0, [0, 0, 0x40, 0x40])], if ovf then [(3, 2, 224)] else [], 0, 0, 0, 0, 0, if ovf then 1 else 0, none⟩ }

/-- A rerun whose row 0 shows 5 where its check lanes say 3, and one that shows 3. -/
def wrongRow : FaultyRow := ⟨0, 0, [0x40A00000]⟩
def rightRow : FaultyRow := ⟨0, 0, [0x40400000]⟩

theorem witness_ArrayLandingsAndHolds_rerun :
    op3Rerun.rerunMismatch 0 wrongRow = true ∧ op3Rerun.rerunMismatch 0 rightRow = false ∧
      [op3Rerun].find? (fun o => o.id == 0) = some op3Rerun ∧ ([] : List MxOp).find? (fun o => o.id == 0) = none ∧
      ((holding3 true false).core 3).hold.isSome = true ∧ ((holding3 false true).core 3).hold.isSome = true ∧
      ((holding3 true false).hasCore 3 = true ∧ (holding3 true false).dieHeld (dieOf 3) = false) := by
  decide +kernel

theorem test_check_replay_fails_again :
    leaves (exec (.replayHoldEnd 3 (some (0, wrongRow))) (holding3 true false)) (fun t =>
      (t.core 3).hold.isNone && (t.core 3).mxq.isEmpty && (t.core 3).stickyNew == CFAULT && (t.core 3).arch.stopCause == 5 &&
        Memory.bytes t.mem (tileAddr 3 0 2 0 0) 4 == [0, 0, 0, 0]) = true := by decide +kernel

theorem test_overflow_rerun_is_checked :
    leaves (exec (.replayHoldEnd 3 (some (0, wrongRow))) (holding3 false true)) (fun t =>
      ((t.core 3).hold.map fun h => (h.check, h.left)) == some (true, 320)) = true ∧
    leaves (exec (.replayHoldEnd 3 (some (0, rightRow))) (holding3 false true)) (fun t =>
      (t.core 3).hold.isNone && Memory.bytes t.mem (tileAddr 3 0 2 0 0) 4 == [0, 0, 0x40, 0x40]) = true := by decide +kernel

/-- A MRELAY that waits for its array is the matrix operation of its bundle (R163). -/
theorem witness_PrefixStops_waiting :
    let s := (issuing3 fun q => { q with issued := 4 }).updCore 3 fun c =>
      { c with launch := some ⟨9, 4, true, 1, none, 0⟩, relay := .waiting ⟨0, 0, 2, 0, 1, false⟩ 0 3, mxq := [op3] }
    ((s.settle 3).core 3).relay.waits = some 3 ∧ (((s.settle 3).core 3).mxq.all fun o => decide (o.c < 1)) = true ∧
      ((s.settle 3).core 3).held = false ∧
      leaves (exec (.prefixStop 3) s) (fun t => (t.core 3).relay == .none && (t.core 3).dump.length == 2) = true := by
  decide +kernel

/-! ### Witnesses: loads, stores and far accesses -/

/-- The last bytes of core 3's own Basin for each size, and its Cistern for the vector forms. -/
theorem witness_LocalLoads :
    let s := regs3 (basin3 + 0x1800000) 0x900001800000
    s.canStart 3 ∧ (47 : BitVec 6).toNat < 48 ∧
      (∀ n ∈ [1, 2, 4, 8], ((s.settle 3).reach 3 ((slotAddr (s.sregNow 3 1) (-8 : BitVec 40)) -
        (slotAddr (s.sregNow 3 1) (-8 : BitVec 40)) % n) n) = .basin) ∧
      (5 : BitVec 3).toNat ≤ 5 ∧
      ((s.settle 3).reach 3 (slotAddr (s.sregNow 3 1) (-1024 : BitVec 40)) 1024) = .basin ∧
      ((s.settle 3).reach 3 (slotAddr (s.sregNow 3 2) (0 : BitVec 40)) 1024) = .cistern ∧
      ((s.settle 3).reach 3 (slotAddr (s.sregNow 3 2) (0 : BitVec 40)) 768) = .cistern := by
  unfold State.canStart
  decide +kernel

theorem witness_LocalStores :
    let s := regs3 (basin3 + 0x1800000) 0x900001800000
    s.canStart 3 ∧ ((s.settle 3).reach 3 (slotAddr (s.sregNow 3 1) (-8 : BitVec 40)) 8).isLocal = true ∧
      ((s.settle 3).reach 3 (slotAddr (s.sregNow 3 2) (0 : BitVec 40)) 1024).isLocal = true := by
  unfold State.canStart
  decide +kernel

/-- A far load of core 3, outstanding `n` times, from core 4's Basin. -/
def farLoad : FarAcc := ⟨false, .d, 1, 0x800008000000, 8, 47, [], [], [], none, 5, 0⟩

def far3 (n : Nat) (f : FarAcc) : State :=
  (regs3 0x800008000000 (basin3 + 0x1800000)).updCore 3 fun c => { c with far := List.replicate n f }

/-- Places for 31 and 32 outstanding accesses, a far address, the first address past the Basin, and the core's own Cistern. -/
theorem witness_FarAndUnmappedAccesses :
    ((far3 31 farLoad).canStart 3 ∧ (((far3 31 farLoad).settle 3).core 3).far.length < 32 ∧
      (((far3 31 farLoad).settle 3).core 3).farWait = []) ∧
      (32 ≤ (((far3 32 farLoad).settle 3).core 3).far.length) ∧
      ((far3 31 farLoad).settle 3).reach 3 (slotAddr ((far3 31 farLoad).sregNow 3 1) (0 : BitVec 40)) 8 = .far ∧
      ((far3 31 farLoad).settle 3).reach 3 (slotAddr ((far3 31 farLoad).sregNow 3 2) (0 : BitVec 40)) 8 = .unmapped ∧
      ((regs3 0x900001800000 0).settle 3).reach 3 (slotAddr ((regs3 0x900001800000 0).sregNow 3 1) (0 : BitVec 40)) 8 = .cistern ∧
      (47 : BitVec 6).toNat < 48 ∧ 48 ≤ (48 : BitVec 6).toNat := by
  unfold State.canStart
  decide +kernel

/-- A load whose block has been read, a load that goes on into the next block, and a store of 8 bytes at the end of a block. -/
def farServed : FarAcc := { farLoad with served := [⟨0x800008000, 1, [1, 2, 3, 4, 5, 6, 7, 8], false, false⟩] }
def farAcross : FarAcc := { farServed with addr := 0x800008000FFC }
def farStored : FarAcc :=
  { farServed with store := true, addr := 0x800008000FF8, data := [1, 2, 3, 4, 5, 6, 7, 8] }

/-- The module of `far3` as the far accesses of its core 3 find it in the current cycle. -/
def farNow (f : FarAcc) : State := (far3 1 f).settle 3

theorem witness_FarAccessesComplete_service :
    let s := far3 1 farLoad
    s.hasCore 3 = true ∧ s.dieHeld (dieOf 3) = false ∧ ((farNow farLoad).core 3).far[0]? = some farLoad ∧ farLoad.ctr.toNat < 48 ∧
      (farNow farLoad).dieReaches (dieOf 3) 0x800008000000 = true ∧ farLoad.lost = none ∧ farLoad.served = [] ∧ farLoad.store = false ∧
      (0 < farLoad.size ∧ farLoad.addr + farLoad.size ≤ 4096 * (farLoad.addr / 4096 + 1)) ∧
      (farNow farLoad).farCheck (farLoad.addr / 4096) = true ∧
      (farNow farLoad).place (4096 * (farLoad.addr / 4096)) = .basin 4 0 := by
  decide +kernel

theorem witness_FarAccessesComplete_load :
    ((farNow farServed).core 3).far[0]? = some farServed ∧
      farServed.served = [⟨farServed.addr / 4096, 1, [1, 2, 3, 4, 5, 6, 7, 8], false, false⟩] ∧ farServed.store = false ∧
      farServed.f.isVec = false ∧ ((farNow farServed).core 3).landed = [] ∧ ((farNow farServed).core 3).landedLoads = [] ∧
      leaves (exec (.farAccessComplete 3 ⟨0, 0⟩ ⟨false, false, .none⟩) (far3 1 farServed)) (fun t =>
        (t.core 3).arch.sregs[1] == 0x0807060504030201 && (t.core 3).arch.ctrs[47] == 1) = true := by
  decide +kernel

theorem witness_FarAccessesComplete_across :
    ((farNow farAcross).core 3).far[0]? = some farAcross ∧
      4096 * (farAcross.addr / 4096 + 1) < farAcross.addr + farAcross.size ∧ farAcross.size ≤ 4096 ∧
      leaves (exec (.farAccessComplete 3 ⟨0, 0⟩ ⟨false, false, .none⟩) (far3 1 farAcross)) (fun t =>
        (t.core 3).far.map (fun f => f.served.map FarBlk.fin) == [[true]] && (t.core 3).arch.ctrs[47] == 0) = true := by
  decide +kernel

theorem witness_FarAccessesComplete_store :
    let u := farNow farStored
    let w := u.settle 4
    (u.core 3).far[0]? = some farStored ∧ u.place farStored.addr = .basin 4 0xFF8 ∧ farStored.data.length = farStored.size ∧
      (0 < farStored.size ∧ farStored.addr + farStored.size ≤ 4096 * (farStored.addr / 4096 + 1)) ∧
      u.farCheck (farStored.addr / 4096) = true ∧ (w.readBlock (4096 * (farStored.addr / 4096))).2 = none ∧
      w.place farStored.addr = .basin 4 0xFF8 ∧ (w.core 4).landed = [] ∧ (w.core 4).images = [] ∧ Memory.wf w.mem = true ∧
      leaves (exec (.farAccessComplete 3 ⟨0, 0⟩ ⟨false, false, .none⟩) (far3 1 farStored)) (fun t =>
        Memory.bytes t.mem 0x800008000FF7 10 == [0, 1, 2, 3, 4, 5, 6, 7, 8, 0] && (t.core 3).arch.ctrs[47] == 1) = true := by
  decide +kernel

/-- A block that fails its check the first time, and the second time. -/
theorem witness_FarAccessesComplete_fails :
    farServed.addr / 4096 ∉ farServed.retried ∧
      leaves (exec (.farAccessComplete 3 ⟨0, 0⟩ ⟨true, false, .none⟩) (far3 1 farServed)) (fun t =>
        (t.core 3).far == [{ farLoad with retried := [0x800008000] }]) = true ∧
      farServed.addr / 4096 ∈ ({ farServed with retried := [0x800008000] } : FarAcc).retried ∧
      leaves (exec (.farAccessComplete 3 ⟨0, 0⟩ ⟨true, false, .none⟩) (far3 1 { farServed with retried := [0x800008000] })) (fun t =>
        (t.core 3).far == [] && (t.core 3).arch.stopCause == 5 && (t.core 3).arch.ctrs[47] == 0) = true := by
  decide +kernel

/-! ### Witnesses: synchronisation -/

/-- The last die's last core, the last counter and context, the last condition and scope. -/
theorem witness_SyncOperationsStart :
    s0.canStart 3 ∧ (47 : BitVec 6).toNat < 48 ∧ (63 : CoreId).val < (s0.settle 3).coreCount ∧ (3 : BitVec 3).toNat < 4 ∧
      4 ≤ (4 : BitVec 3).toNat ∧ ((1 : BitVec 2).toNat < 2 ∧ (15 : BitVec 16).toNat < 16) ∧ (7 : BitVec 16).toNat < 8 ∧
      48 ≤ (48 : BitVec 6).toNat := by
  unfold State.canStart
  decide +kernel

theorem witness_SyncOperationsLand : ∀ w ∈ [Wr.watch 15 3 47 3 9, .watch 0 63 0 0 0, .unwatch 15, .bar 15 2 7, .remote 63 47 1],
    (flying .sync w).hasCore 3 = true ∧ (flying .sync w).dieHeld (dieOf 3) = false ∧
      ({ (flying .sync w).core 3 with inflight := [] } : Core).atRest ∧ ((flying .sync w).core 3).watchers = [] ∧
      ((flying .sync w).core 3).stickyNew = 0 ∧ ((flying .sync w).core 3).inflight = [⟨.sync, 5, 0, 7, .writes [w]⟩] ∧
      ((flying .sync w).core 3).now ≤ 7 ∧ dieOf 63 ≠ dieOf 3 := by
  unfold Core.atRest
  decide +kernel

/-- A counter change on its way to core 3, whose slot 15 watches the counter for the value 1. -/
def changing (watched : Bool) : State :=
  let s := { (arch3 fun a => { a with watches := a.watches.set 15 ⟨.armed, 0, 0, 3, 47, 0, 1, 7, false⟩ }) with
    msgs := { Msgs.none with ctrs := [⟨3, 4, 47, 1, false⟩] } }
  if watched then s.updCore 3 fun c => { c with watchers := [⟨3, 15, 7, 47, 0, 1⟩] } else s

theorem witness_CountersAndWatchesMeet : ∀ watched ∈ [false, true],
    let s := changing watched
    s.hasCore 3 = true ∧ s.dieHeld (dieOf 3) = false ∧ s.rotating 3 = false ∧
      s.msgs.ctrs.filter (fun x => x.target == 3) = [⟨3, 4, 47, 1, false⟩] ∧
      (⟨3, 4, 47, 1, false⟩ : CtrMsg).hasPath s = true ∧ (47 : BitVec 6).toNat < 48 ∧
      (s.core 3).arch.watches[(15 : Fin 16)].wst = .armed ∧ (s.core 3).arch.watches[(15 : Fin 16)].tag = 7 ∧
      (s.core 3).arch.seq.phase ≠ .wait 15 ∧ s.cutOff 3 = false ∧ (s.updPCore 0 3 fun p => { p with phase := 2, test := some ⟨1, none, 0, 0, 0, 0, 0⟩ }).cutOff 3 = true ∧
      leaves (exec (.counterDelivery 3 [0]) s) (fun t => (t.core 3).arch.ctrs[47] == 1 && (t.core 3).outside == [(47, 1)]) = true := by
  decide +kernel

/-- Two changes of one source, a registration on another core, and notifications with the right tag and an old one. -/
theorem witness_CountersAndWatchesMeet_messages :
    let m : CtrMsg := ⟨3, 4, 47, 1, false⟩
    let s : State := { changing false with msgs := ⟨[m, m], [⟨3, 0, 15, 7⟩], [⟨19, ⟨3, 15, 7, 0, 0, 0⟩⟩], [], []⟩ }
    s.msgs.ctrs.filter (fun x => x.target == 3) = [m, m] ∧ s.msgs.regs = [⟨19, ⟨3, 15, 7, 0, 0, 0⟩⟩] ∧
      ({ s with rotations := [⟨3, 3, 16, .overdue, false⟩] } : State).rotating 3 = true ∧
      s.msgs.notes = [⟨3, 0, 15, 7⟩] ∧ (⟨3, 0, 15, 7⟩ : NoteMsg).hasPath s = true ∧
      (s.core 3).arch.watches[(15 : Fin 16)].tag ≠ 6 ∧
      (∀ sl, (s.core 3).arch.seq.phase ≠ .wait sl) ∧
      (((s.updArch 3 fun a => { a with seq := { a.seq with phase := .wait 15 } }).core 3).arch.seq.phase = .wait 15) := by
  decide +kernel

theorem witness_CountersAndWatchesMeet_path : ∀ up ∈ [false, true], (if up then linked s0 else s0).path 0 1 = up := by decide +kernel

/-- A cycle that ends with a watch of core 3 or of core 4 on counter 47 of core 3, which a delivery has raised or which held before. -/
def cycleEnds (o : CoreId) (raised two : Bool) : State :=
  let imm : BitVec 16 := if two then 2 else 1
  (arch3 fun a => { a with
    ctrs := a.ctrs.set 47 1, watches := a.watches.set 15 ⟨.armed, 0, 0, 3, 47, 0, imm, 7, false⟩ }).updCore 3 fun c =>
      { c with watchers := [⟨o, 15, 7, 47, 0, imm⟩], outside := if raised then [(47, 1)] else [] }

theorem witness_CountersAndWatchesMeet_cycleEnd : ∀ o ∈ [3, 4], ∀ raised ∈ [false, true], ∀ two ∈ [false, true],
    let s := cycleEnds o raised two
    let imm : BitVec 16 := if two then 2 else 1
    s.pending = [] ∧ ({ s.power with cycle := (s.power.cycle + 1) % 64 } : Power).denies 3 = false ∧ s.stepPhase = .idle ∧
      s.clerk.waiting = [] ∧ s.hasCore 3 = true ∧ s.dieHeld (dieOf 3) = false ∧ s.rotationHeld 3 = false ∧
      ({ s.core 3 with outside := [] } : Core).atRest ∧ (s.core 3).watchers = [⟨o, 15, 7, 47, 0, imm⟩] ∧
      (s.core 3).arch.watches[(15 : Fin 16)].wst = .armed ∧ (s.core 3).arch.watches[(15 : Fin 16)].tag = 7 ∧
      watchHolds 0 ((s.core 3).arch.ctr 47) imm = !two ∧
      watchHolds 0 ((s.core 3).arch.ctr 47 - if raised then 1 else 0) imm = (!two && !raised) := by
  unfold Core.atRest
  decide +kernel

theorem witness_CountersAndWatchesMeet_others : ∀ j : CoreId, j ≠ 3 →
    ((cycleEnds 3 true false).core j).atRest ∧ ((cycleEnds 3 true false).core j).watchers = [] := by
  intro j hj
  rw [show (cycleEnds 3 true false).core j = s0.core j by
    rw [cycleEnds, arch3, coreIs, State.core_updCore_ne _ _ _ _ hj.symm, State.core_updCore_ne _ _ _ _ hj.symm]]
  revert j
  unfold Core.atRest
  decide +kernel

theorem test_watch_notified_at_cycle_end :
    leaves (step (cycleEnds 3 true false)) (fun t => ((t.core 3).arch.watches[15]).wst == .notified && (t.core 3).notes == []) = true ∧
    leaves (step (cycleEnds 3 false false)) (fun t =>
      ((t.core 3).arch.watches[15]).wst == .armed && (t.core 3).notes == [⟨4, 15, 7⟩]) = true := by decide +kernel

/-- Core 3 arrives at context 15 of its die, alone or with core 4 still to come. -/
def arriving (mask : BitVec 16) (valid : Bool) : State :=
  { s0.updBar 0 15 (fun b => { b with valid := valid, cmask := mask }) with
    msgs := { Msgs.none with arrs := [⟨3, 2, 7, 0, 15⟩] } }

/-- Context 15 of die 0. -/
def ctx15 (s : State) : BarCtx := s.bar 0 15

theorem witness_DieBarriers :
    (arriving 24 true).hasCore 3 = true ∧ (arriving 24 true).dieHeld (dieOf 3) = false ∧
      (arriving 24 true).msgs.arrs = [⟨3, 2, 7, 0, 15⟩] ∧ (ctx15 (arriving 24 true)).valid = true ∧
      (ctx15 (arriving 24 true)).dieMask = false ∧ (ctx15 (arriving 24 true)).cmask.getLsbD 3 = true ∧
      (ctx15 (arriving 24 true)).arrived.getLsbD 3 = false ∧ (ctx15 (arriving 8 true)).early = 0 ∧
      (ctx15 (arriving 8 true)).arrived ||| 8 = (ctx15 (arriving 8 true)).cmask ∧
      (ctx15 (arriving 24 true)).arrived ||| 8 ≠ (ctx15 (arriving 24 true)).cmask := by
  decide +kernel

theorem witness_DieBarriers_releases :
    leaves (exec (.barrierArrival 3) (arriving 8 true)) (fun t => (ctx15 t).gen == 1 && t.msgs.notes == [⟨3, 0, 2, 7⟩]) = true ∧
      (ctx15 (arriving 8 false)).valid = false ∧
      leaves (exec (.barrierArrival 3) (arriving 8 false)) (fun t => t.dies[0].str == ⟨15, 3, 8⟩ && t.events.eseq == 1) = true := by
  decide +kernel

/-- A message of die 1 to die 0 for a context whose own cores have all arrived, in its generation and in the next. -/
def dieMessage (gen : BitVec 16) : State :=
  { (linked s0).updBar 0 15 (fun b =>
      { b with valid := true, dieMask := true, dmask := 3, cmask := 8, arrived := 8, darr := 1, slots := [(3, 2, 7)] }) with
    msgs := { Msgs.none with dies := [⟨0, 1, 15, gen, 3⟩] } }

theorem witness_DieBarriers_message :
    (dieMessage 0).hasDie 0 = true ∧ (dieMessage 0).path 1 0 = true ∧ (dieMessage 0).msgs.dies.filter (fun x => x.target == 0) = [⟨0, 1, 15, 0, 3⟩] ∧
      (dieMessage 1).msgs.dies.filter (fun x => x.target == 0) = [⟨0, 1, 15, 1, 3⟩] ∧
      (3 : BitVec 4) = (ctx15 (dieMessage 0)).dmask ∧ (ctx15 (dieMessage 0)).gen = 0 ∧ (ctx15 (dieMessage 0)).full = true ∧
      (ctx15 (dieMessage 0)).dieMask = true ∧ (ctx15 (dieMessage 0)).darr.getLsbD 0 = true ∧
      (ctx15 (dieMessage 0)).cmask ≠ 0 ∧ (ctx15 (dieMessage 0)).darr ||| (1#4 <<< 1) = (ctx15 (dieMessage 0)).dmask ∧
      (ctx15 (dieMessage 0)).early = 0 ∧
      leaves (exec (.dieBarrierMessage 0 0) (dieMessage 0)) (fun t => (ctx15 t).gen == 1 && (ctx15 t).dearly == 0) = true ∧
      leaves (exec (.dieBarrierMessage 0 0) (dieMessage 1)) (fun t => (ctx15 t).gen == 0 && (ctx15 t).dearly == 2) = true := by
  decide +kernel

/-- A group of 20 modules, this one of rank `me`, with a valid fingerprint. -/
def grouped (me : BitVec 16) (s : State) : State :=
  { s with baton := { s.baton with groups := [(5, { Group.reset with gfp := 0xABCD, myrank := me, nrankm1 := 19, valid := true })] } }

theorem witness_BarrierRegistersAndFabric :
    let s := hosted (grouped 1)
    let f := grouped 1 (s0.updFab 7 fun f => { f with valid := true, group := 5, fcmask := 1, sent := true })
    s.dark = false ∧ s.barOpen 0 = true ∧ s.hasDie 3 = true ∧ s.barRefused 3 15 0x8000000000000003 = false ∧
      s.barRefused 3 15 0x8000000000030000 = true ∧ (s.fab 7).arrivals = false ∧ (0xFFFFFFFFFFFFFFFF : Word).toNat < 2 ^ s.coreCount ∧
      (s.fab 7).kids = [] ∧ (s.fab 7).ekids = [] ∧ s.dieOut 3 = false ∧ (f.fab 7).relGen = none ∧ (s.group ((0x8000000000000005 : Word).extractLsb' 0 12)).valid = true ∧
      (f.group (f.fab 7).group).gfp ≠ 0xABCE ∧ (f.fab 7).valid = true ∧ (f.group (f.fab 7).group).valid = true ∧
      childrenOf (f.group (f.fab 7).group) 1 = [17, 18, 19] ∧ (f.fab 7).sent = true ∧ (f.group (f.fab 7).group).myrank ≠ 0 ∧
      childrenOf ((grouped 19 f).group 5) 19 = [] ∧ (f.fab 7).early = 0 ∧ (f.fab 7).fcmask ≠ 0 ∧ (f.fab 7).arrived ≠ (f.fab 7).fcmask := by
  decide +kernel

/-- A context that has released goes on answering, by a repeated release to the children that are behind (R297). -/
theorem witness_BarrierRegistersAndFabric_release :
    let f := grouped 1 (s0.updFab 7 fun f => { f with valid := true, group := 5, fcmask := 1, relGen := some 0, kids := [17] })
    (f.fab 7).valid = true ∧ (f.fab 7).sent = false ∧ (f.fab 7).relGen = some 0 ∧
      (childrenOf (f.group 5) 1).filter (fun r => !(f.fab 7).kids.contains r) = [18, 19] := by
  decide +kernel

/-! ### Witnesses: queues -/

/-- A doorbell that fills the ring of 16, one past it, one that goes back, one with a high bit. -/
theorem witness_HostActsOnQueues :
    let s := headed 1 3 .waiting (cmdOf 1 0)
    s.dark = false ∧ s.barOpen 0 = true ∧ s.barOpen 1 = true ∧ s.host.ready = true ∧ (q9 s).en = true ∧
      ((16 : Word).extractLsb' 32 32 = 0 ∧ ((16 : Word).extractLsb' 0 32 - (q9 s).done).toNat ≤ 2 ^ (q9 s).log2n.toNat ∧
        ((16 : Word).extractLsb' 0 32 - (q9 s).tail).toNat < 2 ^ 31) ∧
      2 ^ (q9 s).log2n.toNat < ((17 : Word).extractLsb' 0 32 - (q9 s).done).toNat ∧
      2 ^ 31 ≤ ((0 : Word).extractLsb' 0 32 - (q9 s).tail).toNat ∧ (0x100000001 : Word).extractLsb' 32 32 ≠ 0 ∧
      (q9 s).qstate = .waiting := by
  decide +kernel

theorem witness_HostActsOnQueues_states :
    (q9 (headed 1 3 .idle 0)).qstate = .idle ∧
      ((q9 (headed 1 3 .active 1)).qstate = .active ∧ (q9 (headed 1 3 .active 1)).begun = false ∧
        (q9 (headed 1 3 .active 1)).fin = none) ∧
      ((q9 ((headed 1 3 .active 1).updQueue 9 fun x => { x with begun := true })).begun = true ∧
        (((headed 1 3 .active 1).updArch 3 fun a => { a with seq := { a.seq with phase := .issuing 0 } }).core
          (q9 (headed 1 3 .active 1)).lcore).running = true) ∧
      ((q9 (headed 1 3 .halted 1)).qstate = .halted ∧ (q9 (headed 1 3 .halted 1)).done ≠ (q9 (headed 1 3 .halted 1)).tail) ∧
      leaves (exec (.skip 9) (headed 1 3 .halted 1)) (fun t => (q9 t).done == 1 && (q9 t).qstate == .idle) = true := by
  decide +kernel

/-- Physical core 3 of die 0 is due when a doorbell arrives for logical core 3, which it serves. -/
theorem witness_HostActsOnQueues_due :
    let s := (headed 1 3 .idle 0).updPCore 0 3 fun x => { x with due := some 5 }
    (q9 s).ecls = 1 ∧ s.servedBy (q9 s).lcore = some 3 ∧ (s.pcore (dieOf (q9 s).lcore) 3).due.isSome = true ∧
      (s.pcore (dieOf (q9 s).lcore) 3).test = none ∧ (s.pcore (dieOf (q9 s).lcore) 3).owed = false ∧
      (q9 s).done ≠ (2 : Word).extractLsb' 0 32 ∧ (headed 1 3 .idle 0).pcore 0 3 ≠ s.pcore 0 3 ∧
      leaves (exec (.doorbell 9 2 true) s) (fun t => (t.pcore 0 3).owed && (t.pcore 0 3).due.isNone) = true := by
  decide +kernel

/-- No physical core is due in the states of the other clauses. -/
theorem witness_HostActsOnQueues_none_due :
    ((List.finRange 18).all fun p => ((headed 1 3 .waiting 0).pcore 0 p).due.isNone) = true := by
  decide +kernel

/-- A TALLOC that has taken handle 1 and is stopped before its record. -/
theorem witness_HostActsOnQueues_talloc :
    (let s := (headed 5 0 .active 0x50).updQueue 9 fun x => { x with fin := some ⟨ST_OK, 1⟩ };
      (q9 s).qstate = .active ∧ (q9 s).ecls = 5 ∧ cmdOpc ((q9 s).head.getD 0) = 0x50 ∧ (q9 s).fin = some ⟨ST_OK, 1⟩) ∧
    (q9 ((headed 1 3 .active 1).updQueue 9 fun x => { x with begun := true })).fin = none := by
  decide +kernel

/-- Dependency words: none; counter 47 of core 63 at 1; queue 10, command 0. -/
def depCtr : Nat := 2 <<< 62 + 63 <<< 22 + 47 <<< 16 + 1
def depCmd : Nat := 1 <<< 62 + 10 <<< 32
def withDep (w : Nat) : BitVec 512 := BitVec.ofNat 512 (0x0F + w <<< 64)

theorem witness_HeadsAreJudgedAndTaken :
    (let s := headed 1 3 .waiting (withDep 0);
      s.dark = false ∧ (q9 s).qstate = .waiting ∧ (q9 s).head = some (withDep 0) ∧ 9 ∉ s.ready ∧
        s.guard.twin.redo = [] ∧ (q9 s).depHalt = false ∧ (q9 (s.updQueue 9 fun x => { x with depHalt := true })).depHalt = true ∧
        s.judgeHead 9 (withDep 0) = none ∧ s.depMet (cmdDep (withDep 0) 0) = true ∧ s.depMet (cmdDep (withDep 0) 1) = true) ∧
    (let s := headed 1 3 .waiting (withDep depCtr);
      s.judgeHead 9 (withDep depCtr) = none ∧ s.depMet (cmdDep (withDep depCtr) 0) = false ∧
        s.depHalted (cmdDep (withDep depCtr) 0) = false) ∧
    (headed 1 3 .waiting (cmdOf 0x10 0)).judgeHead 9 (cmdOf 0x10 0) = some ST_BAD_CMD := by
  decide +kernel

theorem witness_HeadsAreJudgedAndTaken_halted :
    (let s := (headed 1 3 .waiting (withDep depCmd)).updQueue 10 fun _ => { Queue.disabled with qstate := .halted };
      s.judgeHead 9 (withDep depCmd) = none ∧ s.depMet (cmdDep (withDep depCmd) 0) = false ∧
        s.depHalted (cmdDep (withDep depCmd) 0) = true) ∧
    (let s : State := { headed 1 3 .waiting (withDep 0) with ready := [9] };
      s.nextTaken 9 = true ∧ (s.core (q9 s).lcore).unavailable = false) := by
  decide +kernel

/-- A command with a result, and a launch of core 3 whose program has halted. -/
theorem witness_CommandsComplete :
    (∀ st ∈ [ST_OK, ST_PREFIX_STOP, ST_FLUSHED, ST_UNMAPPED],
      let s := (headed 1 3 .active (cmdOf 1 0)).updQueue 9 fun x => { x with fin := some ⟨st, 7⟩ }
      s.dark = false ∧ (q9 s).qstate = .active ∧ (q9 s).head = some (cmdOf 1 0) ∧ (q9 s).fin = some ⟨st, 7⟩ ∧
        (q9 s).base % 64 = 0 ∧ s.stackDead ((q9 s).base + 64 * ((q9 s).done.toNat % 2 ^ (q9 s).log2n.toNat)) = false ∧
        Memory.wf s.mem = true) ∧
    (let s := ((headed 1 3 .active (cmdOf 1 0)).updQueue 9 fun x => { x with begun := true }).updCore 3 fun c =>
        { c with launch := some ⟨9, 0, false, 0, none, 0⟩, arch := { c.arch with stopCause := 1 } };
      (q9 s).fin = none ∧ (s.launchFin 9).isSome = true) := by
  decide +kernel

theorem witness_LaunchMarkAndCtrset :
    (let s := headed 1 3 .active (cmdOf 0x01 8191);
      s.dark = false ∧ s.headFor 9 0x01 = some (cmdOf 0x01 8191) ∧ (q9 s).begun = false ∧
        (s.core (q9 s).lcore).isStopped = true ∧ s.dieHeld (dieOf (q9 s).lcore) = false ∧ s.rotating (q9 s).lcore = false ∧
        s.linkUp (dieOf (q9 s).lcore) = true ∧
        leaves (exec (.launch 9) s) (fun t => (t.core 3).arch.seq.pc == 8191 && (t.core 3).arch.seq.phase == .issuing 0) = true) ∧
    (headed 5 0 .active (cmdOf 0x0F 0)).headFor 9 0x0F = some (cmdOf 0x0F 0) ∧
    (∀ add ∈ [0, 1],
      let c := cmdOf 0x40 (5 + 47 <<< 16 + 63 <<< 22 + add <<< 28)
      let s := headed 4 3 .active c
      s.headFor 9 0x40 = some c ∧ opf c 22 6 < s.coreCount ∧ opf c 22 6 / 16 = (q9 s).inst.toNat ∧ opf c 16 6 < 48 ∧
        opf c 28 1 = add ∧ s.cutOff 63 = false ∧ s.hubDie (dieOf 63) = true ∧ ({ s with links := s0.links } : State).hubDie (dieOf 63) = false ∧ ((s.settle 63).core 63).isStopped = true ∧
        leaves (exec (.ctrset 9) s) (fun t => (t.core 63).arch.ctrs[47] == 5) = true ∧
        (((s.updArch 63 fun a => { a with seq := { a.seq with phase := .issuing 9 } }).settle 63).core 63).isStopped = false ∧
        ({ s with rotations := [⟨63, 63, 16, .overdue, false⟩] } : State).cutOff 63 = true) := by
  decide +kernel

/-- A die's counter command for a core of another die, one for counter 48, and a core that a GY2-1024-L does not have. -/
theorem witness_LaunchMarkAndCtrset_bad :
    (let c := cmdOf 0x40 (5 + 48 <<< 16 + 31 <<< 22);
      let s : State := { headed 4 1 .active c with fuses := { s0.fuses with gy4 := false } };
      s.headFor 9 0x40 = some c ∧ opf c 22 6 < s.coreCount ∧ 47 < opf c 16 6 ∧
        s.coreCount ≤ opf (cmdOf 0x40 (5 + 32 <<< 22)) 22 6) := by
  decide +kernel

/-- A tensor of 2 blocks with handle index 1. -/
def tensor : HandleRec := ⟨0xFFF, 256, 2, 7, 0⟩

def tensored (ecls : BitVec 4) (c : BitVec 512) : State :=
  { headed ecls 0 .active c with handles := { Handles.reset with live := [(1, tensor)], fresh := 2 } }

theorem witness_TensorHandles :
    (let s := headed 5 0 .active (cmdOf 0x50 2);
      s.headFor 9 0x50 = some (cmdOf 0x50 2) ∧ s.badAlloc 2 0 = false ∧ s.badAlloc 0 0 = true ∧ (s.talloc 2 0).1 = ST_OK ∧
        ({ Handles.reset with fresh := 0x100000 } : Handles).front = none) ∧
    (let s := tensored 5 (cmdOf 0x51 0xFFF00001);
      s.headFor 9 0x51 = some (cmdOf 0x51 0xFFF00001) ∧ s.handle 0xFFF00001 = some tensor ∧
        Sparse.sorted s.handles.live = true ∧ s.handle 0x00000001 = none ∧
        leaves (exec (.tfree 9) s) (fun t => t.handles.freed == [1] && Sparse.find t.handles.gens 1 == some 0) = true) := by
  decide +kernel

/-- HCOPY of the last block of the tensor to the host and from it, one past its end, and a dump of core 63. -/
def copyCmd (first count out : Nat) : BitVec 512 :=
  cmdOf 0x52 (0x40 + 0xFFF00001 <<< 64 + first <<< 96 + count <<< 128 + out <<< 160)

theorem witness_ClerkCopies :
    (∀ out ∈ [0, 1],
      let s := tensored 5 (copyCmd 1 1 out)
      s.headFor 9 0x52 = some (copyCmd 1 1 out) ∧ s.handle (BitVec.ofNat 32 (opf (copyCmd 1 1 out) 64 32)) = some tensor ∧
        opf (copyCmd 1 1 out) 0 64 % 64 = 0 ∧ opf (copyCmd 1 1 out) 96 32 + 1 ≤ tensor.blocks ∧ s.host.linkUp = true ∧
        (q9 s).moved = 0 ∧ s.hubReaches (4096 * (tensor.first + 1)) = true ∧ s.stackDead (4096 * (tensor.first + 1)) = false ∧
        s.readTensor tensor 1 = none) ∧
    tensor.blocks < opf (copyCmd 1 2 1) 96 32 + opf (copyCmd 1 2 1) 128 32 ∧
    (let c := cmdOf 0x53 (0x40 + 63 <<< 64);
      let s := headed 5 0 .active c;
      s.headFor 9 0x53 = some c ∧ (q9 s).begun = false ∧ (q9 s).moved = 0 ∧ s.host.linkUp = true ∧ s.hubDie (dieOf 63) = true ∧ (s.core 63).isStopped = true ∧ opf c 64 6 < s.coreCount ∧ Memory.wf s.hostMem = true ∧
        ((s.updArch 63 fun a => { a with seq := { a.seq with phase := .issuing 0 } }).core 63).isStopped = false) := by
  decide +kernel

theorem bytes_of_nothing (a n : Nat) : Memory.bytes [] a n = List.replicate n 0 := by
  induction n generalizing a with
  | zero => rfl
  | succ n ih => rw [Memory.bytes, ih, List.replicate_succ]; rfl

theorem mkBib_bit (t : BitVec 12) (i : Nat) (c : BitVec 32) (n : Nat) :
    (mkBib t i c).getLsbD n =
      if n < 52 then (if n < 32 then c.getLsbD n else (BitVec.ofNat 20 i).getLsbD (n - 32)) else t.getLsbD (n - 52) := by
  have h := BitVec.getLsbD_append (x := t) (y := BitVec.ofNat 20 i ++ c) (i := n)
  have h' := BitVec.getLsbD_append (x := BitVec.ofNat 20 i) (y := c) (i := n)
  exact h.trans (by rw [h'])

theorem bibCrc_mkBib (t : BitVec 12) (i : Nat) (c : BitVec 32) : bibCrc (mkBib t i c) = c := by
  apply BitVec.eq_of_getLsbD_eq
  intro j hj
  rw [bibCrc, BitVec.getLsbD_extractLsb', mkBib_bit]
  simp [hj, show j < 52 by omega]

theorem bibTag_mkBib (t : BitVec 12) (i : Nat) (c : BitVec 32) : bibTag (mkBib t i c) = t := by
  apply BitVec.eq_of_getLsbD_eq
  intro j hj
  rw [bibTag, BitVec.getLsbD_extractLsb', mkBib_bit]
  simp [hj, show ¬ 52 + j < 52 by omega]

theorem bibIdx_mkBib (t : BitVec 12) (i : Nat) (c : BitVec 32) : bibIdx (mkBib t i c) = BitVec.ofNat 20 i := by
  apply BitVec.eq_of_getLsbD_eq
  intro j hj
  rw [bibIdx, BitVec.getLsbD_extractLsb', mkBib_bit]
  simp [hj, show 32 + j < 52 by omega]

/-- Block 1 of the tensor, as the Clerk has filled it with zeros. -/
def filled : State := { tensored 5 (copyCmd 1 1 1) with fills := [⟨256, 2, 7, false⟩] }

theorem hbmBib_of_fill (s : State) (blk : Nat) (f : Fill) (h1 : Sparse.find s.bibs blk = none)
    (h2 : (s.fills.find? fun f => f.covers blk) = some f) (h3 : f.void = false) :
    s.hbmBib blk = mkBib f.tag (blk - f.first) zeroCrc := by
  rw [State.hbmBib, h1, h2]
  simp [h3]

theorem filled_hbmBib : filled.hbmBib 257 = mkBib 7 (257 - 256) zeroCrc :=
  hbmBib_of_fill filled 257 ⟨256, 2, 7, false⟩ (by decide +kernel) (by decide +kernel) rfl

theorem filled_readHbm : filled.readHbm 257 = (List.replicate 4096 0, mkBib 7 1 zeroCrc) := by
  rw [State.readHbm, if_neg (by decide +kernel), if_neg (by decide +kernel), State.rd, show filled.mem = [] from rfl,
    bytes_of_nothing, filled_hbmBib]

/-- It reads with its own bib. -/
theorem witness_ClerkCopies_good :
    filled.readTensor tensor 1 = some (List.replicate 4096 0, mkBib 7 1 zeroCrc) := by
  rw [State.readTensor, show tensor.first + 1 = 257 from rfl, filled_readHbm]
  refine if_pos ⟨bibTag_mkBib _ _ _, ?_, ?_⟩
  · rw [bibIdx_mkBib]; rfl
  · rw [crcOk, bibCrc_mkBib]
    exact beq_self_eq_true _

/-- A checkpoint of the tensor: a list of one descriptor at device address 0x20000 with a format code; firmware slot B runs, whose version
is 0. -/
def ckptCmd (opc : Nat) : BitVec 512 := cmdOf opc (0x40 + 0x20000 <<< 64 + 1 <<< 112 + 0x100000 <<< 128)

def ckptDesc (fmt : Nat) : BitVec 512 := BitVec.ofNat 512 (0xFFF00001 + fmt <<< 64)

def ckptState (opc fmt : Nat) (x : Queue → Queue) : State :=
  let s := tensored 5 (ckptCmd opc)
  (({ s with fills := [⟨256, 2, 7, false⟩], clerk := { s.clerk with slot := true } } : State).wr 0x20000
    (natLe 16 (ckptDesc fmt).toNat)).updQueue 9 x

/-- The head of its image, its blocks of zeros, and the image. -/
def imageHead : List Byte := (ckptState 0x56 5 id).ckptHeader 1 ++ natLe 64 (ckptDesc 5).toNat
def imageBlock (i : Nat) : List Byte := List.replicate 4096 0 ++ natLe 8 (mkBib 7 i zeroCrc).toNat
def imageBody : List Byte := imageHead ++ (imageBlock 0 ++ imageBlock 1)
def image : List Byte := imageBody ++ sha256 imageBody

theorem natLe_length (n v : Nat) : (natLe n v).length = n := by
  induction n generalizing v with
  | zero => rfl
  | succ n ih => rw [natLe, List.length_cons, ih]

theorem leNat_natLe (n v : Nat) : leNat (natLe n v) = v % 256 ^ n := by
  induction n generalizing v with
  | zero => simp [natLe, leNat, Nat.mod_one]
  | succ n ih =>
    have h : v % 256 ^ (n + 1) = v % 256 + 256 * (v / 256 % 256 ^ n) := by rw [Nat.pow_succ', Nat.mod_mul]
    rw [natLe, leNat, ih, BitVec.toNat_ofNat, h]

theorem leNat_bib (b : Word) : BitVec.ofNat 64 (leNat (natLe 8 b.toNat)) = b := by
  rw [leNat_natLe, Nat.mod_eq_of_lt (by have := b.isLt; omega), BitVec.ofNat_toNat, BitVec.setWidth_eq]

theorem imageHead_length : imageHead.length = 192 := by
  simp [imageHead, State.ckptHeader, natLe_length]

theorem imageBlock_length (i : Nat) : (imageBlock i).length = 4104 := by
  rw [imageBlock, List.length_append, List.length_replicate, natLe_length]

theorem imageBody_length : imageBody.length = 8400 := by
  rw [imageBody, List.length_append, List.length_append, imageHead_length, imageBlock_length, imageBlock_length]

theorem drop_pre (l m : List Byte) (n i : Nat) (h : l.length = n) : (l ++ m).drop (n + i) = m.drop i := by
  rw [← h, List.drop_append]
  simp

theorem image_block (i : Nat) (rest : List Byte) :
    let off := imageBlock i ++ rest
    crcOk (off.take 4096) (BitVec.ofNat 64 (leNat ((off.drop 4096).take 8))) = true ∧
      (bibIdx (BitVec.ofNat 64 (leNat ((off.drop 4096).take 8)))).toNat = i % 2 ^ 20 := by
  have h1 : (imageBlock i ++ rest).take 4096 = List.replicate 4096 0 := by
    rw [imageBlock, List.append_assoc, List.take_left' (List.length_replicate ..)]
  have h2 : ((imageBlock i ++ rest).drop 4096).take 8 = natLe 8 (mkBib 7 i zeroCrc).toNat := by
    rw [imageBlock, List.append_assoc, List.drop_left' (List.length_replicate ..), List.take_left' (natLe_length ..)]
  refine ⟨?_, ?_⟩
  · rw [h1, h2, leNat_bib, crcOk, bibCrc_mkBib]
    exact beq_self_eq_true _
  · rw [h2, leNat_bib, bibIdx_mkBib, BitVec.toNat_ofNat]

theorem image_fits (s : State) (hd : s.dieCount = (ckptState 0x56 5 id).dieCount)
    (hr : s.running.num 4 2 = (ckptState 0x56 5 id).running.num 4 2) (hs : s.ckptSize [ckptDesc 5] = 8432)
    (hb : s.imageBlocks [ckptDesc 5] = [(tensor, 0), (tensor, 1)]) : s.imageFits image [ckptDesc 5] = true := by
  have num (off len : Nat) (h : off + len ≤ 192) : (image.drop off).take len = (imageHead.drop off).take len := by
    rw [image, imageBody, List.append_assoc, List.drop_append_of_le_length (by rw [imageHead_length]; omega),
      List.take_append_of_le_length (by rw [List.length_drop, imageHead_length]; omega)]
  have d0 : image.drop 192 = imageBlock 0 ++ (imageBlock 1 ++ sha256 imageBody) := by
    rw [image, imageBody, List.append_assoc, List.drop_left' imageHead_length, List.append_assoc]
  have d1 : image.drop 4296 = imageBlock 1 ++ sha256 imageBody := by
    rw [show 4296 = 192 + 4104 from rfl, ← List.drop_drop, d0, List.drop_left' (imageBlock_length 0)]
  have b0 := image_block 0 (imageBlock 1 ++ sha256 imageBody)
  have b1 := image_block 1 (sha256 imageBody)
  rw [← d0] at b0
  rw [← d1] at b1
  dsimp only at b0 b1
  rw [List.drop_drop] at b0 b1
  have hsha : (image.drop 8400 == sha256 (image.take 8400)) = true := by
    rw [image, List.drop_left' imageBody_length, List.take_left' imageBody_length]
    exact beq_self_eq_true _
  rw [State.imageFits, hs, hb, hd, hr]
  simp only [List.length_cons, List.length_nil, Bool.and_eq_true]
  refine ⟨⟨⟨⟨⟨⟨?_, ?_⟩, ?_⟩, ?_⟩, hsha⟩, ?_⟩, ?_⟩
  · rw [num 4 4 (by omega)]; decide +kernel
  · rw [num 8 1 (by omega)]; decide +kernel
  · rw [num 16 4 (by omega)]; decide +kernel
  · rw [num 36 4 (by omega)]; decide +kernel
  · simp only [List.mapIdx_cons, List.mapIdx_nil, List.all_cons, List.all_nil, Bool.and_true]
    rw [num _ _ (by omega)]; decide +kernel
  · rw [List.all_eq_true]
    intro j hj
    rw [List.mem_range] at hj
    rw [Bool.and_eq_true, beq_iff_eq]
    obtain rfl | rfl : j = 0 ∨ j = 1 := by omega
    · exact b0
    · exact b1

/-- It fits the module that has it in host memory. -/
theorem witness_ClerkCopies_fits :
    let s : State := { ckptState 0x56 5 id with hostMem := Memory.setBytes [] 0x40 image }
    s.imageFits image [ckptDesc 5] = true :=
  image_fits _ (by decide +kernel) (by decide +kernel) (by decide +kernel) (by decide +kernel)

/-- A memory with nothing listed from an address on. -/
theorem byte_above (m : Memory) (a : Nat) (h : ∀ e ∈ m, e.1 < a) : Memory.byte m a = 0 := by
  have : Sparse.find m a = none := by
    induction m with
    | nil => rfl
    | cons e m ih =>
      have he : e.1 < a := h e (List.mem_cons_self ..)
      rw [Sparse.find, if_neg (by omega), if_neg (by omega)]
      exact ih fun x hx => h x (List.mem_cons_of_mem _ hx)
  rw [Memory.byte, this]; rfl

theorem bytes_above (m : Memory) (a n : Nat) (h : ∀ e ∈ m, e.1 < a) : Memory.bytes m a n = List.replicate n 0 := by
  induction n generalizing a with
  | zero => rfl
  | succ n ih => rw [Memory.bytes, ih (a + 1) (fun e he => by have := h e he; omega), byte_above m a h, List.replicate_succ]

theorem bytes_set (m : Memory) (a : Nat) (bs : List Byte) (h : Memory.wf m = true) :
    Memory.bytes (Memory.setBytes m a bs) a bs.length = bs := by
  have key : ∀ (n o : Nat), o + n = bs.length → Memory.bytes (Memory.setBytes m a bs) (a + o) n = bs.drop o := by
    intro n
    induction n with
    | zero => intro o ho; rw [Memory.bytes, List.drop_of_length_le (by omega)]
    | succ n ih =>
      intro o ho
      rw [Memory.bytes, Nat.add_assoc, ih (o + 1) (by omega), Memory.byte_setBytes_in m a o bs h (by omega)]
      exact (List.drop_eq_getElem_cons (by omega)).symm
  have := key bs.length 0 (by omega)
  simpa using this

/-- An export whose first block is next. -/
def exporting : State := ckptState 0x55 5 fun x => { x with begun := true, image := imageHead }

theorem witness_ClerkCopies_exporting :
    exporting.readTensor tensor 0 = some (List.replicate 4096 0, mkBib 7 0 zeroCrc) := by
  have hb : exporting.hbmBib 256 = mkBib 7 (256 - 256) zeroCrc :=
    hbmBib_of_fill _ 256 ⟨256, 2, 7, false⟩ (by decide +kernel) (by decide +kernel) rfl
  have hr : exporting.readHbm 256 = (List.replicate 4096 0, mkBib 7 0 zeroCrc) := by
    rw [State.readHbm, if_neg (by decide +kernel), if_neg (by decide +kernel), State.rd, hb, bytes_above _ _ _ (by decide +kernel)]
  rw [State.readTensor, show tensor.first + 0 = 256 from rfl, hr]
  refine if_pos ⟨bibTag_mkBib _ _ _, ?_, ?_⟩
  · rw [bibIdx_mkBib]; rfl
  · rw [crcOk, bibCrc_mkBib]
    exact beq_self_eq_true _

theorem witness_ClerkCopies_checkpoint : ∀ opc ∈ [0x55, 0x56],
    (∀ fmt ∈ [0, 5],
      let s := ckptState opc fmt id
      s.dark = false ∧ s.headFor 9 opc = some (ckptCmd opc) ∧ s.host.linkUp = true ∧ Memory.wf s.hostMem = true ∧
        (q9 s).begun = false ∧ (q9 s).image = [] ∧
        s.ckptJudge (ckptCmd opc) = (if fmt = 0 then .inl (ST_BAD_FORMAT, 0) else .inr [ckptDesc 5]) ∧
        s.imageBlocks [ckptDesc 5] = [(tensor, 0), (tensor, 1)]) ∧
    (∀ moved ∈ [0, 2],
      let s := ckptState opc 5 fun x => { x with begun := true, moved := moved, image := imageHead }
      s.headFor 9 opc = some (ckptCmd opc) ∧ (q9 s).begun = true ∧ (q9 s).moved = moved ∧
        s.imageBlocks (imageDescs (q9 s).image) = [(tensor, 0), (tensor, 1)] ∧
        s.imageBlocks (s.ckptList (opf (ckptCmd opc) 64 48) (opf (ckptCmd opc) 112 16)) = [(tensor, 0), (tensor, 1)] ∧
        s.stackDead (4096 * tensor.first) = false ∧ s.hubReaches (4096 * tensor.first) = true ∧ s.hubReaches 0x20000 = true ∧ s.place 0x20000 = .hbm ∧ s.place 0x20008 = .hbm ∧
        ({ s with fills := [] } : State).readTensor tensor 0 = none) := by
  decide +kernel

theorem witness_ClerkCopies_import :
    (ckptState 0x56 5 id).imageFits [] [ckptDesc 5] = false ∧
    Memory.bytes (Memory.setBytes [] 0x40 image) 0x40 image.length = image :=
  ⟨by decide +kernel, bytes_set _ _ _ (by decide)⟩

theorem witness_StepCloseAndRotation :
    (∀ addr ∈ [0, 0xFFFFFFC, 0x3FFFFFFE],
      let s := headed 5 0 .active (cmdOf 0x54 addr)
      s.dark = false ∧ s.headFor 9 0x54 = some (cmdOf 0x54 addr) ∧ (q9 s).begun = false ∧ s.stepPhase = .idle ∧
        s.guard = Guard.reset ∧ s.stepCtr ≠ 0xFFFFFFFFFFFF ∧ s.rotations = [] ∧ s.rotReq = [] ∧ (∀ d, s.overdueOf d = []) ∧
        ((List.range 4).all fun i => (s.place (addr + i)).isMem && !s.stackDead (addr + i)) = decide (addr ≠ 0x3FFFFFFE)) ∧
    (let s := headed 5 0 .active (cmdOf 0x54 0x3FFFFFFE);
      (s.place 0x40000000).isMem = false ∧ ((List.range 2).all fun i => (s.place (0x3FFFFFFE + i)).isMem) = true) := by
  decide +kernel

theorem witness_StepCloseAndRotation_rotation : ∀ r ∈ [RotReason.overdue, .coreFault],
    let s : State := { s0 with rotations := [⟨3, 3, 16, r, false⟩] }
    (∀ i : Fin 2, r ≠ .restoreFailed i) ∧ s.queuesStopped = true ∧ s.guard.replaying = none ∧ s.cooldown.fill = [] ∧ s.hasCore 3 = true ∧ s.dieHeld (dieOf 3) = false ∧ s.rotations = ⟨3, 3, 16, r, false⟩ :: [] ∧
      s.rotationPoint 3 = true ∧ s.stepPhase = .idle ∧ (3 : PCoreNo) ≠ 16 ∧
      leaves (exec (.rotationCopyComplete 3) s) (fun t => (t.pcore 0 16).pst == .active && (t.pcore 0 16).lcore == 3 &&
        (t.pcore 0 3).lcore == 0x7F) = true := by
  decide +kernel

/-! ### Witnesses: Baton -/

/-- Group 5 of four ranks on one axis; this module is its rank 1. -/
def group5 : Group := ⟨77, 0, (Vector.replicate 4 0).set 0 3, 1, 3, 0, 0, 1, true⟩

/-- A module of group 5 with a Baton command in queue 9. -/
def ofGroup5 (c : BitVec 512) (f : State → State) : State :=
  f { headed 3 0 .active c with
    baton := { Baton.reset with groups := [(5, group5)], members := [(0, ⟨10, 0xFFFFFF⟩), (1, ⟨11, 0xFFFFFF⟩), (2, ⟨12, 0xFFFFFF⟩),
      (3, ⟨13, 0xFFFFFF⟩)] }
    dxt := { Dxt.reset with myep := 11 } }

/-- A range at a device address, tag 7. -/
def rangeAt (a : Nat) : Nat := a + 7 <<< 48 + 1 <<< 95

/-- A SHIFT over one block. -/
def shiftCmd (n halves dist : Nat) : BitVec 512 :=
  cmdOf 0x20 (rangeAt 0x20000 + rangeAt 0x30000 <<< 96 + n <<< 192 + halves <<< 258 + 5 <<< 280 + dist <<< 296)

/-- The steps of each half, both halves, and each bad operand. -/
theorem witness_BatonCommandsBegin_shift :
    (∀ h ∈ [1, 2, 3],
      let c := shiftCmd 1 h 1
      let s := ofGroup5 c id
      s.dark = false ∧ (q9 s).begun = false ∧ s.baton.waiting = [] ∧ s.baton.cmds = [] ∧ s.guard.twen = false ∧
        s.headFor 9 0x20 = some c ∧ opf c 280 12 = 5 ∧ opf c 258 2 = h ∧ opf c 296 16 = 1 ∧ opf c 292 2 = 0 ∧
        s.counterAbsent (batonCounters c 257 244) = false ∧ s.group 5 = group5 ∧
        s.locate (opf c 0 96) 1 = .inr ([⟨0x20000, 0⟩], 7) ∧ s.locate (opf c 96 96) 1 = .inr ([⟨0x30000, 0⟩], 7) ∧
        (match s.readShift 9 c with
          | .inr x => x.reached s
          | .inl _ => false) = true) ∧
    (group5.neighbour 1 0 1 = 2 ∧ group5.neighbour 1 0 (group5.axis 0 - 1 % group5.axis 0) = 0) ∧
    ((ofGroup5 (shiftCmd 1 3 1) id).locate 0x20001 1).isLeft = true ∧
    ((∀ x ∈ [(0, 3, 1), (16777217, 3, 1), (1, 0, 1), (1, 3, 0)],
      let c := shiftCmd x.1 x.2.1 x.2.2
      (ofGroup5 c id).headFor 9 0x20 = some c ∧
        (opf c 296 16 = 0 ∨ opf c 192 32 = 0 ∨ 2 ^ 24 < opf c 192 32 ∨ opf c 258 2 = 0))) := by
  decide +kernel

/-- A permutation of group 5 whose parameters stand at 0x20000. -/
def permCmd (opc n : Nat) : BitVec 512 := cmdOf opc (0x20000 + n <<< 48 + 5 <<< 68)

/-- A table of one entry for the last rank: a send, a receive. -/
theorem witness_BatonCommandsBegin_permt :
    ∀ recv ∈ [0, 1],
      let c := permCmd 0x21 1
      let s := ofGroup5 c fun s => s.wr 0x20000 (natLe 32 (1 + 3 <<< 32 + recv <<< 48 + rangeAt 0x30000 <<< 64))
      let e : BitVec 256 := BitVec.ofNat 256 (s.rdDevNat (opf c 0 48) 32)
      (q9 s).begun = false ∧ s.baton.cmds = [] ∧ opf c 0 48 % 64 = 0 ∧ (batonCounters c 125 112).1 = false ∧
        (batonCounters c 125 112).2.2.2.1 = false ∧ (s.place (opf c 0 48)).isMem = true ∧
        s.headFor 9 0x21 = some c ∧ opf c 48 20 = 1 ∧ fld e 160 96 = 0 ∧ fld e 49 15 = 0 ∧ fld e 32 16 = group5.nrankm1.toNat ∧
        fld e 0 32 = 1 ∧ group5.grace = 0 ∧ (BitVec.ofNat 16 3) ≠ group5.myrank ∧ s.hubReaches 0x30000 = true ∧ s.locate (fld e 64 96) 1 = .inr ([⟨0x30000, 0⟩], 7) ∧ e.getLsbD 48 = (recv == 1) := by
  decide +kernel

/-- Parameters of one row of one block: sources, destinations, indices, route and counts in turn. -/
def permParams (ncap : Nat) (idx : Bool) : Nat :=
  rangeAt 0x30000 + rangeAt 0x40000 <<< 96 + rangeAt 0x50000 <<< 192 + (if idx then rangeAt 0x60000 <<< 288 else 0) +
    rangeAt 0x70000 <<< 384 + 1 <<< 480 + ncap <<< 512 + 1 <<< 544

theorem witness_BatonCommandsBegin_permi :
    let c := permCmd 0x22 0
    let s := ofGroup5 c fun s => s.wr 0x20000 (natLe 128 (permParams 1 true))
    let p : BitVec 1024 := BitVec.ofNat 1024 (s.rdDevNat (opf c 0 48) 128)
    s.headFor 9 0x22 = some c ∧ opf c 48 20 = 0 ∧ ((List.range 4).all fun i => (s.place (opf c 0 48 + 32 * i)).isMem) = true ∧ badParams p false = false ∧ 2 ≤ group5.ranks ∧
      (match s.readPermi group5 p with
        | .inr x => ((x.src ++ x.dst ++ x.cnt ++ x.route).all fun b => s.hubReaches b.addr) && x.dest == [0] && x.rowblk == 1 && x.dcap == 1 && x.rowsFor 0 == [0] && x.rowsFor 3 == []
        | _ => false) = true := by
  decide +kernel

/-- Its only row returns from the last rank; with every rank it tells its run, also of no rows. -/
theorem witness_BatonCommandsBegin_permr :
    let c := permCmd 0x23 0
    let s := ofGroup5 c fun s => (s.wr 0x20000 (natLe 128 (permParams 0 false))).wr 0x50000 (natLe 8 3)
    let p : BitVec 1024 := BitVec.ofNat 1024 (s.rdDevNat (opf c 0 48) 128)
    s.headFor 9 0x23 = some c ∧ opf c 48 20 = 0 ∧ badParams p true = false ∧
      (match s.readPermr group5 p with
        | .inr (xs, [], _, 1) => xs.map (fun x => (x.send, x.own, x.peer.toNat, x.blks, x.run)) == [
            (true, false, 0, [], (0, 0)), (true, true, 1, [], (0, 0)), (true, false, 2, [], (0, 0)), (true, false, 3, [], (0, 0)),
            (false, false, 0, [], (0, 0)), (false, true, 1, [], (0, 0)), (false, false, 2, [], (0, 0)),
            (false, false, 3, [⟨0x40000, 0⟩], (0, 1))] && s.hubReaches 0x40000
        | _ => false) = true := by
  decide +kernel

/-- A command of group 5 with one transfer between this module and its last rank: one block of core 3's Basin. -/
def half (send : Bool) (f : Xfer → Xfer) : Xfer :=
  f (mkXfer send 3 (.shift 0 false 2) ([⟨0x800006000000, 0⟩], 7) 1)

def running (opc : Nat) (x : Xfer) (f : BatonCmd → BatonCmd) : BatonCmd :=
  f ⟨9, opc, 5, 0, 0, 0, false, 0, 0, false, 0, 0, false, [x], none, 0, 0, 0, false, false, false⟩

def moving (c : BatonCmd) (f : Group → Group) : State :=
  ofGroup5 (shiftCmd 1 3 2) fun s => { s with
    baton := { s.baton with
      groups := [(5, f group5)], members := [(0, ⟨10, 20⟩), (1, ⟨11, 21⟩), (2, ⟨12, 22⟩), (3, ⟨13, 23⟩)], cmds := [c] } }

theorem witness_BatonMessagesAct_handshakes :
    (∀ h ∈ [(⟨4095, 0, 0, .perm 0, 3, 13, 1, 7, [0], (0, 0), false⟩ : Handshake), ⟨5, 76, 0, .perm 0, 3, 13, 1, 7, [0], (0, 0), false⟩],
      let s := moving (running 0x20 (half false id) id) id
      s.dark = false ∧ s.guard.twen = false ∧ ((s.group h.group).valid = false ∨ (s.group h.group).gfp ≠ h.gfp)) ∧
    (let s := moving (running 0x20 (half false id) id) id;
      let h : Handshake := ⟨5, 77, 1, .shift 0 false 2, 3, 13, 1, 7, [0], (0, 0), false⟩;
      (s.group h.group).valid = true ∧ (s.group h.group).gfp = h.gfp ∧ (s.findXfer fun c x => handshakeMeets h c x) = none ∧
        s.baton.ended = [] ∧ (s.findXfer fun c x => handshakeMeets { h with tag := 0 } c x) ≠ none) := by
  decide +kernel

/-- A receive half that has ended, or that a STOP has ended, as its peer and the peer's backup find it. -/
theorem witness_BatonMessagesAct_ended : ∀ stopped ∈ [false, true],
    let d : EndedHalf := ⟨9, 0, ⟨5, 1, .shift 0 false 2⟩, 3, stopped, false, false, [(0, 5, false)], 0⟩
    let s : State := { moving (running 0x20 (half false id) id) id with
      baton := { (moving (running 0x20 (half false id) id) id).baton with ended := [d] } }
    s.baton.ended.filter (fun h => h.queue == 9 && h.entry == 0) = d :: [] ∧ d.diverges 0 [] 0 false = false ∧
      (s.group 5).valid = true ∧ (s.group 5).gfp = 77 ∧
      (∀ backup ∈ [false, true], d.awaits ⟨5, 77, 1, .shift 0 false 2, 3, 13, 1, 7, [0], (0, 0), backup⟩ = !stopped) ∧
      ({ d with hsM := true } : EndedHalf).awaits ⟨5, 77, 1, .shift 0 false 2, 3, 13, 1, 7, [0], (0, 0), false⟩ = false := by
  decide +kernel

/-- A send half before and after its block has gone, and one in backup role. -/
theorem witness_BatonMessagesAct_send :
    (∀ b ∈ [false, true],
      let x := half true id
      let c := running 0x20 x fun c => { c with backup := b }
      let s := moving c id
      s.xfer? 9 0 = some (c, x) ∧ x.own = false ∧ c.stopping = false ∧ c.reached s = true ∧ s.baton.cmds.filter (fun d => d.queue == 9) = [c] ∧
        x.send = true ∧ x.accM = false ∧ x.blks = [⟨0x800006000000, 0⟩] ∧ x.sent = [] ∧
        (s.readSource ⟨0x800006000000, 0⟩ 7).isSome = true) ∧
    (let x := half true fun x => { x with accM := true, sent := [0] };
      let c := running 0x20 x id;
      let s := moving c id;
      s.xfer? 9 0 = some (c, x) ∧ (s.group c.group).grace = 0 ∧ x.blks ≠ [] ∧ c.permi = none ∧ c.xfers = [x] ∧ c.scen = false ∧
        (s.queue 9).fin = none ∧ (∀ j, j < x.blks.length → j ∈ x.sent) ∧
        leaves (exec (.batonBlockAck ⟨9, .none⟩ 0 x.all false .acked) s) (fun t => (t.queue 9).fin.isSome) = true) := by
  decide +kernel

theorem witness_BatonMessagesAct_receive :
    (let x := half false fun x => { x with hsM := true, srcM := (7, [0]) };
      let c := running 0x20 x id;
      let s := moving c id;
      s.xfer? 9 0 = some (c, x) ∧ x.blks[0]? = some ⟨0x800006000000, 0⟩ ∧ bibTag 0 ≠ x.srcM.1 ∧ 0 ∉ x.retried ∧ c.reached s = true ∧ x.has 0 = false) ∧
    (let x := half false fun x => { x with hsM := true, srcM := (7, [0]), retried := [0], landed := [(0, 5, false)] };
      0 ∈ x.retried ∧ 0 ∉ x.recent ∧ x.landed.find? (fun l => l.1 == 0) = some (0, 5, false)) ∧
    (let p : PermiState := ⟨[0, 3], [(1, 0)], [], false, false, 1, 1, [], 7, [], 7, [], 7, [], 7, 0⟩;
      let c := running 0x22 (half true id) fun c => { c with permi := some p };
      c.opc = 0x22 ∧ c.permi = some p ∧ (0 : BitVec 16).toNat < group5.ranks ∧ (3 : BitVec 16).toNat < group5.ranks ∧
        Sparse.find p.counts 0 = none ∧ Sparse.find p.counts 3 = none ∧ p.counts.length + 1 < group5.ranks) := by
  decide +kernel

/-- A receive half whose peer has been silent, with and without a handshake of its backup. -/
theorem witness_BatonMessagesAct_silent :
    (∀ b ∈ [false, true],
      let x := half false fun x => { x with hsB := b }
      let c := running 0x20 x id
      let s := moving c fun g => { g with grace := 1 }
      s.xfer? 9 0 = some (c, x) ∧ (s.group c.group).grace ≠ 0 ∧ (s.memberOf (s.group c.group) x.peer.toNat).backup ≠ noEp ∧
        x.send = false ∧ s.isSilent c.group (s.memberOf (s.group c.group) x.peer.toNat).ep = false ∧ s.baton.cmds = [c] ∧ c.opc = 0x20 ∧
        c.permi = none ∧ c.xfers = [x] ∧ x.landed = [] ∧ x.blks ≠ [] ∧ x.hsB = b ∧
        leaves (exec (.graceExpiry 9 0 false) s) (fun t => (t.xfer? 9 0).any fun y => y.2.silM && y.2.asked == b) = true) := by
  decide +kernel

/-- The backup's send half: a block asked for, and its release by a receiver with and without a backup. -/
theorem witness_BatonMessagesAct_backup : ∀ covered ∈ [false, true],
    let x := half true id
    let c := running 0x20 x fun c => { c with backup := true }
    let s := moving c fun g => { g with grace := if covered then 1 else 0 }
    let m := s.memberOf (s.group c.group) x.peer.toNat
    s.xfer? 9 0 = some (c, x) ∧ c.backup = true ∧ x.send = true ∧ x.wanted = [] ∧ x.blks = [⟨0x800006000000, 0⟩] ∧ x.sent = [] ∧
      (s.readSource ⟨0x800006000000, 0⟩ 7).isSome = true ∧ c.opc = 0x20 ∧ c.permi = none ∧ c.xfers = [x] ∧ c.scen = false ∧
      x.released = [] ∧ (s.queue 9).fin = none ∧ s.hasBackup (s.group c.group) x.peer.toNat = covered ∧ m.backup ≠ m.ep ∧
      s.isSilent c.group m.backup = false := by
  decide +kernel

/-- A block of zeros with its own bib is good. -/
theorem witness_BatonMessagesAct_good :
    (List.replicate 4096 (0 : Byte)).length = 4096 ∧ bibIdx (mkBib 7 0 (crc32c (List.replicate 4096 0))) = [(0 : BitVec 20)].getD 0 0 ∧
      crcOk (List.replicate 4096 0) (mkBib 7 0 (crc32c (List.replicate 4096 0))) = true ∧
      bibTag (mkBib 7 0 (crc32c (List.replicate 4096 0))) = 7 :=
  ⟨List.length_replicate, bibIdx_mkBib _ _ _, by rw [crcOk, bibCrc_mkBib]; exact beq_self_eq_true _, bibTag_mkBib _ _ _⟩

/-! ### Witnesses: step records and twins -/

/-- A module of a comparison group of n ranks. -/
def comparing (n : BitVec 16) (f : Guard → Guard) : State :=
  { moving (running 0x20 (half true id) id) (fun g => { g with nrankm1 := n - 1 }) with
    guard := f { Guard.reset with fden := true, fdgroup := 5 } }

theorem witness_StepRecordsAct_digests :
    (let s := comparing 3 id; s.dark = false ∧ s.guard.fden = true ∧ (∀ x ∈ s.guard.digests, x.1 ≠ 1) ∧
      s.stepCtr.toNat < (1 : BitVec 48).toNat) ∧
    (let s := comparing 3 fun g => { g with digests := [(0, 9, [], [])] }; s.guard.digests = [(0, 9, [], [])] ∧ 3 ≤ s.fdRanks) ∧
    (let s := comparing 2 fun g => { g with digests := [(0, 9, [], [])] }; s.fdRanks = 2 ∧ (8 : Word) ≠ 9) := by
  decide +kernel

/-- A second copy of a digest that disagrees. -/
theorem witness_StepRecordsAct_copies :
    (let s := comparing 3 fun g => { g with digests := [(0, 9, [true, false], [])] };
      s.guard.digests = [(0, 9, [true, false], [])] ∧ 3 ≤ s.fdRanks ∧
        leaves (exec (.fdDigestArrival true 0 8) s) (fun t => t.guard.digests == [(0, 9, [true, false], [(true, 8)])]) = true) := by
  decide +kernel

/-- A twin pair: this module and endpoint 21. -/
def paired (c : BatonCmd) (f : TwinState → TwinState) : State :=
  { moving c (fun g => { g with grace := 1 }) with
    guard := { Guard.reset with twen := true, twep := 21, twin := f Guard.reset.twin } }

theorem witness_StepRecordsAct_twin :
    (let x := half true id;
      let c := running 0x20 x id;
      let parts : List Word := List.replicate 65 0;
      let s := paired c fun t => { t with run := 1, gated := [⟨9, 0, 0, parts, 1⟩] };
      s.dark = false ∧ s.xfer? 9 0 = some (c, x) ∧ s.gatedGroup (s.group c.group) = true ∧ x.own = false ∧ parts.length = 65 ∧
        (9, 0, 0) ∉ s.guard.twin.opened ∧ c.gateUnit * 0 < x.blks.length ∧ c.reached s = true ∧ s.guard.twin.run = 1 ∧ c.stopping = false ∧
        x.accM = false ∧ x.accB = false ∧ x.ackM = [] ∧ x.ackB = [] ∧ x.released = [] ∧
        x.wanted = [] ∧ c.opc = 0x20 ∧ c.xfers = [x] ∧ s.stepPhase = .idle ∧ s.guard.twin.gated = [⟨9, 0, 0, parts, 1⟩]) ∧
    (let parts : List Word := List.replicate 65 0;
      let s := paired (running 0x20 (half true id) id) fun t => { t with run := 1, sent := true, own := parts };
      s.guard.twen = true ∧ s.guard.twin.alone = false ∧ s.stepPhase = .idle ∧
        (let u : State := { s with stepPhase := .twinWait 9 0x20000, baton := { s.baton with cmds := [] } };
          u.baton.cmds = [] ∧ u.stepPhase = .twinWait 9 0x20000 ∧ u.atBoundary = true ∧ u.guard.twin.sent = true ∧
            u.guard.twin.own = parts ∧ u.guard.twin.run = 1 ∧ u.guard.twin.redo = [] ∧ (u.queue 9).fin = none ∧
            leaves (exec (.twinStepDigest parts) u) (fun t => t.stepCtr == 1 && t.stepPhase == .idle) = true)) := by
  decide +kernel

/-- The state saved at the entry of a step, restored. -/
theorem witness_StepRecordsAct_restore :
    let s : State := { s0 with guard := { s0.saveStep.guard with replaying := some ⟨[], [], false⟩ } }
    s.guard.replaying = some ⟨[], [], false⟩ ∧ s.stoppedForRestore = true ∧ s.guard.entryBank.isSome = true := by
  decide +kernel

/-! ### Witnesses: streams (Runnel 7 belongs to core 3) -/

/-- A stream descriptor at 0x20000: depth, blocks in a tile, 0x40000 as its base, one instruction, END. -/
def streamed (depth tileblk : Nat) (st : QState) (begun : Bool) : State :=
  ((headed 2 7 st (cmdOf 0x10 0x20000)).updQueue 9 fun x => { x with begun := begun }).wr 0x20000
    (natLe 64 (depth <<< 8 + tileblk <<< 12 + 0x40000 <<< 64 + 1 <<< 160) ++ natLe 8 (7 <<< 60))

def headerOf (s : State) : BitVec 512 := BitVec.ofNat 512 (s.rdDevNat 0x20000 64)

theorem witness_StreamsStartAndStride :
    (∀ x ∈ [(1, 1, true), (8, 256, true), (1, 256, true), (0, 1, false), (9, 1, false), (1, 0, false), (1, 257, false)],
      let s := streamed x.1 x.2.1 .active false
      let h := headerOf s
      let n := if fld h 0 2 = 0 then min (fld h 160 6) 32 else 0
      let d := StreamDesc.ofBits h ((List.range n).map fun i => BitVec.ofNat 64 (s.rdDevNat (0x20000 + 64 + 8 * i) 8))
      s.hasCore (coreOf 7) = true ∧ s.dieHeld (dieOf (coreOf 7)) = false ∧ (s.queue 9).inst.toNat = 7 ∧ s.stream 7 = none ∧
        s.rotating 3 = false ∧ (s.core 3).prefixStopped = false ∧ s.dieReaches (dieOf 3) 0x20000 = true ∧
        s.headFor 9 0x10 = some (cmdOf 0x10 0x20000) ∧ (s.queue 9).begun = false ∧ opf (cmdOf 0x10 0x20000) 0 48 = 0x20000 ∧
        s.descReadable 3 0x20000 = true ∧ (n ≠ 0 → s.descReadable 3 (0x20000 + 63 + 8 * n) = true) ∧ d.bad h = !x.2.2) ∧
    leaves (exec (.stream 9) (streamed 8 256 .active false)) (fun t => (t.stream 7).isSome) = true := by
  decide +kernel

theorem witness_StreamsStartAndStride_start :
    let s : State := { (streamed 1 1 .waiting false).updQueue 9 fun x => { x with ecls := 4, inst := 7 } with ready := [9] }
    (s.queue 9).qstate = .waiting ∧ (s.queue 9).head = some (cmdOf 0x10 0x20000) ∧ cmdOpc (cmdOf 0x10 0x20000) = 0x10 ∧
      (s.core (s.queue 9).lcore).unavailable = false ∧ s.nextTaken 9 = true ∧
      leaves (exec (.streamStart 9) s) (fun t => (t.stream 7).isSome) = true := by
  decide +kernel

/-- A stride descriptor over core 3's Basin. -/
def stride (prog : List Word) : StreamDesc := ⟨0, false, 0, 2, 1, 1, 2, 3, false, 0, 0, 0x40000, 7, 0, prog, 0, 0, 0, 0, 0, 0⟩

/-- A stream on Runnel 7. -/
def flowing (d : StreamDesc) (f : StreamRun → StreamRun) : State :=
  let s := (streamed 1 1 .active true)
  { s with runnels := vupd s.runnels 7 fun x => { x with run := some (f (s.freshStream 3 9 d)) } }

def streamOf (s : State) : StreamRun := (s.stream 7).getD (s.freshStream 3 9 (stride []))

/-- An instruction of a program. -/
def strideWord (op reg cnt imm : Nat) : Word := BitVec.ofNat 64 (op <<< 60 + reg <<< 58 + cnt <<< 40 + imm)

theorem witness_StreamsStartAndStride_program :
    (∀ op ∈ [1, 2, 3, 4, 5, 6],
      ∀ cnt ∈ [1, 2, 65535],
      let w := strideWord op 3 cnt 0
      let s := flowing (stride [w, strideWord 7 0 0 0]) id
      let x := streamOf s
      s.stream 7 = some x ∧ x.instr op = some w ∧ x.pidx + 1 < x.d.prog.length ∧ x.loops[strideReg w] = 0 ∧ strideCnt w = cnt ∧
        fld w 0 40 ≤ x.pidx ∧ ({ x with loops := x.loops.set 3 1 } : StreamRun).loops[strideReg w] ≠ 0) ∧
    (let s := flowing (stride [strideWord 7 0 0 0]) id;
      s.stream 7 = some (streamOf s) ∧ (streamOf s).instr 7 = some (strideWord 7 0 0 0)) ∧
    (let s := flowing (stride [strideWord 2 0 0 0xFFFFFFFFFF]) id;
      s.stream 7 = some (streamOf s) ∧ (streamOf s).instr 2 = some (strideWord 2 0 0 0xFFFFFFFFFF) ∧
        (streamOf s).pidx + 1 = (streamOf s).d.prog.length) := by
  decide +kernel

/-- An index stream of three records over core 3's Basin, whose index block holds an index. -/
def indexed (v : Nat) : State :=
  flowing { stride [] with kind := 1, ibase := 0x20000, nidx := 1, nrec := 3, rstride := 1, recblk := 1 } fun x =>
    { x with idxBlk := some (0x20000, natLe 4 v) }

theorem witness_StreamsStartAndStride_index :
    (∀ v ∈ [0, 2, 3, 0x7FFFFFFF, 0x80000000, 0xFFFFFFFE, 0xFFFFFFFF],
      let s := indexed v
      let x := streamOf s
      s.stream 7 = some x ∧ x.d.kind = 1 ∧ x.ended = false ∧ x.stopping = false ∧
        (x.d.ibase + 4 * x.idx) % 2 ^ 48 / 4096 * 4096 = 0x20000 ∧ x.idxBlk = some (0x20000, natLe 4 v) ∧
        leNat (((natLe 4 v).drop 0).take 4) = v ∧ (s.queue x.queue).fin = none ∧ x.d.nrec = 3) ∧
    (let s := flowing { stride [] with kind := 1, ibase := 0x20000, nidx := 1, nrec := 3 } id;
      s.stream 7 = some (streamOf s) ∧ (streamOf s).d.kind = 1 ∧ (streamOf s).idxBlk = none ∧ s.runnelReach 3 0x20000 = true ∧
        s.dieReaches (dieOf 3) 0x20000 = true ∧ (streamOf s).idxRetried = false) := by
  decide +kernel

/-- A tile of one block of HBM. -/
def tile (st : TileState) (landed : List Nat) : StreamTile := ⟨0, [⟨0x40000, false⟩], st, landed, [], [], false, 0⟩

/-- A stream of Runnel 7, inbound or outbound, with what it has emitted and its tiles. -/
def tiled (dir : Bool) (em : List StreamBlk) (ts : List StreamTile) (f : StreamRun → StreamRun) : State :=
  flowing { stride [] with dir := dir } fun x => f { x with emitted := em, tiles := ts }

theorem witness_StreamTilesMove_fill :
    (let s := tiled false [⟨0x40000, false⟩] [] id;
      let x := streamOf s;
      s.hasCore (coreOf 7) = true ∧ s.dieHeld (dieOf (coreOf 7)) = false ∧ s.stream 7 = some x ∧ x.d.loc.toNat < 2 ∧
        x.nextBlks = some [⟨0x40000, false⟩] ∧ x.stopping = false ∧ x.d.dir = false ∧ x.outstanding < 6 ∧ x.next < x.d.depth ∧
        s.runnelReach 3 0x40000 = true ∧ s.runnelReach 3 0x20000000000 = false) ∧
    (let s := (tiled true [⟨0x40000, false⟩] [] id).updArch 3 fun a => { a with ctrs := a.ctrs.set 1 1 };
      let x := streamOf s;
      s.stream 7 = some x ∧ x.d.dir = true ∧ (x.tiles.filter fun t => t.st != .drained).length < x.d.depth ∧
        s.advanced 3 x.d.rdyctr x.r0 (x.next + 1) = true) := by
  decide +kernel

/-- The block of the tile, filled with zeros by the Clerk with the stream's tag. -/
def filledTile : State := { tiled false [] [tile .filling []] (fun x => { x with reqs := [(0, 0, 1)] }) with fills := [⟨0x40, 1, 7, false⟩], mem := [] }

theorem witness_StreamTilesMove_arrival :
    (let x := streamOf filledTile;
      filledTile.stream 7 = some x ∧ x.tiles = [tile .filling []] ∧ (tile .filling []).blks[0]? = some ⟨0x40000, false⟩ ∧
        0 ∉ (tile .filling []).landed ∧ 0 ∉ (tile .filling []).retried ∧ filledTile.inOrder 7 x 0 0 0x40000 = true ∧
        leaves (exec (.streamBlockArrival 7 0 0 ⟨true, .none⟩) filledTile) (fun t => (streamOf t).reqs == [(0, 0, 2)]) = true) ∧
    (let s := tiled false [] [tile .filling [], { tile .filling [] with n := 1 }] fun x => { x with reqs := [(0, 0, 1), (1, 0, 2)] };
      s.stream 7 = some (streamOf s) ∧ s.inOrder 7 (streamOf s) 1 0 0x40000 = false) ∧
    (let s := tiled false [] [tile .filling [0]] id;
      s.stream 7 = some (streamOf s) ∧ (tile .filling [0]).blks.length ≤ (tile .filling [0]).landed.length ∧ (streamOf s).halt = none) := by
  decide +kernel

theorem filledTile_hbmBib : filledTile.hbmBib 0x40 = mkBib 7 (0x40 - 0x40) zeroCrc :=
  hbmBib_of_fill filledTile 0x40 ⟨0x40, 1, 7, false⟩ (by decide +kernel) (by decide +kernel) rfl

theorem witness_StreamTilesMove_out :
    (let s := tiled true [] [tile .ready []] id;
      let x := streamOf s;
      s.stream 7 = some x ∧ x.tiles = [tile .ready []] ∧ x.d.dir = true ∧ x.stopping = false ∧ x.d.peeren = false ∧
        s.runnelReach 3 0x40000 = true ∧ s.place 0x40000 = .hbm ∧ (s.readOut 3 x.d 0 0 ⟨0x40000, false⟩).2.2 = false) ∧
    (∀ st ∈ [TileState.draining, .drained],
      let s := tiled true [] [tile st []] id
      s.stream 7 = some (streamOf s) ∧ (streamOf s).tiles = [tile st []] ∧ (tile st []).acked = false ∧
        s.canArrive 7 (streamOf s) (tile st []) = true ∧ s.place 0x40000 = .hbm) ∧
    (let v : StreamTile := ⟨1, [], .drained, [], [], [], false, 0⟩;
      let s := tiled true [] [tile .drained [], v] id;
      s.stream 7 = some (streamOf s) ∧ (streamOf s).tiles = [tile .drained [], v] ∧
        leaves (exec (.tileDelivered ⟨7, 1, []⟩) s) (fun t => (streamOf t).tiles == [tile .drained [], { v with acked := true }]) = true) ∧
    (let s := tiled true [] [] fun x => { x with ended := true };
      s.stream 7 = some (streamOf s) ∧ (streamOf s).ended = true ∧ (streamOf s).halt = none ∧ (streamOf s).emitted = [] ∧
        (streamOf s).tiles = [] ∧ (streamOf s).d.dir = true ∧ (s.queue (streamOf s).queue).fin = none) := by
  decide +kernel

theorem filledTile_readHbm : filledTile.readHbm 0x40 = (List.replicate 4096 0, mkBib 7 0 zeroCrc) := by
  rw [State.readHbm, if_neg (by decide +kernel), if_neg (by decide +kernel), State.rd, show filledTile.mem = [] from rfl,
    bytes_of_nothing, filledTile_hbmBib]

theorem filledTile_farBlock : filledTile.farBlock 0x40000 7 0x40000 = (List.replicate 4096 0, mkBib 7 0 zeroCrc) := by
  rw [State.farBlock, State.readBlock, show filledTile.place 0x40000 = .hbm from by decide +kernel]
  exact filledTile_readHbm

/-- It is good: its bib agrees with its zeros, the stream's tag and its place. -/
theorem witness_StreamTilesMove_good :
    bibGood (filledTile.farBlock 0x40000 7 0x40000).1 (filledTile.farBlock 0x40000 7 0x40000).2 7
      (blockIndex 0x40000 0x40000) = true := by
  rw [filledTile_farBlock, bibGood, crcOk, bibCrc_mkBib, bibTag_mkBib, bibIdx_mkBib]
  simp only [Bool.and_eq_true]
  exact ⟨⟨beq_self_eq_true _, rfl⟩, rfl⟩

/-! ### Witnesses: memory stacks -/

/-- A module with its stacks in service and a block of zeros that the Clerk has filled. -/
def stacked (temp : Byte) : State :=
  { headed 5 0 .idle 0 with
    fills := [⟨0x20, 1, 7, false⟩]
    hbms := s0.hbms.map fun x => { x with
      hstate := .inService, temp := temp, winTemp := Vector.replicate 32 50, dueRun := (Vector.replicate 32 0).set 31 14
      winFails := (Vector.replicate 32 0).set 5 1 } }

theorem witness_MemoryStacksAct_writes :
    let s := stacked 50
    s.dark = false ∧ Memory.wf s.mem = true ∧ Sparse.sorted s.poison = true ∧
      (∀ a ∈ [0, 0x20FC0, 0x3FFFFFC0], s.place a = .hbm ∧ s.place (a + 63) = .hbm ∧ a % 64 = 0 ∧ s.stackDead a = false ∧
        s.stackDead (4096 * (a / 4096)) = false) ∧
      (List.replicate 64 (0xFF : Byte)).length = 64 ∧ (0x3FFFFFC0 : BitVec 48).toNat = 0x3FFFFFC0 := by
  decide +kernel

/-- The first codeword of a block, the last one, the widest index of an errored codeword, and the longest run but one. -/
theorem witness_MemoryStacksAct_reads :
    let s := stacked 50
    s.stackAt 0x20000 = some (4, 16384) ∧ s.stackDead 0x20000 = false ∧ ((s.addrOf 4 16384).map fun a => a / 4096) = some 0x20 ∧
      (∀ i ∈ [(0 : Fin 65), 31, 63], i.val < 64 ∧ ((s.hbms[(4 : StackId)]).dueRun[i.val % 32]).toNat < 15) ∧
      ((s.hbms[(4 : StackId)]).dueRun[31]).toNat = 14 ∧ (s.hbms[(4 : StackId)]).badLanes = [] ∧ 16384 / 4096 < 2040 * 8192 ∧
      (64 : CwNo).val < 65 := by
  decide +kernel

theorem stacked_hbmBib : (stacked 50).hbmBib 0x20 = mkBib 7 (0x20 - 0x20) zeroCrc :=
  hbmBib_of_fill (stacked 50) 0x20 ⟨0x20, 1, 7, false⟩ (by decide +kernel) (by decide +kernel) rfl

/-- The block reads with its own bib. -/
theorem witness_MemoryStacksAct_good :
    crcOk (Memory.bytes (stacked 50).mem (4096 * 0x20) 4096) ((stacked 50).hbmBib 0x20) = true := by
  rw [stacked_hbmBib, show (stacked 50).mem = [] from rfl, bytes_of_nothing, crcOk, bibCrc_mkBib]
  exact beq_self_eq_true _

/-- A scrubbed word of core 3; temperatures where refresh and windows change; windows that pass, fail once and fail twice. -/
theorem witness_MemoryStacksAct_scrub_and_windows :
    (let s := stacked 50;
      s.hasCore 3 = true ∧ s.dieHeld (dieOf 3) = false ∧ s.holdsWord (.memory 0x800006000000) 3 = true ∧
        s.holdsWord (.counter 47) 3 = true ∧ (s.core 3).unavailable = false) ∧
    (∀ t ∈ [(79, false), (80, false), (85, false), (86, true)],
      leaves (exec (.hbmTempPoll 15 t.1) (stacked 50)) (fun u => u.hbms[15].ref2x == t.2) = true) ∧
    (∀ t ∈ [(41, false), (40, true), (59, false), (60, true)],
      leaves (exec (.hbmTempPoll 15 t.1) (stacked 50)) (fun u => u.hbms[15].winDue.getLsbD 31 == t.2) = true) ∧
    (let s := stacked 50;
      (15 : StackId).val < s.stackCount ∧ s.clerk.deadDies.contains (dieOfStack 15) = false ∧ s.hbms[(15 : StackId)].hstate = .inService ∧
        (s.hbms[(15 : StackId)]).winFails[(4 : Fin 32)] = 0 ∧ (s.hbms[(15 : StackId)]).winFails[(5 : Fin 32)] = 1) := by
  decide +kernel

/-- A core and a stack with no record yet, one exactly a second after its record, and one a tick before. -/
theorem witness_MemoryStacksAct_rate :
    (let s := stacked 50
     (s.core 3).corrected.open_ s.power.ticks = true ∧ (s.hbms[(4 : StackId)]).corrected.open_ s.power.ticks = true) ∧
    (let s : State := { (stacked 50).updCore 3 (fun c => { c with corrected := ⟨2, some 0⟩ }) with
        power := { (stacked 50).power with ticks := 99999 } }
     (s.core 3).corrected.open_ s.power.ticks = false ∧ s.hasCore 3 = true ∧ s.dieHeld (dieOf 3) = false ∧
       s.holdsWord (.memory 0x800006000000) 3 = true ∧ (s.core 3).unavailable = false ∧
       (s.core 3).corrected.open_ (s.power.ticks + 1) = true) ∧
    (let s : State := (stacked 50).updStack 4 (fun x => { x with corrected := ⟨2, some s0.power.ticks⟩ })
     (s.hbms[(4 : StackId)]).corrected.open_ s.power.ticks = false ∧ s.stackAt 0x20000 = some (4, 16384) ∧
       s.stackDead 0x20000 = false) := by
  decide +kernel

/-! ### Witnesses: Cooldown and Taper -/

/-- A module with physical core 16 of die 0 (a spare) and core 3 changed. -/
def cooled (f : PCore → PCore) (g : Cooldown → Cooldown) : State :=
  let s : State := ((hosted id).updPCore 0 16 f).updPCore 0 3 f
  { s with cooldown := g s.cooldown }

theorem witness_CooldownAndTaper_hour :
    (let s := cooled (fun x => { x with owed := true, owedAt := 0 }) fun c => { c with phours := 167 };
      s.dark = false ∧ s.hasDie 0 = true ∧ (s.pcore 0 3).owed = true ∧ (s.pcore 0 3).pst = .active ∧
        s.cooldown.deadline.toNat ≤ (s.cooldown.phours + 1 - (s.pcore 0 3).owedAt).toNat) ∧
    (let s := cooled id fun c => { c with phours := 71 };
      (s.pcore 0 16).pst = .spare ∧ (s.pcore 0 16).test = none ∧ (s.pcore 0 16).due = none ∧ (s.pcore 0 16).owed = false ∧
        s.cooldown.interval.toNat ≤ (s.cooldown.phours + 1 - (s.pcore 0 16).lastPass).toNat) := by
  decide +kernel

/-- Intervals and deadlines at the ends of their ranges and one past them; a pattern store that is not staged yet. -/
theorem witness_CooldownAndTaper_registers :
    let s := hosted id
    s.barOpen 0 = true ∧
      (∀ v ∈ [(24, 1, true), (720, 720, true), (23, 1, false), (721, 1, false), (24, 0, false), (24, 721, false)],
        leaves (exec (.cdCfgWrite (BitVec.ofNat 64 (1 + v.1 <<< 16 + v.2.1 <<< 32))) s) (fun t =>
          t.cooldown.cfgErr == !v.2.2 && (t.cooldown.interval == BitVec.ofNat 16 v.1 && t.cooldown.deadline == BitVec.ofNat 16 v.2.1) == v.2.2)
          = true) ∧
      s.cooldown.staged = false ∧ s.cooldown.patternBad = false ∧ s.clerk.bstage = 12 := by
  decide +kernel

theorem witness_CooldownAndTaper_tests :
    (let s := cooled (fun x => { x with due := some 3 }) fun c => { c with staged := true };
      s.hasDie 0 = true ∧ s.dieOut 0 = false ∧ (∀ p ∈ [(3 : PCoreNo), 16], (s.pcore 0 p).test = none ∧ s.taken 0 p = false ∧
        (s.pcore 0 p).due = some 3) ∧ s.testsOn 0 < 2 ∧ s.cooldown.shutdown = false ∧
        (s.pcore 0 16).pst = .spare ∧ (s.pcore 0 3).serves = some 3 ∧ s.idleCore 3 = true ∧ s.rotating 3 = false ∧ (s.freeSlot 0).isSome = true) := by
  decide +kernel

theorem witness_CooldownAndTaper_phases :
    (∀ ph ∈ [(1 : BitVec 3), 2, 3, 4, 5],
      ∀ f ∈ [(0 : BitVec 4), 3],
      let t : CdTest := ⟨3, none, 7, 8, f, 0, 0⟩
      let s := cooled (fun x => { x with test := some t, phase := ph }) id
      (s.pcore 0 16).test = some t ∧ (s.pcore 0 16).phase = ph ∧ s.cooldown.shutdown = false ∧ t.slot = none ∧
        (s.pcore 0 16).serves = none) ∧
    (let s := cooled id fun c => { c with hub := some ⟨5, 0, 0, 0⟩ };
      s.cooldown.hub = some ⟨5, 0, 0, 0⟩ ∧ (⟨5, 0, 0, 0⟩ : RegionTest).failed = 0) := by
  decide +kernel

/-- Core 3 under test in phase 1, its image in a save slot of its die. -/
theorem witness_CooldownAndTaper_saved :
    let t : CdTest := ⟨3, some 1, 7, 8, 0, 0, 0⟩
    let v : SaveSlot := ⟨3, ⟨(s0.core 3).arch, [], []⟩, [], false⟩
    let s := (cooled (fun x => { x with test := some t, phase := 1 }) id).updDie 0 fun y => { y with saves := y.saves.set 1 (some v) }
    (s.pcore 0 3).test = some t ∧ (s.pcore 0 3).phase = 1 ∧ t.slot = some 1 ∧ (s.dies[(0 : DieId)]).saves[(1 : Fin 2)] = some v := by
  decide +kernel

theorem witness_CooldownAndTaper_samples :
    ∀ d ∈ [(0 : Fin 5), 3, 4], ¬ ((hosted id).dieCount ≤ d.val ∧ d.val < 4) ∧ (List.replicate 64 (9 : Byte)).length = 64 := by
  decide +kernel

/-! ### Witnesses: die links -/

/-- The bundles' lanes in use: data lanes 0-15, spares 16 and 17. -/
def lanesUsed : LaneSet := { LaneSet.reset with map := (List.finRange 18).take 16 }

/-- The link of die 3 with the state of its two ends. -/
def linked3 (f : LinkPort → LinkPort) : State :=
  (hosted id).updLink 3 fun l => { l with
    hub := f l.hub, die := f l.die, downLanes := Vector.replicate 12 lanesUsed, upLanes := Vector.replicate 12 lanesUsed }

/-- An end that offers a mask. -/
def masked (m : BitVec 12) : LinkPort :=
  ((linked3 fun x => { x with lstate := .widthAgree, ownmask := m }).link 3).at .die

theorem witness_DieLinkActs_training :
    (let s := linked3 fun x => { x with lstate := .sbInit };
      let x := (s.link 3).at .hub;
      s.dark = false ∧ s.hasDie 3 = true ∧ x.lstate = .sbInit ∧ x.training = .full ∧ x.pneg = none ∧
        s.clerk.deadDies.contains 3 = false ∧
        (negotiate (fdlCap .hub) (fdlCap .die)).isSome = true ∧ x.sb1 = false ∧ (s.link 3).hub.recoverFailed = false ∧
        (s.link 3).die.recoverFailed = false) ∧
    (masked 0x800).lstate = .widthAgree ∧ (masked 0x800).ownmask = 0x800 ∧ (masked 0x800).disagreed = [] ∧
    (masked 0x800).training = .full ∧ (masked 0x800).attempts < 3 ∧ (masked 0xFFF).ownmask = 0xFFF ∧ (0x801 : BitVec 12) ≠ 0x800 ∧
    ((0x801 : BitVec 12) &&& 0x800) ≠ 0 := by
  decide +kernel

/-- Test results that pass in every lane. -/
def allPass : List (BitVec 18) := List.replicate 12 0x3FFFF

theorem witness_DieLinkActs_phases :
    (let s := linked3 fun x => { x with lstate := .laneTest };
      ((s.link 3).at .die).lstate = .laneTest ∧ (∀ b : Fin 12, allPass.getD b 0 = 0x3FFFF) ∧
        (∀ (b : Fin 12) (i : Fin 18), s.flash.laneOut (laneNo 3 (rxUp .die) b i.val) = false)) ∧
    (let s := linked3 fun x => { x with lstate := .recover, training := .recover, attempts := 2 };
      ((s.link 3).at .die).lstate = .recover ∧ (s.link 3).hub.training = .recover ∧ (s.link 3).hub.lstate = .recover ∧
        (s.link 3).hub.attempts < 3 ∧ (s.link 3).die.attempts < 3) ∧
    (let s := linked3 fun x => { x with lstate := .calibrate };
      ((s.link 3).at .die).lstate = .calibrate ∧ ((s.link 3).at (otherEnd .die)).lstate = .calibrate ∧
        ((s.link 3).at .die).pmaskIn = none) := by
  decide +kernel

/-- A unit with a header of its own CRC, and one whose CRC is wrong. -/
def linkUnit (kind seq dest : Nat) (payload : List Byte) : LinkUnit :=
  let h : Word := BitVec.ofNat 64 (dest <<< 24 + kind <<< 30 + seq <<< 36)
  ⟨h ||| ((headerCrc h).zeroExtend 64 <<< 48), payload⟩

theorem witness_DieLinkActs_units :
    (∀ n ∈ [0, 4095],
      let u := linkUnit 0 n 4 (List.replicate 4104 0)
      let s := linked3 fun x => { x with lstate := .active, sendMask := 0x801, rxNext := BitVec.ofNat 12 n, txNext := BitVec.ofNat 12 n }
      let x := (s.link 3).at .hub
      let y := (s.link 3).at .die
      (s.link 3).up = true ∧ y.bundles = [0, 11] ∧ y.switch = none ∧ unitFormed .die u = true ∧ unitKind u = 0 ∧ y.resend = [] ∧ unitSeq u = y.txNext ∧ y.hasRoom u = true ∧
        hubCheckFails .hub u = false ∧ unitSeq u = x.rxNext ∧ x.held = [] ∧ x.asked = [] ∧ x.early = []) ∧
    (let s := linked3 fun x => { x with lstate := .recover }; (s.link 3).up = false) ∧ 16 * 256 < (List.replicate 4112 (0 : Byte)).length := by
  decide +kernel

/-- Acknowledgements that ask for nothing and for unit 6 of those kept. -/
theorem witness_DieLinkActs_acknowledgement :
    ∀ ask ∈ [6, 0xFFFFFFFF],
      let u := linkUnit 2 0 0 (natLe 4 5 ++ natLe 4 ask)
      let s := linked3 fun x => { x with lstate := .active, sendMask := 1, acks := [u], replay := [linkUnit 3 5 0 [], linkUnit 3 6 0 []] }
      let x := (s.link 3).at .die
      (s.link 3).up = true ∧ ((s.link 3).at .hub).bundles ≠ [] ∧ unitFormed .hub u = true ∧ unitKind u = 2 ∧ u ∈ ((s.link 3).at .hub).acks ∧
        BitVec.ofNat 12 (leNat (u.payload.take 4)) = (5 : BitVec 12) ∧ leNat (u.payload.drop 4) = ask ∧
        (x.replay.filter fun v => decide (2048 ≤ ((5 : BitVec 12) - unitSeq v).toNat)).map unitSeq = [6] ∧ 6 ∉ x.resend := by
  decide +kernel

/-- A message unit, the same with a lane error in its header at its first failure and at its second, and a replay buffer that is full. -/
def sendingMessage (asked full : Bool) : State :=
  linked3 fun x => { x with
    lstate := .active, wmask := 0xFFF, sendMask := 0xFFF, txNext := 3, rxNext := 3, asked := if asked then [⟨3, none, false⟩] else []
    replay := List.replicate (if full then 2048 else 0) (linkUnit 3 0 0 []) }

def message3 : LinkUnit :=
  let p := natLe 52 9
  linkUnit 1 3 0 (p ++ natLe 4 (crc32c (natLe 8 (linkUnit 1 3 0 []).header.toNat ++ p)).toNat)

theorem witness_DieLinkActs_header : ∀ asked ∈ [false, true],
    let s := sendingMessage asked false
    let l := s.link 3
    l.up = true ∧ unitFormed .die message3 = true ∧ unitKind message3 < 2 ∧ l.die.bundles ≠ [] ∧
      (match l.die.send .die message3 with
        | some y => y.bundles != [] && headerBad (crosses y.bundles l.die.txChunk [⟨0, 7, 0, 1⟩] message3)
        | none => false) = true ∧
      l.hub.asked.map (fun a => (a.useq, a.bib)) = if asked then [(unitSeq message3, false)] else [] := by
  decide +kernel

theorem witness_DieLinkActs_full :
    let y := (sendingMessage false true).link 3 |>.die
    y.resend = [] ∧ y.replay ≠ [] ∧ unitSeq message3 = y.txNext ∧ y.hasRoom message3 = false := by
  decide +kernel

theorem witness_DieLinkActs_message :
    let u := message3
    headerBad u = false ∧ u.payload.length = unitBytes (unitKind u) ∧ unitKind u = 1 ∧ messageBad u = false ∧
      hubCheckFails .die u = false := by
  decide +kernel

/-- Calibration in stride, without it, and an end that is reset or trained again. -/
theorem witness_DieLinkActs_calibration :
    ∀ dir ∈ [false, true],
      let s := linked3 fun x => { x with lstate := .active, wmask := 0xFFF, calen := true, neg := { LinkNeg.reset with nfeat := 0xFF } }
      let l := s.link 3
      (l.lanes dir 11).free = 16 :: [17] ∧ l.calibrates = true ∧ l.hub.instride = true ∧ l.hub.wmask.getLsbD 11 = true ∧
        l.away.getLsbD 11 = false ∧ (l.lanes dir 11).map.length = 16 ∧ (l.lanes dir 11).misses < 2 ∧
        l.up = true ∧ l.hub.widthChange = true ∧ l.away = 0 ∧
        ((s.updLink 3 fun l => { l with away := bundleBit 11 }).link 3).away.getLsbD 11 = true ∧
        77 ≤ (77 : Byte).toNat ∧ ((5 : BitVec 12) - l.hub.txNext).toNat < 2048 ∧ 5 ≠ l.hub.txNext := by
  decide +kernel

theorem witness_DieLinkActs_window :
    (let s := (linked3 fun x => { x with lstate := .active, wmask := 0xFFF, calen := true }).updLink 3 fun l => { l with away := bundleBit 11 };
      let l := s.link 3;
      l.calibrates = true ∧ l.byWindow 11 = true ∧ l.away.getLsbD 11 = true ∧
        (∀ d ∈ [false, true], (l.lanes d 11).map.length = 16 ∧ (∀ j ∈ (l.lanes d 11).map, (l.lanes d 11).fail.getLsbD j.val = false) ∧
          (15 : Fin 18) ∈ (l.lanes d 11).map ∧ (l.lanes d 11).map.Nodup ∧ (l.lanes d 11).free ≠ [])) ∧
    (let s := linked3 fun x => { x with
        lstate := .active, attempts := 2, record := some ⟨LinkNeg.reset, 0xFFF, [], []⟩, neg := { LinkNeg.reset with nfeat := 0xFF } };
      let x := (s.link 3).at .die;
      s.barOpen 0 = true ∧ x.lstate = .active ∧ x.fastFeature = true ∧ x.record.isSome = true ∧ x.attempts < 3 ∧
        ((s.link 3).at .hub).inTraining = false) ∧
    (let s := (linked3 fun x => { x with lstate := .active, wmask := 0x801, calen := true });
      (s.link 3).byWindow 11 = true ∧ (s.link 3).away = 0 ∧ (s.link 3).calibrates = true) := by
  decide +kernel

/-! ### Witnesses: the fabric transport and the host port -/

/-- A frame of type DTYPE (R417): version 1, channel 7, from endpoint 13 for endpoint 11, PSN 5, SPORT 23, every port in PMASK,
with the CRC of its header and of a payload of zeros. -/
def frameOf (dtype n : Nat) : DxtFrame :=
  let crc := if dtype = 0 then 0xA82A8649 else if dtype = 1 then 0x4BE56381 else if dtype = 2 then 0xACD176FF else 0x5E9B9536
  ⟨BitVec.ofNat 256 (crc <<< 224 + 0xFFFFFFB80000000000000000000000000000000500000B00000D7001 + dtype <<< 8), List.replicate n 0,
    false, true, 3, 1⟩

/-- A peer whose channel 7 has a sequence state. -/
def peerOf (f : VcState → VcState) (g : Peer → Peer) : Peer :=
  g ((Peer.fresh 0).updVc 7 f)

/-- A module with endpoint 11 and the peer 13, its port 23 up. -/
def wired (x : Peer) : State :=
  hosted fun s => { s with
    dxt := { Dxt.reset with myep := 11, peers := [(13, x)], pfcen := true }
    ports := s.ports.set 23 { s.ports[(23 : PortId)] with pstate := .up } }

/-- The CRC of a block frame's header does not depend on its payload. -/
theorem frameCrc_block (h : BitVec 256) (p : List Byte) (b c : Bool) (m n : Nat)
    (hd : (⟨h, [], b, c, m, n⟩ : DxtFrame).dtype = 0) : frameCrc ⟨h, p, b, c, m, n⟩ = frameCrc ⟨h, [], b, c, m, n⟩ := by
  rw [frameCrc, if_pos (show (⟨h, p, b, c, m, n⟩ : DxtFrame).dtype = 0 from hd), frameCrc, if_pos hd]

/-- The CRC of a frame with 64 bytes of zeros, in three pieces. -/
theorem frameCrc_long (h : BitVec 256) (x y z : BitVec 32) (hd : (⟨h, List.replicate 64 0, false, true, 3, 1⟩ : DxtFrame).dtype ≠ 0)
    (hx : (natLe 28 (fld h 0 224)).foldl crcByte 0xFFFFFFFF = x) (hy : (List.replicate 32 0).foldl crcByte x = y)
    (hz : (List.replicate 32 0).foldl crcByte y = z) : frameCrc ⟨h, List.replicate 64 0, false, true, 3, 1⟩ = ~~~z := by
  rw [frameCrc, if_neg hd, show List.replicate 64 (0 : Byte) = List.replicate 32 0 ++ List.replicate 32 0 from rfl, crc32c,
    List.foldl_append, List.foldl_append, hx, hy, hz]

theorem frameCrc_message : frameCrc (frameOf 1 64) = ~~~0xB41A9C7E :=
  frameCrc_long _ 0x09EBEB16 0x0FEC1FDC _ (by decide +kernel) (by decide +kernel) (by decide +kernel) (by decide +kernel)

theorem frameCrc_capability : frameCrc (frameOf 3 64) = ~~~0xA1646AC9 :=
  frameCrc_long _ 0xB596CE56 0x676F04B4 _ (by decide +kernel) (by decide +kernel) (by decide +kernel) (by decide +kernel)

theorem frameBad_block (s : State) (n : Nat) : s.frameBad (frameOf 0 n) = s.frameBad (frameOf 0 0) := by
  rw [State.frameBad, State.frameBad, show frameCrc (frameOf 0 n) = frameCrc (frameOf 0 0) from
    frameCrc_block _ _ _ _ _ _ (by decide +kernel)]
  rfl

/-- A module whose peer 13 expects PSN 5 on channel 7. -/
def expecting5 : State := wired (peerOf (fun v => { v with rxNext := 5, owed := 14 }) id)

theorem witness_FabricTransportActs_block :
    expecting5.frameBad (frameOf 0 4104) = false ∧ (frameOf 0 4104).payload.length = frameBytes 0 ∧ (frameOf 0 4104).dtype = 0 ∧
      (frameOf 0 4104).fcsOk = true ∧ (frameOf 0 4104).linkLocal = false ∧ (frameOf 0 4104).src = 13 ∧ (frameOf 0 4104).vc = 7 ∧
      (frameOf 0 4104).psn = 5 := by
  rw [frameBad_block]
  exact ⟨by decide +kernel, List.length_replicate, by decide +kernel, rfl, rfl, by decide +kernel, by decide +kernel,
    by decide +kernel⟩

/-- The other frame types; then PSNs at the expected place, the last of the window, the first past it and the last ahead. -/
theorem witness_FabricTransportActs :
    expecting5.dark = false ∧ expecting5.twinPort 23 = false ∧ (23 : PortId).val < expecting5.portCount ∧ expecting5.attached 23 = true ∧
      expecting5.dxt.myep ≠ noEp ∧ expecting5.dxt.myep ≠ 13 := by
  decide +kernel

theorem witness_FabricTransportActs_message :
    let f := frameOf 1 64
    expecting5.frameBad f = false ∧ f.payload.length = frameBytes 1 ∧ f.dtype = 1 ∧ f.fcsOk = true ∧ f.linkLocal = false ∧
      f.src = 13 ∧ f.vc = 7 ∧ f.psn = 5 := by
  refine ⟨?_, by decide +kernel⟩
  rw [State.frameBad, frameCrc_message]
  decide +kernel

theorem witness_FabricTransportActs_acknowledgement :
    let f := frameOf 2 32
    expecting5.frameBad f = false ∧ f.payload.length = frameBytes 2 ∧ f.dtype = 2 ∧ f.fcsOk = true ∧ f.linkLocal = false ∧
      f.src = 13 ∧ f.vc = 7 ∧ f.psn = 5 := by
  decide +kernel

/-- The acknowledgement, on channel 0, of a probe sent on port 23. -/
theorem witness_FabricTransportActs_probe :
    let f : DxtFrame :=
      ⟨BitVec.ofNat 256 (0x5FF8C1B7 <<< 224 + 0xFFFFFFB80000000000000000000000000000000500000B00000D0201), List.replicate 32 0, false, true, 3, 1⟩
    let s := wired (peerOf id fun x => { x with probed := 0x800000 })
    s.frameBad f = false ∧ f.dtype = 2 ∧ f.vc = 0 ∧ f.src = 13 ∧
      ((((s.countFec 23 f).meetFrame 23 f).peer 13).any fun x => x.probed.getLsbD 23) = true := by
  decide +kernel

theorem witness_FabricTransportActs_capability :
    let f := frameOf 3 64
    expecting5.frameBad f = false ∧ f.payload.length = frameBytes 3 ∧ f.dtype = 3 ∧ f.fcsOk = true ∧ f.linkLocal = false ∧
      f.src = 13 ∧ f.vc = 7 ∧ f.psn = 5 := by
  refine ⟨?_, by decide +kernel⟩
  rw [State.frameBad, frameCrc_capability]
  decide +kernel

theorem witness_FabricTransportActs_sequence :
    let s := expecting5
    let x := ((((s.countFec 23 (frameOf 0 0)).meetFrame 23 (frameOf 0 0)).peer 13).getD (Peer.fresh 0))
    let v := x.vcs[(7 : Fin 8)]
    ((s.countFec 23 (frameOf 0 0)).meetFrame 23 (frameOf 0 0)).peer 13 = some x ∧ v.known 5 = false ∧ v.ahead 5 = 0 ∧ v.known 260 = false ∧ v.ahead 260 = 255 ∧
      v.ahead 261 = 256 ∧ v.ahead (5 + 0x7FFFFFFF) < 2 ^ 31 ∧ v.known (5 + 0x80000000) = true ∧ v.owed < 15 ∧ v.rxNext = 5 ∧
      v.bitmap = 0 ∧ v.held = [] ∧ x.probed.getLsbD 23 = false ∧ (∀ j : Fin 8, (x.vcs[j]).unacked = []) := by
  decide +kernel

/-- A frame that its port damaged, one of another version, and the rows that act for a peer and a port. -/
theorem witness_FabricTransportActs_rows :
    (let f := frameOf 0 4104;
      f.dtype = 0 ∧ { f with header := f.header + 1 }.dver ≠ 1) ∧
    (let g : TxFrame := ⟨9, some 23, 6, true, .msg (.permi ⟨5, 0, .perm 0⟩ (.count 1 0)), true, 0⟩;
      let x := peerOf (fun v => { v with owed := 1, unacked := [g] }) fun x => { x with capOwed := false };
      let s := wired x;
      s.peer 13 = some x ∧ (x.vcs[(7 : Fin 8)]).owed ≠ 0 ∧ (s.reaching 13).head? = some 23 ∧
        (x.vcs[(7 : Fin 8)]).unacked.find? (fun f => f.psn == 9) = some g ∧ g.port = some 23 ∧ g.sent = true ∧ g.tries < 7 ∧
        (23 : PortId) ∈ s.reaching 13 ∧ s.attached 23 = true) ∧
    (let x := peerOf id fun x => { x with marks := 0x800000 };
      let s := wired x;
      s.peer 13 = some x ∧ x.marks.getLsbD 23 = true ∧ x.capOwed = true ∧ s.dxt.pfcen = true ∧
        ({ s with dxt := { s.dxt with peers := [] } } : State).dxt.peers = [] ∧ (s.ports[(23 : PortId)]).kept = [] ∧
        s.paused 23 7 = false ∧ (s.updPort 23 fun x => { x with paused := 0xFF }).paused 23 7 = true) ∧
    (let s := (wired (Peer.fresh 0)).updPort 5 fun x => { x with pstate := .up };
      s.attached 23 = true ∧ s.firstAttached ≠ some 23) := by
  decide +kernel

/-- A full table: endpoint 13 is the least recently used of 65,536 quiet entries. -/
def fullTable : List (Nat × Peer) := (13, Peer.fresh 0) :: (List.range 65535).map fun i => (i + 14, Peer.fresh 1)

theorem fullTable_length : fullTable.length = 65536 := by
  rw [fullTable, List.length_cons, List.length_map, List.length_range]

theorem fresh_quiet (n : Nat) : (Peer.fresh n).quiet = true := by
  simp [Peer.fresh, Peer.quiet, VcState.reset]

theorem witness_FabricTransportActs_eviction :
    let s := { wired (Peer.fresh 0) with dxt := { (wired (Peer.fresh 0)).dxt with peers := fullTable } }
    s.peer 13 = some (Peer.fresh 0) ∧ peerMax ≤ s.dxt.peers.length ∧ (Peer.fresh 0).quiet = true ∧
      s.leastUsed (Peer.fresh 0) = true ∧ s.dxt.blocked = [] := by
  refine ⟨rfl, Nat.le_of_eq fullTable_length.symm, fresh_quiet 0, ?_, rfl⟩
  rw [State.leastUsed, List.all_eq_true]
  intro e he
  rw [Bool.or_eq_true]
  exact .inr (decide_eq_true (Nat.zero_le _))

theorem witness_FabricTransportActs_ports :
    (let s := hosted id;
      s.ports[(22 : PortId)].pstate = .training ∧ 10 ≤ s.clerk.bstage ∧ s.cooldown.shutdownDone = false ∧ s.barOpen 0 = true) ∧
    (wired (Peer.fresh 0)).ports[(23 : PortId)].pstate = .up ∧
    ((0x10000 : Word).getLsbD 16 = true ∧ (0 : Word).getLsbD 17 = false ∧ (0x20000 : Word).getLsbD 16 = false ∧
      (0x20000 : Word).getLsbD 17 = true) := by
  decide +kernel

/-- A module whose aperture covers device addresses from an offset of GiB on. -/
def apertured (aptb : BitVec 18) : State :=
  hosted fun s => { s with
    host := { s.host with bar4 := 10, aptb := aptb }, frames := [(0, ⟨false, 0, 0⟩), (63, ⟨false, 0, 2036⟩)] }

/-- Aperture accesses in each kind of memory, in a window that nothing maps, and at the end of the aperture. -/
theorem witness_HostPortActs_aperture :
    (let s := apertured 0;
      s.dark = false ∧ s.barOpen 2 = true ∧ s.host.aptb.toNat = 0 ∧ s.host.aperture = 2 ^ 40 ∧ s.place 0x3FFFFFC0 = .hbm ∧
        s.reachable 0x3FFFFFC0 64 = true ∧ 0x3FFFFFC0 % 64 = 0 ∧ s.reachable 0x3FFFFFC0 65 = false ∧
        s.reachable 0xFFFFFFFFFF 1 = false ∧ s.place 1 = .hbm ∧ s.hubReaches 0x3FFFFFC0 = true ∧ s.addrOut 0x3FFFFFC0 = false) ∧
    (let s : State := { apertured 0x20000 with clerk := { (apertured 0x20000).clerk with deadDies := [0] } };
      s.dark = false ∧ s.addrOut 0x800006000001 = true) ∧
    (let s := apertured 0x20000;
      s.host.aptb.toNat * 2 ^ 30 = 0x800000000000 ∧ s.place 0x800006000001 = .basin 3 1 ∧ s.hubReaches 0x800006000001 = true ∧ s.hubReaches (cisternBase 3) = true ∧
        s.hubReaches (istoreBase 3) = true ∧ s.reachable 0x800006000001 1 = true ∧
        s.place (cisternBase 3) = .cistern 3 0 ∧ Memory.wf (s.settle 3).mem = true ∧ Sparse.sorted (s.settle 3).bibs = true) := by
  decide +kernel

theorem witness_HostPortActs_istore :
    let s := apertured 0x20000
    s.place (istoreBase 3) = .istore 3 0 ∧ s.reachable (istoreBase 3) 1 = true ∧ (s.core 3).isStopped = true ∧
      ((s.updArch 3 fun a => { a with seq := { a.seq with phase := .issuing 0 } }).core 3).isStopped = false := by
  decide +kernel

theorem witness_HostPortActs_registers :
    (let s := apertured 0;
      s.barOpen 0 = true ∧ (0x400 : Word).toNat % 2 ^ 18 % 2 ^ s.host.bar4 = 0 ∧ (0x401 : Word).toNat % 2 ^ 18 % 2 ^ s.host.bar4 ≠ 0 ∧
        s.hasCore 63 = true ∧ s.dieHeld (dieOf 63) = false ∧ (s.core 63).isStopped = true ∧ (0xFFFC : BitVec 16).toNat % 4 = 0 ∧
        ((s.updArch 63 fun a => { a with seq := { a.seq with phase := .issuing 0 } }).core 63).isStopped = false) ∧
    (let c := copyCmd 1 1 1;
      let s := (tensored 5 c).updQueue 9 fun x => { x with begun := true };
      (s.queue 9).hostTransfer = true) := by
  decide +kernel

theorem witness_HostPortActs_link :
    (let s := hosted id;
      s.host.linkUp = true ∧ s.queues = [] ∧ s.host.pendingMsi = [] ∧ s.barOpen 1 = true ∧ s.dieOut 0 = false ∧
        ({ s with host := { s.host with d3hot := true } } : State).barOpen 1 = false ∧
        ({ s with host := { s.host with linkUp := false } } : State).host.linkUp = false) ∧
    (1 ≤ (1 : BitVec 4).toNat ∧ (6 : BitVec 4).toNat ≤ 6) := by
  decide +kernel

/-! ### Witnesses: the mailbox -/

/-- A module with endpoint 11, and bytes at device address 0x20000. -/
def mailed (bs : List Byte) (f : State → State) : State :=
  f ((hosted fun s => { s with
    dxt := { Dxt.reset with myep := 11 }
    frames := [(0, ⟨false, 0, 0⟩), (63, ⟨false, 0, 2036⟩)] }).wr 0x20000 bs)

theorem witness_MailboxCommandsAct :
    let s := mailed [] id
    let e : MbEnv := ⟨7, 0xFFFF, 2047, 4032, 0⟩
    s.dark = false ∧ s.barOpen 1 = true ∧ s.host.ready = true ∧ s.clerk.bstage = 12 ∧ s.clerk.recovery = false ∧
      s.clerk.foreign = false ∧ s.clerk.slots[e.slot].owned = false ∧ s.clerk.waiting = [] ∧ s.clerk.replies = [] ∧ e.seq ≠ 0 ∧ s.clerk.dieResets = [] ∧ e.len.toNat ≤ 4032 ∧
      s.host.linkUp = true ∧ s.events.held = [] := by
  decide +kernel

/-- Rings of the least and the greatest size, a queue to free and one that is ACTIVE. -/
theorem witness_MailboxCommandsAct_queues :
    (∀ n ∈ [4, 16],
      let s := mailed [] id
      (0 < classSize 5 ∧ 63 < classSize 1) ∧ firstFree 0 s.queueNumbers < 65536 ∧
        (s.allocate (s.ringMode 1 63) ((2 ^ n * 64 + 4095) / 4096) (fun _ => 0)).isSome = true) ∧
    (q9 (headed 5 0 .idle 0)).qstate = .idle ∧ (q9 (headed 5 0 .halted 0)).qstate = .halted ∧
    ((q9 (headed 5 0 .active 0)).qstate ≠ .idle ∧ (q9 (headed 5 0 .active 0)).qstate ≠ .halted) ∧
    ((0x1000 : Word).toNat % 4096 = 0 ∧ 6 ≤ (6 : Byte).toNat ∧ (20 : Byte).toNat ≤ 20 ∧ (2047 : BitVec 16).toNat < 2048) := by
  decide +kernel

/-- The record of group 4095 whose only member is this module. -/
def groupBytes : List Byte := natLe 2 4095 ++ natLe 2 0 ++ [0] ++ natLe 8 0 ++ natLe 2 0 ++ natLe 3 11 ++ natLe 3 0xFFFFFF

theorem witness_MailboxCommandsAct_groups :
    let s := mailed groupBytes id
    (s.groupRec 0x40000000).isSome = false ∧ s.baton.waiting = [] ∧ (∀ j : Fin 8, (s.fab j).valid = false) ∧
      (match s.groupRec 0x20000 with
        | some r => r.number == 4095 && !s.badGroup r && r.rankOf 11 == 0 && (match s.placeSlots 4095 r.members.length with
            | some (_, base) => decide (base + r.members.length ≤ slotMax)
            | none => false)
        | none => false) = true ∧
      s.groupActive 4095 = false := by
  decide +kernel

theorem witness_MailboxCommandsAct_queries :
    (let s := tensored 5 0;
      s.handle 0xFFF00001 = some tensor ∧ s.handle 0 = none ∧ (Sparse.find s.frames (tensor.first / frameBlocks)).isSome = true) ∧
    (let x := { Peer.fresh 0 with cap := some (List.replicate 64 0) };
      let s := mailed [] fun s => { s with dxt := { s.dxt with peers := [(13, x)] } };
      s.peer 13 = some x ∧ x.cap = some (List.replicate 64 0)) ∧ (List.replicate 64 (0 : Byte)).length = 64 := by
  decide +kernel

/-- Guards off, and replay and comparison on at the ends of the interval. -/
theorem witness_MailboxCommandsAct_guard :
    ∀ x ∈ [(0, 0, 0), (1, 1, 1), (1, 1, 4096)],
      let s := mailed (natLe 64 (x.2.2 <<< 195 + x.1 <<< 229 + x.2.1 <<< 230 + 5 <<< 212)) fun s =>
        { s with baton := { s.baton with groups := [(5, group5)] } }
      let p : BitVec 512 := BitVec.ofNat 512 (s.rdDevNat 0x20000 64)
      s.guard.replaying = none ∧ s.stepPhase = .idle ∧ s.reachable 0x20000 64 = true ∧ s.queues = [] ∧ fld p 48 16 = 0 ∧
        fld p 77 118 = 0 ∧ fld p 208 4 = 0 ∧ fld p 224 5 = 0 ∧ fld p 256 256 = 0 ∧ p.getLsbD 230 = (x.2.1 == 1) ∧
        fld p 195 13 = x.2.2 ∧ (s.group (p.extractLsb' 212 12)).valid = true ∧ fld p 64 13 = 0 ∧ p.getLsbD 231 = false ∧
        (s.digList (fld p 0 48) (fld p 64 13)).isSome = true := by
  decide +kernel

/-- Requests for tests, rotations and resets; limits at their ends and past them. -/
theorem witness_MailboxCommandsAct_cores :
    (let s := mailed [] id;
      let masks : Vector (BitVec 32) 4 := Vector.replicate 4 0x30000;
      (∀ d : DieId, masks[d].toNat < 2 ^ 18 ∧ (s.hasDie d = false → masks[d] = 0)) ∧ masks[(3 : DieId)].getLsbD 17 = true ∧
        (s.pcore 3 17).pst = .spare ∧ (s.pcore 3 17).test = none ∧ (s.pcore 3 17).due = none ∧ (s.pcore 3 17).owed = false ∧
        s.hasCore 63 = true ∧ (s.core 63).unavailable = false ∧
        ((s.updCore 63 fun c => { c with unavailable := true }).core 63).unavailable = true ∧
        s.hasDie 3 = true ∧ (s.link 3).hub.lstate ≠ .failed ∧ (s.link 3).die.lstate ≠ .failed ∧
        ({ s with fuses := { s.fuses with gy4 := false } } : State).hasDie 3 = false) := by
  decide +kernel

theorem witness_MailboxCommandsAct_limits :
    let s := mailed [] id
    let l (cap floor ramp : Nat) : Limits := ⟨BitVec.ofNat 16 cap, BitVec.ofNat 16 floor, BitVec.ofNat 16 ramp, BitVec.ofNat 16 cap⟩
    s.limitsOk (l s.capMin 0 50) = true ∧ s.limitsOk (l s.capMax s.floorMax 2000) = true ∧ s.floorMax + 200 ≤ s.capMax ∧
      s.limitsOk (l (s.capMin - 1) 0 50) = false ∧ s.limitsOk (l (s.capMax + 1) 0 50) = false ∧
      s.limitsOk (l s.capMin (s.floorMax + 1) 50) = false ∧ s.limitsOk (l s.capMin 0 49) = false ∧
      s.limitsOk (l s.capMin 0 2001) = false := by
  decide +kernel

/-- The other firmware slot: good when slot B runs, empty when slot A does; a trial of slot B. -/
theorem witness_MailboxCommandsAct_firmware :
    (let s := mailed [] fun s => { s with clerk := { s.clerk with slot := true, trial := true } };
      slotFault s.fuses (s.flash.slot (!s.clerk.slot)) = none ∧ s.clerk.trial = true ∧ s.running.pristine = false) ∧
    (let s := mailed [] id;
      (slotFault s.fuses (s.flash.slot (!s.clerk.slot))).isSome = true ∧ s.clerk.trial = false ∧
        s.flash.bootRec.bpend ≠ some (!s.clerk.slot) ∧ (0x3FFF000 : BitVec 32).toNat % 4096 = 0 ∧
        (0x3FFF000 : BitVec 32).toNat + (0x1000 : BitVec 32).toNat ≤ 2 ^ 26) := by
  decide +kernel

/-- A service token for all marks that the device's own tool signed: what the signature check must say is left to the hypothesis. -/
theorem witness_MailboxCommandsAct_token
    (h : ∀ key body sig, Config.slhVerify key body sig = true) :
    let body := natLe 8 s0.fuses.serial.toNat ++ [0xFF] ++ natLe 3 0 ++ natLe 4 1 ++ natLe 16 0
    let s := mailed [] fun s => { s with hostMem := Memory.setBytes [] 0 body }
    let token := Memory.bytes s.hostMem 0 16256
    Config.slhVerify (s.running.bytes 576 48) (token.take 32) (token.drop 32) = true ∧
      leNat ((Memory.bytes s.hostMem 0 32).take 8) = s.fuses.serial.toNat ∧
      s.flash.tokens.toNat < leNat (((Memory.bytes s.hostMem 0 32).drop 12).take 4) ∧
      (((Memory.bytes s.hostMem 0 32).drop 9).take 3 ++ (Memory.bytes s.hostMem 0 32).drop 16).all (fun b => b == 0) = true ∧
      (0xFF : Byte) &&& ~~~((Memory.bytes s.hostMem 0 32).getD 8 0) = 0 :=
  ⟨h _ _ _, by decide +kernel⟩

/-- A header that no command lists, a busy slot written, and a reply that ends with a reset. -/
theorem witness_MailboxCommandsAct_slots :
    (let h : Word := 0xFF00010001;
      let s := mailed [] id;
      h.getLsbD 0 = true ∧ headerRefused h = true ∧
        s.stageServes ⟨7, h.extractLsb' 16 16, h.extractLsb' 5 11, h.extractLsb' 32 8, .unlisted⟩ = true ∧
        headerRefused 0x100000001 = true ∧ headerRefused 0x100010001 = false) ∧
    (let s := (mailed [] id).updSlot 7 fun x => ⟨mbHeader 0 0 1 1 0 true, x.payload⟩;
      s.clerk.slots[(7 : Fin 8)].owned = true ∧ s.clerk.slots[(6 : Fin 8)].owned = false ∧ 0x40 ≤ (0x40 : BitVec 12).toNat ∧
        (0xFFF : BitVec 12).toNat + [(0 : Byte)].length ≤ 4096) ∧
    (∀ a ∈ [(AfterReply.none, false), (.moduleReset, false), (.dieReset 3, false), (.moduleReset, true), (.program true 0 [], false), (.commit true, false)],
      let r : Reply := ⟨7, 1, 2047, 0x40, false, ST_OK, [], a.1, a.2⟩
      let u : State := mailed [] fun s => s.updClerk fun c => { c with replies := [r] }
      u.dark = false ∧ u.clerk.replies = [r] ∧ u.clerk.waiting = [] ∧ u.guard.absorbed = [] ∧ Sparse.sorted u.frames = true ∧ r.cmd ≠ 0x41 ∧
        (let n := u.frameCount - 1;
          let v : State := { u with frames := [(n, ⟨false, 3, 2036⟩)] };
          1073741824 * n < 2 ^ 41 ∧ Sparse.find v.frames (1073741824 * n / 2 ^ 30) = some ⟨false, 3, 2036⟩ ∧
            Sparse.sorted v.frames = true ∧ v.frameCount - v.dieCount ≤ n)) ∧
    ((0 : Word).getLsbD 0 = false) := by
  decide +kernel

/-! ### Witnesses: power, starts and every step -/

/-- A module at a boot step. -/
def booting (n : Nat) (f : State → State) : State := f { s0 with clerk := { s0.clerk with bstage := n } }

theorem witness_BootAndPowerAct_starts :
    (∀ x ∈ [Stage.step 1 0, .step 5 4, .retry], x.starting = true) ∧ Stage.starting .off = false ∧ s0.dark = false ∧
      Sparse.sorted s0.frames = true ∧
      (booting 1 id).clerk.bstage = 1 ∧
      (let s := booting 4 id; s.clerk.bstage = 4 ∧ s.coolantForBoot = false ∧ s.clerk.waiting = [] ∧ s.flash.badCopies = [] ∧
        ({ s with power := { s.power with last := { PowerReading.none with flow := 400, inlet := 4500 } } } : State).coolantForBoot = true) ∧
      ((booting 4 id).clerk.bstage = 4 ∧ (booting 4 id).clerk.waiting = []) ∧
      (booting 7 id).clerk.bstage = 7 ∧ (0 : StackId).val < s0.stackCount ∧ (s0.hbms[(0 : StackId)]).hstate = .training ∧
      (let s := booting 11 id; s.clerk.bstage = 11 ∧ s.clerk.foreign = false ∧ s.svc[3] = none ∧ s.clerk.late = [] ∧
        s.flash.badCopies = [] ∧ s.cooldown.cut = [] ∧ s.cooldown.cutAreas = [] ∧ s.clerk.waiting = []) := by
  decide +kernel

/-- Three links trained and one failed. -/
theorem witness_BootAndPowerAct_links :
    let s := booting 6 fun s => { s with links := Vector.ofFn fun d : Fin 4 =>
      let x : LinkPort := { LinkPort.reset with lstate := if d = 3 then .failed else .active }
      { DieLink.reset with hub := x, die := x } }
    s.clerk.bstage = 6 ∧ s.linksSettled = true ∧ s.someLink = true := by
  decide +kernel

theorem witness_BootAndPowerAct_faults :
    s0.hasDie 3 = true ∧ s0.clerk.deadDies.contains 3 = false ∧ (5 ≤ (8 : Fin 13).val ∧ (3 : DieId).val = ((8 : Fin 13).val - 5) % 4) ∧
      (5 ≤ (12 : Fin 13).val ∧ (3 : DieId).val = ((12 : Fin 13).val - 5) % 4) ∧ s0.power.pstop = false ∧
      s0.causePresent (.dieHotspot 3) = true ∧ s0.causePresent (.stack 0) = true ∧ (booting 4 id).clerk.limitStage < 5 ∧
      (let s := booting 12 id; s.clerk.bstage = 12 ∧ s.clerk.shutdown = false ∧ s.hotspot PowerReading.none = false ∧
        s.hotspot { PowerReading.none with hubHot := 1000 } = true) ∧
      ({ s0 with clerk := { s0.clerk with modFault := true } } : State).power.stage = .on := by
  decide +kernel

theorem witness_BootAndPowerAct_supply :
    (let s : State := { s0 with power := { s0.power with pwren := false } }; s.power.pwren = false) ∧
    (let s : State := { s0 with power := { s0.power with stage := .off } };
      s.power.stage = .off ∧ s.power.pwren = true ∧ s.power.latchedOff = false) ∧ s0.power.stage ≠ .off := by
  decide +kernel

/-- A module with a byte of memory listed. -/
theorem witness_StepsKeepMemoriesCanonical :
    let s : State := s0.wr 0x20000 [1]
    s.canonical ∧ Memory.byte s.mem 0x20000 = 1 ∧ ∃ t, step s = Next t := by
  refine ⟨⟨by decide +kernel, by decide +kernel, by decide +kernel, by decide +kernel, ?_, ?_⟩, by decide +kernel, _, rfl⟩
  · intro b hb
    rcases hb with hb | hb <;> cases hb
  · intro d i v hv
    have h : ∀ (d : DieId) (i : Fin 2), (s0.wr 0x20000 [1]).save d i = none := by decide +kernel
    rw [h] at hv
    cases hv

/-! ### Words written out from the spec's encodings (R130, R131, R147, R166, R174, R178, R189, R191, R193) -/

/-- ADD s1, s2, s3: `OP` 0x01, `SD` 1, `SA` 2, `SB` 3. -/
theorem test_scalar_word_add : ScalarOp.decode 0x0108860000000000 = some (.alu .add 1 2 (.reg 3)) := by decide +kernel

/-- RDCR of `CYC` is listed, WRCR of it is not (R175). -/
theorem test_scalar_word_rdcr :
    ScalarOp.decode 0x4008000200000000 = some (.rdcr 1 2) ∧ ScalarOp.decode 0x4100800200000000 = none := by
  decide +kernel

/-- VADD v1, v2, v31 over A32; the same with a row of memory at s4 - 64 as the second operand. -/
theorem test_vector_word_vadd :
    VecOp.decode 0x0108BE050000000000000000 = some (.bin .add 5 1 2 (.reg 31)) ∧
      VecOp.decode 0x010880032000040000FFFFC0 = some (.bin .add 3 1 2 (.row 4 0xFFFFC0)) := by
  decide +kernel

/-- MLEND from s7, descriptor offset 1, tile 63, lead 15. -/
theorem test_matrix_word_mlend : MatOp.decode 0x03380001FC1E00000000000000000000 = some (.mlend 7 1 63 15) := by decide +kernel

/-- LDD s4 at s5 - 8; LDV of 1 KiB, and with `SIZE` 6, which is unlisted. -/
theorem test_load_words :
    LoadOp.decode 0x04216F0000FFFFFFFFF8 = some ⟨.d, 4, 5, 47, 0, -8⟩ ∧ LoadOp.decode 0x08310700050000000000 = some ⟨.v, 6, 4, 7, 5, 0⟩ ∧
      LoadOp.decode 0x08310700060000000000 = none := by
  decide +kernel

theorem test_store_word_stv : StoreOp.decode 0x0831C000050000000040 = some ⟨.v, 6, 7, 0, 5, 64⟩ := by decide +kernel

/-- WATCH of the example of R196; a fabric barrier of context 7, and of context 8, which is unlisted (R195). -/
theorem test_sync_words :
    SyncOp.decode 64 0x2070C980000A = some (.watch 2 3 7 3 10) ∧ SyncOp.decode 64 0x28003C400007 = some (.bar 15 2 7) ∧
      SyncOp.decode 64 0x28003C400008 = none := by
  decide +kernel

/-- BRC of bit 63 of s6 would test a bit: `COND` EQ takes no `BITN`; LOOP of 65,535 passes to bundle 9. -/
theorem test_flow_words :
    FlowOp.decode 2 false 0x1F819FFF = none ∧ FlowOp.decode 2 false 0x19FFF = some (.brc 6 false 0 0 8191) ∧
      FlowOp.decode 3 false 0x1FFFE0000009 = some (.loop false 65535 0 9) := by
  decide +kernel

/-- The two bundles of the example of R196. -/
theorem test_bundles_of_example_R196 :
    Bundle.decode 64
        0x2070C980000A00000000000000000000083107000500000000000000000000000000000000000000000000000000000000000000000000000000000000001401 =
        some ⟨none, none, none, some ⟨.v, 6, 4, 7, 5, 0⟩, none, some (.watch 2 3 7 3 10), .next, 1⟩ ∧
      Bundle.decode 64 0x8000000000000180 = some ⟨none, none, none, none, none, none, .wait 2, 0⟩ := by
  decide +kernel

/-- The table gives no row any bits: no word spells a command. -/
theorem test_no_word_spells_a_command : decodeTableWord 64 0 = none ∧ s0.withFetchWord 64 0 = s0 := ⟨rfl, rfl⟩

/-! ### Well-formed commands: one ill-formed term for each check -/

theorem test_ill_formed_slot_operations :
    (Instr.rdcr 0 1 3).wf = false ∧ (Instr.wrcr 0 1 2).wf = false ∧ (Instr.vmaxmag 0 7 1 2 (.reg 3)).wf = false ∧
      (Instr.vcmp 0 5 6 1 2 (.reg 3)).wf = false ∧ (Instr.ldb 0 1 2 48 0).wf = false ∧ (Instr.ldvw 0 1 2 0 3 0).wf = false ∧
      (Instr.stv 0 1 2 0 6 0).wf = false ∧ (Instr.watch 0 0 0 0 4 0).wf = false ∧ (Instr.bar 0 0 2 8).wf = false ∧
      (Instr.brc 0 1 false 0 1 0).wf = false ∧ (Instr.loop 0 true 1 2 0).wf = false := by
  decide +kernel

theorem test_ill_formed_shapes :
    (Instr.matrixRowWrite 0 (some ⟨0, 0, []⟩)).wf = false ∧ (Instr.batonBlockArrival 0 0 0 [] 0 ⟨false, none⟩).wf = false ∧
      (Instr.twinBucketDigest ⟨0, .none⟩ 0 0 []).wf = false ∧ (Instr.twinStepDigest []).wf = false ∧
      (Instr.hbmBlockRead 0 [(0, .corrected 0)]).wf = false ∧ (Instr.patrolScrub 0 [(0, .uncorrectable 0 [])]).wf = false ∧
      (Instr.hbmBlockWrite 0 [] 0).wf = false ∧ (Instr.hbmCodewordWrite 0 [0]).wf = false ∧
      (Instr.dxtBlockFrame 0 ⟨0, [], false, true, 0, 0⟩).wf = false ∧ (Instr.apertureRead 0 0).wf = false ∧
      (Instr.apertureWrite 0 []).wf = false ∧ (Instr.mailboxOwnedWrite 0 0xFFF [0, 0]).wf = false ∧
      (Instr.taperSample 0 []).wf = false ∧ (Instr.linkPhaseEnd 0 .hub (List.replicate 13 0)).wf = false ∧
      (Instr.batonHandshake ⟨0, 0, 0, .perm 0, 0, 0, 1, 0, [], (0, 0), false⟩).wf = false ∧ (Instr.replayHoldEnd 0 (some (0, ⟨0, 0, []⟩))).wf = false := by
  decide +kernel

theorem test_well_formed :
    (Instr.rdcr 0 1 2).wf = true ∧ (Instr.bar 0 0 2 7).wf = true ∧ (Instr.hbmCodewordWrite 0 (List.replicate 64 0)).wf = true := by
  decide +kernel

/-! ### Worked examples of the spec -/

/-- Block 0 of the G8 example of R52: its fine exponent, its codes, and what they decode to. -/
theorem test_g8_block_of_the_example :
    (let c := a32Val 0x3D800000;
      autoFine FFmt.g8 c (blockMag ([0x41200000, 0x3E99999A, 0x40E00000, 0xB8D1B717].map a32Val)) = -1 ∧
        [0x41200000, 0x3E99999A, 0x40E00000, 0xB8D1B717].map (fun x => encodeScaled FFmt.g8 (a32Val x) (-1) c) =
          [(0x7A, false), (0x52, false), (0x76, false), (0x82, false)] ∧
        [0x52, 0x82, 0x7A, 0x76].map (fun x => decodeScaled FFmt.g8 x (-1) c) = [0x3EA00000, 0xB9000000, 0x41200000, 0x40E00000] ∧
        autoFine FFmt.g8 c (blockMag ([0x42200000, 0x41D80000].map a32Val)) = 0 ∧
        [0x42200000, 0x41D80000].map (fun x => encodeScaled FFmt.g8 (a32Val x) 0 c) = [(0x7E, true), (0x7E, false)]) := by
  decide +kernel

theorem test_g4_row_of_the_example :
    (let c := a32Val 0x3F800000;
      let xs : List Lane := [0x40266666, 0xBFA00000, 0xBDCCCCCD];
      autoFine FFmt.g4 c (blockMag (xs.map a32Val)) = -1 ∧
        xs.map (fun x => encodeScaled FFmt.g4 (a32Val x) (-1) c) = [(0b0111, false), (0b1100, false), (0, false)] ∧
        [0b0111, 0b1100, 0].map g4ToG8 = [0x4C, 0xC0, 0x00]) := by
  decide +kernel

/-- Narrowing to G16 of the example of R54. -/
theorem test_g16_narrowing_of_the_example :
    [0x3F808000, 0x3F818000, 0x3F808001, 0x7F7FFFFF].map (fun x => toG16 (a32Val x)) = [0x3F80, 0x3F82, 0x3F81, 0x7F80] := by
  decide +kernel

/-- The six weights of the example of R124. -/
theorem test_tail_updates_of_the_example :
    [(0x3F80, 0x00, 0x38000001), (0x3FFF, 0x40, 0x3C000000), (0x4000, 0x21, 0xBC000000), (0x3F80, 0x00, 0x3B800000),
        (0x3F80, 0x05, 0x7F800000), (0xBF80, 0x10, 0x7FC00000)].map (fun x => tailUpdate x.1 x.2.1 x.2.2) =
      [(0x3F80, 0x01, false), (0x4000, 0x20, false), (0x3FFF, 0x42, false), (0x3F80, 0x7F, true), (0x7F80, 0x00, true),
        (0x7FC0, 0x00, true)] := by
  decide +kernel

/-- The two Pacer updates of the examples of R121 and R116: `SCALE`, `MEST`. -/
theorem test_pacer_examples :
    (paceUpdate true ((paceRecord 0 0 1 0 1 false false).toNat) 0x40400000 0).map (fun r => (r.extractLsb' 96 32, r.extractLsb' 64 32)) =
      some (0x3C924925, 0x40400000) ∧
    (paceUpdate false ((paceRecord 0x40124925 0x43960000 1 63 1 false true).toNat) 0x43480000 0).map
        (fun r => (r.extractLsb' 96 32, r.extractLsb' 64 32)) = some (0x3F924925, 0x438FA3F7) := by
  decide +kernel

/-- The sums of column 1 of the example of R98: an overflow, and its rerun at 2^-32. -/
theorem test_dot_product_of_the_example :
    (let x : List FVal := [0x4040, 0x7180, 0x3FC0, 0x4000].map g16Val;
      let w : List FVal := [0x3E80, 0x4D40, 0x7F00, 0xBF80].map g16Val;
      let ps := List.zipWith FVal.mul x w;
      ((ps.foldl (elemStep FFmt.a32) (elemOfCode FFmt.a32 0)).toCode FFmt.a32 = 0x7F800000) ∧
        ((ps.map fun p => p.scale (-32)).foldl (elemStep FFmt.a32) (elemOfCode FFmt.a32 0)).toCode FFmt.a32 = 0x6FC00000) ∧
    ((List.zipWith FVal.mul ([0x4040, 0x7180, 0x3FC0, 0x4000].map g16Val) ([0x3F80, 0x5380, 0x7FC1, 0x3F00].map g16Val)).foldl
      (elemStep FFmt.a32) (elemOfCode FFmt.a32 0)).toCode FFmt.a32 = 0x7FC00000 := by
  decide +kernel

/-- Stack 10, channel 9, column 13, bank 36 and row 64 of the example of R399. -/
theorem test_hbm_address_of_the_example :
    ({ hosted id with frames := [(5, ⟨false, 1, 8⟩)] } : State).stackAt 0x141234A40 = some (10, 0x10246A40) ∧
      stackLoc (0x10246A40 / 64) = ⟨9, 13, 36, 64⟩ := by
  decide +kernel

/-- `PCORE_STATE` of physical cores 2 and 3 of die 1, which serve logical cores 18 and 19 (R23). -/
theorem test_pcore_state : (hosted id).readReg 0x2010008 = 0x0000001300000012 := by decide +kernel

/-- The digest terms of the example of R341. -/
theorem test_digest_of_the_example :
    (let p := 3 * 2 ^ 20 + 5;
      (0x0123456789ABCDEF : Word) - digestTerm p 0x80000001 + digestTerm p 0x80000003 = 0x012345678A6BCE05) := by
  decide +kernel

/-- The neighbours of rank 13 in the 4 x 8 torus of the example of R284. -/
theorem test_torus_of_the_example :
    (let g : Group := { group5 with axm := ((Vector.replicate 4 0).set 0 3).set 1 7, naxm1 := 1, nrankm1 := 31, myrank := 13 };
      g.neighbour 13 1 1 = 17 ∧ g.neighbour 13 1 (g.axis 1 - 1) = 9) := by
  decide +kernel

/-- The check value of CRC-32C (R326). -/
theorem test_crc32c_check_value : crc32c ("123456789".toList.map fun c => BitVec.ofNat 8 c.toNat) = 0xE3069283 := by
  decide +kernel

end Sys2Proof.Tests
end

section
/-! SUPPORT. The state after reset, part by part, and the statement about it. -/

namespace Sys2Proof.Machine

/-! ### The parts of the module at reset -/

@[simp] theorem State.reset_core (k : CoreId) : State.reset.core k = Core.reset :=
  Vector.getElem_replicate k.isLt

@[simp] theorem State.reset_link (d : DieId) : State.reset.link d = DieLink.reset :=
  Vector.getElem_replicate d.isLt

@[simp] theorem State.reset_queue (q : Nat) : State.reset.queue q = Queue.disabled := rfl

theorem State.reset_dies (d : DieId) : State.reset.dies[d] = Die.reset d.val := by
  match d with
  | 0 | 1 | 2 | 3 => rfl

@[simp] theorem State.reset_save (d : DieId) (i : Fin 2) : State.reset.save d i = none := by
  rw [State.save, State.reset_dies]
  exact Vector.getElem_replicate i.isLt

@[simp] theorem State.reset_pcore (d : DieId) (p : PCoreNo) : State.reset.pcore d p = PCore.factory d.val p.val := by
  rw [State.pcore, State.reset_dies]
  exact Vector.getElem_ofFn p.isLt

@[simp] theorem Clerk.reset_slots (i : Fin 8) : Clerk.reset.slots[i] = MbSlot.reset :=
  Vector.getElem_replicate i.isLt

@[simp] theorem Clerk.reset_meas (i : Fin 8) : Clerk.reset.meas[i] = 0 :=
  Vector.getElem_replicate i.isLt

/-- Stopped also in the sense of R162: nothing is in flight. -/
theorem Core.reset_isStopped : Core.reset.isStopped = true := rfl

/-! ### The memories at reset -/

/-- Every memory at reset is empty or absent: no bank of the guard and no save slot holds an image yet. -/
theorem State.reset_canonical : State.reset.canonical := by
  have payloads (i : Fin 8) : Memory.wf State.reset.clerk.slots[i].payload = true :=
    (congrArg (fun m : MbSlot => Memory.wf m.payload) (Clerk.reset_slots i)).trans Memory.wf_nil
  have noBank : State.reset.guard.bank0 = none ∧ State.reset.guard.bank1 = none := ⟨rfl, rfl⟩
  refine ⟨Memory.wf_nil, Memory.wf_nil, Memory.wf_nil, payloads, ?_, ?_⟩
  · intro b hb
    simp [noBank] at hb
  · intro d i v hv
    simp at hv

/-- Settles O59, from the parts of the module at reset. -/
theorem resetIsAsStated : Obligations.ResetIsAsStated := by
  unfold Obligations.ResetIsAsStated
  refine ⟨State.reset_canonical, rfl, rfl, rfl, rfl, rfl, rfl, rfl, rfl, rfl, rfl, rfl, rfl, rfl, rfl, ?queues, ?clerk, ?links,
    ?cores, ?pcores⟩
  case queues => exact fun q => congrArg Queue.en (State.reset_queue q.val)
  case clerk => exact fun i => ⟨Clerk.reset_meas i, Clerk.reset_slots i⟩
  case links =>
    intro d
    rw [State.reset_link]
    exact ⟨rfl, rfl⟩
  case cores =>
    intro k
    rw [State.reset_core]
    exact ⟨Core.reset_isStopped, rfl⟩
  case pcores => exact fun d p => congrArg PCore.pst (State.reset_pcore d p)

end Sys2Proof.Machine
end

section
/-! PROOFS. The state's operations that STEPCLOSE and a rotation rest on: what the plan of the dies leaves alone, and how
physical cores read after an update. -/

namespace Sys2Proof.Machine

/-! ### Physical cores after an update -/

@[simp] theorem State.pcore_updPCore_same (s : State) (d : DieId) (p : PCoreNo) (f : PCore → PCore) :
    (s.updPCore d p f).pcore d p = f (s.pcore d p) := by
  simp [State.pcore, State.updPCore, State.updDie]

theorem State.pcore_updPCore_ne (s : State) (d : DieId) (p r : PCoreNo) (f : PCore → PCore) (h : p ≠ r) :
    (s.updPCore d p f).pcore d r = s.pcore d r := by
  simpa [State.pcore, State.updPCore, State.updDie] using vupd_ne s.dies[d].pcores p r f h

@[simp] theorem PCore.owe_lcore (x : PCore) (phours : BitVec 24) : (x.owe phours).lcore = x.lcore := by
  unfold PCore.owe
  split <;> rfl

/-- The core that a rotation takes out serves nothing any more (R19 step 4). -/
theorem PCore.leave_unmapped (x : PCore) (phours : BitVec 24) (reason : RotReason) :
    (x.leave phours reason).lcore = 0x7F ∧ (x.leave phours reason).pst ≠ .active := by
  cases reason with
  | overdue | service | twin => simp [PCore.leave]
  | restoreFailed i => simp [PCore.leave, PCore.retire]
  | coreFault =>
    by_cases hf : x.faulted = true
    · simp [PCore.leave, PCore.retire, hf]
    · simp [PCore.leave, hf]

/-! ### What a plan of the dies leaves alone -/

/-- The state but for what a plan of the dies can change: its reports with their interrupts, the ageing history, the Tapers, the service
marks and the tests that become due (R368, R370, R372). -/
def State.sansPlan (s : State) : State :=
  { s with
    irqs := [], hostMem := [], dies := State.reset.dies, events := Events.reset, host := HostPort.reset
    cooldown := Cooldown.reset, tapers := State.reset.tapers, svc := State.reset.svc }

/-- A fold of steps that each leave a part of the state alone leaves it alone. -/
theorem State.foldl_sansPlan {α : Type} (f : State → α → State) (l : List α) (s : State)
    (h : ∀ s x, (f s x).sansPlan = s.sansPlan) : (l.foldl f s).sansPlan = s.sansPlan := by
  induction l generalizing s with
  | nil => rfl
  | cons x l ih => exact (ih (f s x)).trans (h s x)

@[simp] theorem State.interrupt_sansPlan (s : State) (v : BitVec 11) : (s.interrupt v).sansPlan = s.sansPlan := by
  unfold State.interrupt
  split <;> rfl

@[simp] theorem State.ringPut_sansPlan (s : State) (r : EvRec) : (s.ringPut r).sansPlan = s.sansPlan := by
  unfold State.ringPut
  split
  · rfl
  · dsimp only
    split
    · rfl
    · split
      · rfl
      · exact State.interrupt_sansPlan _ _

@[simp] theorem State.emit_sansPlan (s : State) (evt sev die : Byte) (lcore : BitVec 7) (detail : Word) (addr : Nat) (p64 : Bool) :
    (s.emit evt sev die lcore detail addr p64).sansPlan = s.sansPlan := by
  unfold State.emit
  dsimp only
  split
  · exact State.ringPut_sansPlan _ _
  · split <;> rfl

@[simp] theorem State.age_sansPlan (s : State) (r : AgeRecord) : (s.age r).sansPlan = s.sansPlan := rfl

@[simp] theorem State.mark_sansPlan (s : State) (i : Fin 8) : (s.mark i).sansPlan = s.sansPlan := rfl

@[simp] theorem State.updPCore_sansPlan (s : State) (d : DieId) (p : PCoreNo) (f : PCore → PCore) :
    (s.updPCore d p f).sansPlan = s.sansPlan := rfl

@[simp] theorem State.makeDue_sansPlan (s : State) (d : DieId) (p : PCoreNo) (reason : Byte) :
    (s.makeDue d p reason).sansPlan = s.sansPlan := by
  unfold State.makeDue
  dsimp only
  split
  · rfl
  · split
    · split <;> rfl
    · rfl

@[simp] theorem State.taperOwes_sansPlan (s : State) (d : Fin 5) : (s.taperOwes d).sansPlan = s.sansPlan := by
  unfold State.taperOwes
  split
  · refine State.foldl_sansPlan _ _ _ fun s p => ?_
    split
    · exact State.makeDue_sansPlan _ _ _ _
    · rfl
  · rfl

@[simp] theorem State.plan_sansPlan (s : State) (d : Fin 5) : (s.plan d).sansPlan = s.sansPlan := by
  simp only [State.plan, apply_ite State.sansPlan, State.taperOwes_sansPlan, State.mark_sansPlan, State.emit_sansPlan, ite_self]
  rfl

@[simp] theorem State.planAll_sansPlan (s : State) (p : Fin 5 → Bool) : (s.planAll p).sansPlan = s.sansPlan := by
  refine State.foldl_sansPlan _ _ _ fun s d => ?_
  split
  · exact State.plan_sansPlan s d
  · rfl

theorem State.stepCtr_of_sansPlan {s t : State} (h : t.sansPlan = s.sansPlan) : t.stepCtr = s.stepCtr := congrArg (fun u => u.stepCtr) h

theorem State.skips_of_sansPlan {s t : State} (h : t.sansPlan = s.sansPlan) : t.skips = s.skips := congrArg (fun u => u.skips) h

theorem State.guard_of_sansPlan {s t : State} (h : t.sansPlan = s.sansPlan) : t.guard = s.guard := congrArg (fun u => u.guard) h

theorem State.queue_of_sansPlan {s t : State} (h : t.sansPlan = s.sansPlan) (q : Nat) : t.queue q = s.queue q :=
  congrArg (fun u => u.queue q) h

/-- The skip word is read from device memory, which no plan writes (R269). -/
theorem State.skipWord_of_sansPlan {s t : State} (h : t.sansPlan = s.sansPlan) (addr : Nat) : t.skipWord addr = s.skipWord addr :=
  congrArg (fun u => u.skipWord addr) h

end Sys2Proof.Machine
end

section
/-! PROOFS. STEPCLOSE and the end of a rotation (R18, R19, R269). -/

namespace Sys2Proof.Machine

/-! ### The head of a queue -/

theorem State.headFor_unfinished {s : State} {q opc : Nat} {c : BitVec 512} (h : s.headFor q opc = some c) : (s.queue q).fin = none := by
  unfold State.headFor at h
  dsimp only at h
  split at h
  · split at h
    · next hc => exact hc.2.2
    · cases h
  · cases h

theorem State.onHead_of_headFor {s : State} {q opc : Nat} {c : BitVec 512} (h : s.headFor q opc = some c)
    (f : BitVec 512 → State → State) : s.onHead q opc f = f c s := by
  rw [State.onHead, h]

/-- A head that has no result yet takes the one it is given. -/
theorem State.finish_unfinished {s : State} {q : Nat} (h : (s.queue q).fin = none) (st : Byte) (r : BitVec 384) :
    s.finish q st r = s.updQueue q fun x => { x with fin := some ⟨st, r⟩ } := by
  simp [State.finish, State.updQueue, h]

theorem State.fin_finish {s : State} {q : Nat} (h : (s.queue q).fin = none) (st : Byte) (r : BitVec 384) :
    ((s.finish q st r).queue q).fin = some ⟨st, r⟩ := by
  rw [State.finish_unfinished h, State.queue_updQueue_same]

/-! ### The skip word (R269) -/

theorem Memory.length_bytes (m : Memory) (a n : Nat) : (Memory.bytes m a n).length = n := by
  induction n generalizing a with
  | zero => rfl
  | succ n ih => exact congrArg (· + 1) (ih (a + 1))

/-- Stacks in service deliver the bytes that they hold (R409). -/
theorem State.rdDev_live (s : State) (a n : Nat) (h : ∀ i, i < n → s.stackDead (a + i) = false) : s.rdDev a n = s.rd a n := by
  unfold State.rdDev
  split
  · refine List.ext_getElem (by simp) fun i hi _ => ?_
    have hn : i < n := by simpa [State.rd, Memory.length_bytes] using hi
    simp [h i hn]
  · rfl

/-- The skip word counts where an address is given and the word there is not 0. -/
theorem State.skipWord_iff (s : State) (addr : Nat) (h : addr = 0 ∨ ∀ i, i < 4 → s.stackDead (addr + i) = false) :
    s.skipWord addr = true ↔ addr ≠ 0 ∧ leNat (Memory.bytes s.mem addr 4) ≠ 0 := by
  rcases h with rfl | h
  · simp [State.skipWord]
  · simp [State.skipWord, State.rdDevNat, s.rdDev_live addr 4 h, State.rd]

/-! ### The commit without a guard (R269) -/

/-- Without a guard nothing is saved and no digest is formed at the commit point (R335, R341). -/
theorem State.commitPoint_unguarded (s : State) (skip : Bool) (h : s.guard = Guard.reset) :
    ∃ g f, g.fden = false ∧ s.commitPoint skip = { s with guard := g, fabs := f } := by
  refine ⟨(s.commitPoint skip).guard, (s.commitPoint skip).fabs, ?_, ?_⟩ <;> simp [State.commitPoint, h, Guard.reset]

/-- What STEPCLOSE leaves of the step: the counters, the open handles, the phase, and the result of its head. -/
structure State.Committed (s t : State) (q : Nat) (skip : Bool) : Prop where
  stepCtr : t.stepCtr = s.stepCtr + 1
  skips : t.skips = if skip then s.skips + 1 else s.skips
  recent : t.handles.recent = []
  idle : t.stepPhase = .idle
  fin : (t.queue q).fin = some ⟨ST_OK, BitVec.ofNat 384 (t.stepCtr.toNat + t.skips.toNat * 2 ^ 64)⟩

theorem State.commit_unguarded (s : State) (q addr : Nat) (hg : s.guard = Guard.reset) (hq : (s.queue q).fin = none) :
    s.Committed (s.commit q addr) q (s.skipWord addr) := by
  obtain ⟨g, f, hfd, hp⟩ := s.commitPoint_unguarded (s.skipWord addr) hg
  obtain ⟨u, hu⟩ : ∃ u : State, u = { s with
      guard := g, fabs := f, stepCtr := s.stepCtr + 1, skips := if s.skipWord addr then s.skips + 1 else s.skips
      handles := { s.handles with recent := [] }, stepPhase := .idle } := ⟨_, rfl⟩
  have hc : s.commit q addr = u.finish q ST_OK (BitVec.ofNat 384 (u.stepCtr.toNat + u.skips.toNat <<< 64)) := by
    simp [State.commit, hp, hfd, hu]
  have huq : (u.queue q).fin = none := by rw [hu]; exact hq
  rw [hc]
  have hfin := State.fin_finish huq ST_OK (BitVec.ofNat 384 (u.stepCtr.toNat + u.skips.toNat <<< 64))
  rw [Nat.shiftLeft_eq] at hfin ⊢
  refine ⟨?_, ?_, ?_, ?_, hfin⟩ <;> (rw [hu]; rfl)

/-! ### STEPCLOSE -/

theorem State.stepRotations_none (s : State) (hd : ∀ d, s.overdueOf d = []) (hr : s.rotReq = []) : s.stepRotations = s := by
  have hfix : ∀ l : List DieId, l.foldl (fun s d => (s.overdueOf d).foldl (fun s x => s.rotateOverdue d x) s) s = s := by
    intro l
    induction l with
    | nil => rfl
    | cons d l ih => simpa [hd d] using ih
  rw [State.stepRotations, hfix]
  simp [hr]

/-- Without a guard the step is committed once its dies are planned: no twin and no rerun is waited for. -/
theorem State.closeStep_unguarded (s : State) (q addr : Nat) (hg : s.guard = Guard.reset) :
    s.closeStep q addr = (s.planAll fun _ => true).commit q addr := by
  have hp : (s.planAll fun _ => true).guard = Guard.reset := (State.guard_of_sansPlan (s.planAll_sansPlan _)).trans hg
  simp [State.closeStep, State.rerunOwes, hp, Guard.reset]

/-- The plan of the dies is no part of what the commit leaves of a step. -/
theorem State.Committed.of_sansPlan {s u t : State} {q : Nat} {skip : Bool} (hu : u.sansPlan = s.sansPlan) (h : u.Committed t q skip) :
    s.Committed t q skip :=
  ⟨State.stepCtr_of_sansPlan hu ▸ h.stepCtr, State.skips_of_sansPlan hu ▸ h.skips, h.recent, h.idle, h.fin⟩

theorem State.closeStep_commits (s : State) (q addr : Nat) (hg : s.guard = Guard.reset) (hq : (s.queue q).fin = none) :
    s.Committed (s.closeStep q addr) q (s.skipWord addr) := by
  have hp := s.planAll_sansPlan fun _ => true
  rw [State.closeStep_unguarded s q addr hg, ← State.skipWord_of_sansPlan hp addr]
  exact (State.commit_unguarded _ q addr ((State.guard_of_sansPlan hp).trans hg)
    ((congrArg Queue.fin (State.queue_of_sansPlan hp q)).trans hq)).of_sansPlan hp

/-- The first byte of the skip word that is not memory (R28). -/
def State.skipHole (s : State) (addr : Nat) : Option Nat :=
  (List.range 4).find? fun i => addr ≠ 0 && !(s.place (addr + i)).isMem

theorem State.skipHole_eq_some (s : State) (addr i : Nat) (ha : addr ≠ 0) (hi : i < 4) (hm : (s.place (addr + i)).isMem = false)
    (hf : ∀ j, j < i → (s.place (addr + j)).isMem = true) : s.skipHole addr = some i := by
  simpa [State.skipHole, List.find?_range_eq_some, ha, hi, hm] using hf

theorem State.skipHole_eq_none (s : State) (addr : Nat) (h : addr = 0 ∨ ∀ i, i < 4 → (s.place (addr + i)).isMem = true) :
    s.skipHole addr = none := by
  rcases h with rfl | h
  · rfl
  · simpa [State.skipHole] using fun i hi _ => h i hi

/-- STEPCLOSE of an idle step in a module without a guard: past the last step it fails, with a hole in its skip word it ends there, and
otherwise the step's rotations begin. -/
theorem exec_stepclose {s : State} {q : QId} {c : BitVec 512} (hd : s.dark = false) (hh : s.headFor q.val 0x54 = some c)
    (hb : (s.queue q.val).begun = false) (hp : s.stepPhase = .idle) (hg : s.guard = Guard.reset) :
    exec (.stepclose q) s = Next (
      if s.stepCtr = 0xFFFFFFFFFFFF then s.fail q.val ST_STEP_END
      else match s.skipHole (opf c 0 48) with
        | some i => s.finish q.val ST_UNMAPPED (unmappedResult (opf c 0 48 + i))
        | none => ({ (s.begin q.val).stepRotations with stepPhase := .rotating q.val (opf c 0 48) } : State).closeIfRotated) := by
  have hr : s.guard.replaying = none := by rw [hg]; rfl
  have hx : exec (.stepclose q) s = execStepclose q s := rfl
  rw [hx, execStepclose, always, State.unlessDark_lit s _ hd, State.onHead_of_headFor hh]
  have hidle : ¬ ((s.queue q.val).begun = true ∨ s.stepPhase ≠ .idle ∨ s.guard.replaying.isSome = true) := by simp [hb, hp, hr]
  exact congrArg Host.Outcome.next ((if_neg hidle).trans rfl)

/-- With no rotation to make, a step that can end is committed at once. -/
theorem exec_stepclose_commits {s : State} {q : QId} {c : BitVec 512} (hd : s.dark = false) (hh : s.headFor q.val 0x54 = some c)
    (hb : (s.queue q.val).begun = false) (hp : s.stepPhase = .idle) (hg : s.guard = Guard.reset)
    (hctr : s.stepCtr ≠ 0xFFFFFFFFFFFF) (hhole : s.skipHole (opf c 0 48) = none) (hrot : s.rotations = []) (hreq : s.rotReq = [])
    (hover : ∀ d, s.overdueOf d = []) :
    ∃ t, exec (.stepclose q) s = Next t ∧ s.Committed t q.val (s.skipWord (opf c 0 48)) := by
  let u : State := { s.begin q.val with stepPhase := .rotating q.val (opf c 0 48) }
  have hu : ({ (s.begin q.val).stepRotations with stepPhase := .rotating q.val (opf c 0 48) } : State).closeIfRotated =
      u.closeStep q.val (opf c 0 48) := by
    rw [(s.begin q.val).stepRotations_none hover hreq]
    have hnone : (s.begin q.val).rotations.any (·.step) = false := by
      change s.rotations.any _ = false
      rw [hrot]; rfl
    simp [State.closeIfRotated, hnone, u]
  have hfin : (u.queue q.val).fin = none := by
    change ((s.begin q.val).queue q.val).fin = none
    rw [State.begin, State.queue_updQueue_same]
    exact State.headFor_unfinished hh
  obtain ⟨h1, h2, h3, h4, h5⟩ := u.closeStep_commits q.val (opf c 0 48) hg hfin
  refine ⟨_, ?_, h1, h2, h3, h4, h5⟩
  rw [exec_stepclose hd hh hb hp hg, if_neg hctr, hhole]
  exact congrArg Host.Outcome.next hu

/-! ### The end of a rotation's copy (R19) -/

/-- No core waits for the rotation's end, and nothing of a replay does. -/
theorem State.afterRotation_idle (s : State) (hr : s.guard.replaying = none) (hf : s.cooldown.fill = []) : s.afterRotation = s := by
  have hretry : ∀ reason, s.retryRotations reason = s := fun reason => by rw [State.retryRotations, hr]
  have hc : { s.cooldown with fill := [] } = s.cooldown := by rw [← hf]
  rw [State.afterRotation, hretry, State.refillWaiting, hf, List.foldl_nil, hc]

theorem State.closeIfRotated_idle (s : State) (h : s.stepPhase = .idle) : s.closeIfRotated = s := by
  rw [State.closeIfRotated, h]

/-- The incoming core keeps the outgoing core's state where no restore has failed (R19 step 2). -/
theorem State.fillSpare_copied (s : State) (r : Rotation) (h : ∀ i, r.reason ≠ .restoreFailed i) : s.fillSpare r = s := by
  unfold State.fillSpare
  split
  · next i hi => exact absurd hi (h i)
  · rfl

/-- At its rotation point, with nothing else waiting for its end, the first rotation switches the map and is over. -/
theorem exec_rotationCopyComplete {s : State} {r : Rotation} {rest : List Rotation} (hcore : s.hasCore r.core = true)
    (hheld : s.dieHeld (dieOf r.core) = false) (hrot : s.rotations = r :: rest) (hpoint : s.rotationPoint r.core = true)
    (hphase : s.stepPhase = .idle) (hcopy : ∀ i, r.reason ≠ .restoreFailed i)
    (hstop : r.reason = .coreFault ∨ r.reason = .twin → s.queuesStopped = true) (hreplay : s.guard.replaying = none)
    (hfill : s.cooldown.fill = []) :
    exec (.rotationCopyComplete r.core) s = Next { s.switchMap r with rotations := rest } := by
  have hmay : s.mayRotate r = true := by
    by_cases hx : r.reason = .coreFault ∨ r.reason = .twin
    · simp [State.mayRotate, hpoint, hstop hx]
    · obtain ⟨h1, h2⟩ := not_or.mp hx
      simp [State.mayRotate, hpoint, h1, h2]
  have hx : exec (.rotationCopyComplete r.core) s = execRotationCopyComplete r.core s := rfl
  rw [hx, execRotationCopyComplete, atCore_of_hasCore _ _ _ hcore, State.unlessHeld_free _ _ _ hheld]
  simp only [hrot, takeFirst, beq_self_eq_true, if_true, hmay]
  rw [s.fillSpare_copied r hcopy]
  let t : State := { s.switchMap r with rotations := rest }
  have ht : t.afterRotation.closeIfRotated = t := by
    rw [t.afterRotation_idle hreplay hfill, t.closeIfRotated_idle hphase]
  exact congrArg Host.Outcome.next ht

/-- Settles O46, from the commit without a guard and the switch of the map. -/
theorem stepCloseAndRotation : Obligations.StepCloseAndRotation := by
  unfold Obligations.StepCloseAndRotation
  intro s hd
  refine ⟨?stepclose, ?rotation⟩
  case stepclose =>
    intro q c hh hb hp hg addr
    have hfin := State.headFor_unfinished hh
    have hexec := exec_stepclose hd hh hb hp hg
    refine ⟨?last, ?hole, ?commits⟩
    case last =>
      intro hctr
      rw [hexec, if_pos hctr, State.fail, State.finish_unfinished hfin]
    case hole =>
      intro i hctr ha hi hm hf
      rw [hexec, if_neg hctr, s.skipHole_eq_some addr i ha hi hm hf, ← Nat.shiftLeft_eq]
      exact congrArg Host.Outcome.next (State.finish_unfinished hfin _ _)
    case commits =>
      intro hctr ha hrot hreq hover skip
      have hmem := ha.imp_right fun h i hi => (h i hi).1
      have hlive := ha.imp_right fun h i hi => (h i hi).2
      have hskip : s.skipWord addr = true ↔ skip := s.skipWord_iff addr hlive
      obtain ⟨t, ht, hc⟩ := exec_stepclose_commits hd hh hb hp hg hctr (s.skipHole_eq_none addr hmem) hrot hreq hover
      refine ⟨t, ht, hc.stepCtr, fun h => ?_, fun h => ?_, hc.idle, hc.recent, hc.fin⟩
      · exact hc.skips.trans (if_pos (hskip.mpr h))
      · exact hc.skips.trans (if_neg (mt hskip.mp h))
  case rotation =>
    rintro k r rest hcore hheld hrot rfl hpoint hphase hne hcopy hstop hreplay hfill
    refine ⟨_, exec_rotationCopyComplete hcore hheld hrot hpoint hphase hcopy hstop hreplay hfill, rfl, ?_⟩
    -- only the map is changed by the switch, and `rotations` is no part of it
    let t : State := { s.switchMap r with rotations := rest }
    have hinto : t.pcore (dieOf r.core) r.into = (s.pcore (dieOf r.core) r.into).enter r.core := by
      change (s.switchMap r).pcore _ _ = _
      rw [State.switchMap, State.pcore_updPCore_same, State.pcore_updPCore_ne _ _ _ _ _ hne]
    have hfrom : t.pcore (dieOf r.core) r.from_ = (s.pcore (dieOf r.core) r.from_).leave s.cooldown.phours r.reason := by
      change (s.switchMap r).pcore _ _ = _
      rw [State.switchMap, State.pcore_updPCore_ne _ _ _ _ _ hne.symm, State.pcore_updPCore_same]
    have hother : ∀ p, p ≠ r.from_ → p ≠ r.into → t.pcore (dieOf r.core) p = s.pcore (dieOf r.core) p := by
      intro p hpf hpi
      change (s.switchMap r).pcore _ _ = _
      rw [State.switchMap, State.pcore_updPCore_ne _ _ _ _ _ hpi.symm, State.pcore_updPCore_ne _ _ _ _ _ hpf.symm]
    obtain ⟨hl, hs⟩ := (s.pcore (dieOf r.core) r.from_).leave_unmapped s.cooldown.phours r.reason
    exact ⟨(congrArg PCore.pst hinto).trans rfl, (congrArg PCore.lcore hinto).trans rfl, (congrArg PCore.lcore hfrom).trans hl,
      hfrom ▸ hs, hother, fun _ => rfl⟩

end Sys2Proof.Machine
end

section
/-! PROOFS. What a MODULE reset keeps of device memory (R466), and the mailbox commands. -/

namespace Sys2Proof.Machine

/-! ### Sparse maps -/

/-- In a map whose numbers rise strictly, every pair listed is found. -/
theorem Sparse.find_of_mem {α : Type} {m : Sparse α} (h : Sparse.sorted m = true) {e : Nat × α} (he : e ∈ m) :
    Sparse.find m e.1 = some e.2 := by
  induction m with
  | nil => cases he
  | cons x m ih =>
    obtain ⟨k, w⟩ := x
    rcases List.mem_cons.mp he with rfl | hm
    · simp [Sparse.find]
    · have hs : Sparse.sorted m = true := Sparse.above_sorted m k h
      have hk : ¬ e.1 ≤ k := fun hle => by
        have hnone := Sparse.find_above m k e.1 h hle
        rw [ih hs hm] at hnone
        cases hnone
      have h1 : e.1 ≠ k := by omega
      have h2 : ¬ e.1 < k := by omega
      simpa [Sparse.find, h1, h2] using ih hs hm

/-! ### A MODULE reset -/

/-- The frames as they are: no frame is given up and none is backed anew (R397). -/
theorem State.setFrames_self (s : State) (h : Sparse.sorted s.frames = true) : s.setFrames s.frames = s := by
  have hkept : (s.frames.filter fun e => Sparse.find s.frames e.1 != some e.2) = [] := by
    refine List.filter_eq_nil_iff.mpr fun e he => ?_
    simp [Sparse.find_of_mem h he]
  rw [State.setFrames, hkept]
  rfl

/-- A module that has backed only the reserved frames keeps by a MODULE reset the HBM part of what its memory lists (R466). -/
theorem State.moduleReset_mem (s : State) (src : Byte) (habs : s.guard.absorbed = []) (hs : Sparse.sorted s.frames = true)
    (hf : ∀ f ∈ s.frames, s.frameCount - s.dieCount ≤ f.1) : (s.moduleReset src).mem = hbmPart s.mem 1 := by
  obtain ⟨g, hg⟩ : ∃ g, s.unabsorb = { s with guard := g } := ⟨_, by rw [State.unabsorb, habs]; rfl⟩
  have hkept : (s.unabsorb.frames.filter fun f => decide (s.unabsorb.frameCount - s.unabsorb.dieCount ≤ f.1)) = s.unabsorb.frames := by
    rw [hg]
    exact List.filter_eq_self.mpr fun f h => decide_eq_true (hf f h)
  have hframes : s.unabsorb.setFrames s.unabsorb.frames = s.unabsorb := State.setFrames_self _ (by rw [hg]; exact hs)
  have hmem : (s.moduleReset src).mem = hbmPart (s.unabsorb.setFrames
      (s.unabsorb.frames.filter fun f => decide (s.unabsorb.frameCount - s.unabsorb.dieCount ≤ f.1))).mem 1 := rfl
  rw [hmem, hkept, hframes, hg]

/-- The second MAILBOX_REPLY of a RESET command starts the reset (R446, R466). -/
theorem exec_mailboxReply_reset {s : State} {r : Reply} (hd : s.dark = false) (hr : s.clerk.replies = [r]) (hc : r.cmd ≠ 0x41)
    (ha : r.after = .moduleReset) (h2 : r.replied = true) :
    exec (.mailboxReply r.slot) s = Next ((s.updClerk fun c => { c with replies := [] }).moduleReset 1) := by
  have hcmd : (r.cmd == 0x41) = false := beq_false_of_ne hc
  have hdue : s.replyDue r = true := by
    rw [State.replyDue, hcmd]
    rfl
  have hx : exec (.mailboxReply r.slot) s = execMailboxReply r.slot s := rfl
  rw [hx, execMailboxReply, always, State.unlessDark_lit s _ hd]
  simp [hr, takeFirst, hdue, ha, h2]

/-! ### A memory that is not canonical -/

/-- A byte of a Basin listed before a byte of HBM frame 2,047, against the canonical order: the HBM byte is not found behind it. -/
def hiddenByte : Memory := [(basinBase 0, 1), (2047 * 2 ^ 30, 1)]

/-- Without the Basin's byte, which a MODULE reset drops, the HBM byte that was hidden is found. -/
theorem hbmPart_hiddenByte :
    Memory.byte hiddenByte (2047 * 2 ^ 30) = 0 ∧ Memory.byte (hbmPart hiddenByte 1) (2047 * 2 ^ 30) = 1 := by
  decide

/-- A ready module that host software reaches. -/
def readyModule : State :=
  { State.reset with
    clerk := { Clerk.reset with bstage := 12 }
    host := { HostPort.reset with ready := true, linkUp := true, bars := Vector.replicate 3 (some 0) } }

/-- A RESET command whose reply has been written. -/
def resetReplied : Reply := ⟨0, 1, 0, 0x40, true, ST_OK, [], .moduleReset, true⟩

/-- A module about to be reset, its last frame reserved, whose memory is not canonical. -/
def hidingModule : State :=
  { State.reset with
    mem := hiddenByte, frames := [(2047, ⟨false, 3, 2036⟩)], clerk := { Clerk.reset with replies := [resetReplied] } }

/-- The reset brings up the hidden byte: the reserved frame does not read as before. -/
theorem exec_mailboxReply_hidingModule {t : State} (h : exec (.mailboxReply resetReplied.slot) hidingModule = Next t) :
    Memory.byte t.mem (2047 * 2 ^ 30) ≠ Memory.byte hidingModule.mem (2047 * 2 ^ 30) := by
  let s : State := hidingModule.updClerk fun c => { c with replies := [] }
  have hx := exec_mailboxReply_reset (s := hidingModule) (r := resetReplied) rfl rfl (by decide) rfl rfl
  have ht : t = s.moduleReset 1 := Host.Outcome.next.inj (h.symm.trans hx)
  have hm : (s.moduleReset 1).mem = hbmPart hiddenByte 1 :=
    s.moduleReset_mem 1 rfl rfl fun f hf => by
      obtain rfl := List.mem_singleton.mp hf
      decide
  obtain ⟨hbefore, hafter⟩ := hbmPart_hiddenByte
  rw [ht, hm, hafter]
  exact fun heq => absurd (heq.trans hbefore) (by decide)

/-- Refutes O57: its last clause, that a MODULE reset leaves the reserved frames as they were, takes any memory, and one out of
its canonical order hides bytes that the reset brings up. -/
theorem not_mailboxCommandsAct : ¬ Obligations.MailboxCommandsAct := by
  unfold Obligations.MailboxCommandsAct
  intro h
  obtain ⟨-, -, -, -, -, -, -, -, -, -, -, -, -, -, -, -, -, -, -, -, -, -, -, -, -, -, -, -, -, -, hreply⟩ :=
    h readyModule ⟨0, 1, 0, 0, 0⟩ rfl rfl rfl rfl rfl rfl rfl rfl rfl rfl (by decide) (by decide)
  obtain ⟨-, -, -, -, hreset⟩ := hreply hidingModule resetReplied rfl rfl rfl (by decide)
  obtain ⟨t, ht, -, -, -, -, -, -, -, hkept⟩ := hreset rfl rfl rfl rfl
  exact exec_mailboxReply_hidingModule ht (hkept (2047 * 2 ^ 30) _ (by decide) rfl (by decide)).1

end Sys2Proof.Machine
end

section
/-! PROOFS. The start of a vector operation (R137, R166, R170, R503): which bytes are local to its core, the first byte that is not, and
the three ways in which the operation starts. -/

namespace Sys2Proof.Machine

/-! ### The windows of a core's own memories (R27, R170) -/

theorem State.place_eq_basin_iff (s : State) (k : CoreId) (a : Nat) :
    (∃ off, s.place a = .basin k off) ↔ k.val < s.coreCount ∧ basinBase k ≤ a ∧ a < basinBase k + basinSize := by
  have hk := k.isLt
  simp only [basinBase, basinSize]
  constructor
  · rintro ⟨off, h⟩
    unfold State.place at h
    dsimp only at h
    -- of the branches of the address map only one answers a Basin
    (repeat' split at h) <;> cases h
    dsimp only at *
    omega
  · rintro ⟨hcore, hlow, hhigh⟩
    have hshare : (a - 0x800000000000) / 0x2000000 % 64 = k.val := by omega
    refine ⟨(a - 0x800000000000) % 0x2000000, ?_⟩
    rw [State.place, if_neg (by omega), if_pos (by omega)]
    exact (if_pos ⟨Nat.lt_of_le_of_lt (Nat.le_of_eq hshare) hcore, by omega⟩).trans (congrArg (Place.basin · _) (Fin.ext hshare))

theorem State.place_eq_cistern_iff (s : State) (k : CoreId) (a : Nat) :
    (∃ off, s.place a = .cistern k off) ↔ k.val < s.coreCount ∧ cisternBase k ≤ a ∧ a < cisternBase k + 0x400000 := by
  have hk := k.isLt
  simp only [cisternBase]
  constructor
  · rintro ⟨off, h⟩
    unfold State.place at h
    dsimp only at h
    -- of the branches of the address map only one answers a Cistern
    (repeat' split at h) <;> cases h
    dsimp only at *
    omega
  · rintro ⟨hcore, hlow, hhigh⟩
    have hshare : (a - 0x900000000000) / 0x800000 % 64 = k.val := by omega
    refine ⟨(a - 0x900000000000) % 0x800000, ?_⟩
    rw [State.place, if_neg (by omega), if_neg (by omega), if_pos (by omega)]
    exact (if_pos ⟨Nat.lt_of_le_of_lt (Nat.le_of_eq hshare) hcore, by omega⟩).trans (congrArg (Place.cistern · _) (Fin.ext hshare))

theorem State.reachByte_eq_basin_iff (s : State) (k : CoreId) (a : Nat) :
    s.reachByte k a = .basin ↔ k.val < s.coreCount ∧ basinBase k ≤ a ∧ a < basinBase k + basinSize := by
  rw [← s.place_eq_basin_iff, State.reachByte]
  cases s.place a with
  | basin j off => by_cases h : j = k <;> simp [h]
  | cistern j off => by_cases h : j = k <;> simp [h]
  | hbm | istore | regs | unmapped => simp

theorem State.reachByte_eq_cistern_iff (s : State) (k : CoreId) (a : Nat) :
    s.reachByte k a = .cistern ↔ k.val < s.coreCount ∧ cisternBase k ≤ a ∧ a < cisternBase k + 0x400000 := by
  rw [← s.place_eq_cistern_iff, State.reachByte]
  cases s.place a with
  | basin j off => by_cases h : j = k <;> simp [h]
  | cistern j off => by_cases h : j = k <;> simp [h]
  | hbm | istore | regs | unmapped => simp

theorem Reach.isLocal_iff (r : Reach) : r.isLocal = true ↔ r = .basin ∨ r = .cistern := by
  cases r <;> simp [Reach.isLocal]

/-- An access of the core's own memories does not wrap, and its last byte lies where its first one does. -/
theorem State.reach_of_isLocal {s : State} {k : CoreId} {a n : Nat} (h : (s.reach k a n).isLocal = true) :
    a + n ≤ 2 ^ 48 ∧ s.reachByte k (a % 2 ^ 48) = s.reach k a n ∧ s.reachByte k ((a + n - 1) % 2 ^ 48) = s.reach k a n := by
  unfold State.reach at h ⊢
  dsimp only at h ⊢
  split at h
  · next hc => rw [if_pos hc]; exact ⟨hc.1, rfl, hc.2.symm⟩
  · cases h

/-- A core's Basin and its Cistern are each one range of addresses, so that the ends of an access decide for the bytes between (R27). -/
theorem State.reachByte_of_reach_isLocal {s : State} {k : CoreId} {a n i : Nat} (h : (s.reach k a n).isLocal = true) (hi : i < n) :
    s.reachByte k ((a + i) % 2 ^ 48) = s.reach k a n := by
  obtain ⟨hwrap, hfirst, hlast⟩ := State.reach_of_isLocal h
  rw [Nat.mod_eq_of_lt (by omega)] at hfirst hlast ⊢
  rcases (Reach.isLocal_iff _).mp h with hr | hr <;> rw [hr] at hfirst hlast ⊢
  · rw [State.reachByte_eq_basin_iff] at hfirst hlast ⊢
    omega
  · rw [State.reachByte_eq_cistern_iff] at hfirst hlast ⊢
    omega

/-! ### The first byte that is not local (R503) -/

/-- Byte `i` is the first one of an access that its slot cannot reach. -/
theorem State.firstOut_eq {s : State} {k : CoreId} {ok : Reach → Bool} {a n i : Nat} (hi : i < n)
    (hbad : ok (s.reachByte k ((a + i) % 2 ^ 48)) = false) (hok : ∀ j, j < i → ok (s.reachByte k ((a + j) % 2 ^ 48)) = true) :
    s.firstOut k ok a n = (a + i) % 2 ^ 48 := by
  have hfind : ((List.range n).find? fun i => !ok (s.reachByte k ((a + i) % 2 ^ 48))) = some i := by
    rw [List.find?_range_eq_some]
    exact ⟨by rw [hbad]; rfl, List.mem_range.mpr hi, fun j hj => by rw [hok j hj]; rfl⟩
  rw [State.firstOut, hfind]

theorem State.firstBad_singleton {s : State} {k : CoreId} {a n i : Nat} (hi : i < n)
    (hbad : (s.reachByte k ((a + i) % 2 ^ 48)).isLocal = false)
    (hok : ∀ j, j < i → (s.reachByte k ((a + j) % 2 ^ 48)).isLocal = true) :
    s.firstBad k [(a, n)] = some ((a + i) % 2 ^ 48) := by
  have hreach : (s.reach k a n).isLocal = false := Bool.eq_false_iff.mpr fun h => by
    rw [State.reachByte_of_reach_isLocal h hi, h] at hbad
    cases hbad
  simp [State.firstBad, hreach, State.firstOut_eq hi hbad hok]

/-! ### What a stop leaves alone (R162, R503) -/

theorem Core.stopSeq_eq (c : Core) (cause : BitVec 8) : ∃ a, c.stopSeq cause = { c with arch := a } := by
  unfold Core.stopSeq
  split
  · unfold Core.goTo
    split <;> exact ⟨_, rfl⟩
  · exact ⟨_, rfl⟩

theorem Core.unmappedStop_eq (c : Core) (a : Nat) :
    c.unmappedStop a = { c.stopSeq 0x06 with
      stickyNew := c.stickyNew ||| UNMAP
      launch := c.launch.map fun l => { l with unmapped := some (l.unmapped.getD (BitVec.ofNat 48 a)) } } := by
  obtain ⟨x, hx⟩ := c.stopSeq_eq 0x06
  rw [Core.unmappedStop, hx]
  rfl

/-! ### The start of a vector operation -/

/-- Everything a vector operation that starts at core k touches in memory, but for VPACE (R170). -/
def State.vecAccesses (s : State) (k : CoreId) (o : VecOp) : List (Nat × Nat) :=
  o.reads ((s.core k).vecCaps o) (tileWidth (s.core k).arch.layout) ++ o.stores ((s.core k).vecCaps o) (tileWidth (s.core k).arch.layout)

/-- A vector operation of core k as it goes in flight; `dead`: an access of it is not local (R137, R503). -/
def State.vecBody (s : State) (k : CoreId) (o : VecOp) (dead : Bool) : OpBody :=
  if o.late ((s.core k).vecCaps o) then .read (.vec o ((s.core k).vecCaps o) dead)
  else .writes (s.vecLands k o ((s.core k).vecCaps o) dead)

/-- The latency of a vector operation that starts at core k (R138). -/
def State.vecLat (s : State) (k : CoreId) (o : VecOp) : Nat := o.lat ((s.core k).vecCaps o)

/-- A vector row of a core that can start an operation. -/
theorem vectorRow_canStart {s : State} {k : CoreId} (h : s.canStart k) (o : VecOp) :
    vectorRow k o s = Next ((s.settle k).startVector k o) := by
  obtain ⟨hcore, hdie, hheld⟩ := h
  exact atSlot_next k s _ hcore hdie hheld

theorem vectorRow_unlisted {s : State} {k : CoreId} {o : VecOp} (h : s.canStart k) (hl : o.listed = false) :
    vectorRow k o s = Next ((s.settle k).updCore k Core.badBundle) := by
  rw [vectorRow_canStart h, State.startVector, if_pos hl]

/-- Every access is local: the operation is in flight and nothing else happens. -/
theorem vectorRow_local {s : State} {k : CoreId} {o : VecOp} (h : s.canStart k) (hl : o.listed = true)
    (hbad : (s.settle k).firstBad k ((s.settle k).vecAccesses k o) = none) :
    vectorRow k o s = Next (s.withFlying k .vector ((s.settle k).vecLat k o) ((s.settle k).vecBody k o false)) := by
  rw [State.vecAccesses] at hbad
  simp only [vectorRow_canStart h, State.startVector, hl, hbad]
  rfl

/-- Byte `a` is the first one that is not local: the operation is in flight without its memory, and the core stops. -/
theorem vectorRow_unmapped {s : State} {k : CoreId} {o : VecOp} {a : Nat} (h : s.canStart k) (hl : o.listed = true)
    (hbad : (s.settle k).firstBad k ((s.settle k).vecAccesses k o) = some a) :
    vectorRow k o s = Next ((s.withFlying k .vector ((s.settle k).vecLat k o) ((s.settle k).vecBody k o true)).updCore k fun c =>
      c.unmappedStop a) := by
  rw [State.vecAccesses] at hbad
  simp only [vectorRow_canStart h, State.startVector, hl, hbad]
  rfl

end Sys2Proof.Machine
end

section
/-! PROOFS. Vector operations of a reserved or unlisted lane format, and of a memory row that is not local (R34, R166, R167, R170,
R503). -/

namespace Sys2Proof.Machine

/-! ### A reserved lane format (R34, R167) -/

theorem laneFmtListed_of_reserved (fmt : BitVec 4) (l : List (BitVec 4)) (h : 8 ≤ fmt.toNat) : laneFmtListed fmt l = true := by
  simp [laneFmtListed, laneFmtListed.fmtRes, h]

theorem laneFmtListed_unlisted (fmt : BitVec 4) (h : fmt.toNat < 8) (h3 : fmt ≠ 3) (h5 : fmt ≠ 5) (h7 : fmt ≠ 7) :
    laneFmtListed fmt [3, 5, 7] = false := by
  have hres : laneFmtListed.fmtRes fmt = false := decide_eq_false (Nat.not_le.mpr h)
  rw [laneFmtListed, hres, Bool.false_or]
  simpa using And.intro h3 (And.intro h5 h7)

/-- A rejected operation touches no byte of memory. -/
theorem VecOp.accesses_of_fmtBad (o : VecOp) (p : VecCaps) (w : Nat) (h : o.fmtBad = true) : o.reads p w = [] ∧ o.stores p w = [] := by
  cases o with
  | bin | cmp => exact ⟨if_pos h, rfl⟩
  | un | div | sqrt | red => exact ⟨rfl, rfl⟩
  | _ => cases h

theorem VecOp.late_of_fmtBad (o : VecOp) (p : VecCaps) (h : o.fmtBad = true) : o.late p = false := by
  have hreads := (o.accesses_of_fmtBad p 256 h).1
  cases o with
  | bin | un | cmp | div | sqrt | red => simp [VecOp.late, hreads]
  | _ => cases h

theorem State.vecLands_of_fmtBad (s : State) (k : CoreId) (o : VecOp) (p : VecCaps) (h : o.fmtBad = true) :
    s.vecLands k o p false = [.sticky BADFMT] := by
  simp [State.vecLands, State.vecWrites, h]

/-- A listed operation of a reserved lane format lands as BADFMT alone, at its own latency. -/
theorem State.startsSlot_of_fmtBad {s : State} {k : CoreId} {i : Instr} {o : VecOp} {lat : Nat} (h : s.canStart k)
    (hx : exec i s = vectorRow k o s) (hl : o.listed = true) (hf : o.fmtBad = true) (hlat : (s.settle k).vecLat k o = lat) :
    s.startsSlot k i .vector lat fun _ => [.sticky BADFMT] := by
  have hnone : (s.settle k).vecAccesses k o = [] := by
    obtain ⟨hreads, hstores⟩ := o.accesses_of_fmtBad (((s.settle k).core k).vecCaps o) (tileWidth ((s.settle k).core k).arch.layout) hf
    rw [State.vecAccesses, hreads, hstores, List.append_nil]
  have hbody : (s.settle k).vecBody k o false = .writes [.sticky BADFMT] := by
    simp [State.vecBody, VecOp.late_of_fmtBad o _ hf, State.vecLands_of_fmtBad _ k o _ hf]
  refine ⟨.writes [.sticky BADFMT], ?_, fun _ _ => rfl⟩
  rw [hx, vectorRow_local h hl (by rw [hnone]; rfl), hlat, hbody]

/-! ### A row of zeros (R503) -/

theorem leNat_replicate_zero (n : Nat) : leNat (List.replicate n 0) = 0 := by
  induction n with
  | zero => rfl
  | succ n ih => rw [List.replicate_succ, leNat, ih]; rfl

@[simp] theorem getElem_mkV (l : List Lane) (i : Nat) (hi : i < 256) : (mkV l)[i] = l.getD i 0 := by
  simp only [mkV, Vector.getElem_mk, List.getElem_toArray, List.getElem_map, List.getElem_range]

@[simp] theorem getElem_genV (f : Nat → Lane) (i : Nat) (hi : i < 256) : (genV f)[i] = f i := by
  simp only [genV, Vector.getElem_mk, List.getElem_toArray, List.getElem_map, List.getElem_range]

@[simp] theorem getElem_lanes2 (f : Lane → Lane → Lane) (a b : VReg) (i : Nat) (hi : i < 256) : (lanes2 f a b)[i] = f a[i] b[i] := by
  simp [lanes2, hi]

/-- A memory row that is not read delivers +0 in every lane. -/
theorem State.getElem_vecB_dead_row (s : State) (p : VecCaps) (sa : Reg) (off : BitVec 24) (i : Nat) (hi : i < 256) :
    (s.vecB true p (.row sa off))[i] = 0 := by
  rw [State.vecB, getElem_genV _ i hi, State.rdLive, if_pos rfl, leNat_replicate_zero, Nat.zero_shiftRight]
  rfl

theorem State.vecLands_and_dead_row (s : State) (k : CoreId) (p : VecCaps) (vd va sa : Reg) (off : BitVec 24) :
    s.vecLands k (.bit .and vd va (.row sa off)) p true = [.vreg vd (Vector.replicate 256 0)] := by
  have hzero : lanes2 BitFn.and.lane p.va (s.vecB true p (.row sa off)) = Vector.replicate 256 0 := by
    ext1 i hi
    rw [getElem_lanes2 _ _ _ i hi, State.getElem_vecB_dead_row, Vector.getElem_replicate]
    exact BitVec.and_zero
  rw [← hzero]
  rfl

/-! ### The statement -/

/-- Settles O26, from the start of a vector operation and from the two windows of a core's own memory. -/
theorem vectorOperandErrors : Obligations.VectorOperandErrors := by
  unfold Obligations.VectorOperandErrors
  intro s k vd va sa b fmt off hs
  refine ⟨?add, ?sum, ?unlisted, ?row⟩
  case add =>
    intro hf
    have hlat : (s.settle k).vecLat k (.bin .add fmt vd va b) = srcLat b := by cases b <;> rfl
    exact State.startsSlot_of_fmtBad hs rfl (laneFmtListed_of_reserved fmt _ hf) (decide_eq_true hf) hlat
  case sum =>
    intro hf
    exact State.startsSlot_of_fmtBad (o := .red .sum fmt sa va) hs rfl (laneFmtListed_of_reserved fmt _ hf) (decide_eq_true hf) rfl
  case unlisted =>
    intro hf h3 h5 h7
    have hl := laneFmtListed_unlisted fmt hf h3 h5 h7
    have hcmp : (VecOp.cmp fmt 0 vd va b).listed = false := by rw [VecOp.listed, hl, Bool.false_and]
    exact ⟨vectorRow_unlisted (o := .bin .add fmt vd va b) hs hl, vectorRow_unlisted hs hcmp⟩
  case row =>
    intro i hi at_ hbad hok
    -- the row is the only access of VAND, and byte `i` of it stops the core
    have hfirst : (s.settle k).firstBad k ((s.settle k).vecAccesses k (.bit .and vd va (.row sa off))) = some (at_ i) := by
      have haccess : (s.settle k).vecAccesses k (.bit .and vd va (.row sa off)) = [(rowAddr (s.sregNow k sa) off, 1024)] := rfl
      rw [haccess]
      exact State.firstBad_singleton hi hbad hok
    have hrow := vectorRow_unmapped hs rfl hfirst
    simp only [Core.unmappedStop_eq] at hrow
    exact ⟨_, hrow, fun v _ => v.vecLands_and_dead_row k _ vd va sa off⟩

end Sys2Proof.Machine
end

section
/-! PROOFS. VOUT (R101, R186): the values of a tile row under the tile's metadata, and the three forms in which they are written. -/

namespace Sys2Proof.Machine

/-! ### What a tile row is written as (R101, R185, R186) -/

/-- The exact values of a tile row under the tile's exponent and output factors, as they stand in state `v` (R101). `dead`: the row
is not read (R503). -/
def State.tileValues (v : State) (k : CoreId) (dead : Bool) (tile : BitVec 6) (trow : BitVec 7) : List FVal :=
  let a := (v.core k).arch
  let m := a.tiles[tile.toNat]'(tile.isLt)
  let codes := if dead then List.replicate (tileWidth a.layout) 0
    else v.tileRow k a.layout tile.toNat trow.toNat (tileWidth a.layout)
  codes.map fun code => ((((tileFmt a.layout).decode code).scale (-m.teo.toInt)).mul (coarseVal m.cx)).mul (coarseVal m.cw)

/-- What VOUT writes of a row's values under an accepted record, by the record's format (R186). -/
def VecCaps.outConverts (p : VecCaps) (auto : Bool) (plane : List Byte) (vd : Reg) (cnt : Option Reg) (vs : List FVal) : List Wr :=
  if p.record.fmt = 5 then [.vreg vd (mkV (vs.map toA32))]
  else if p.record.fmt = 4 then [.vreg vd (packV 24 (vs.map fun x => (FFmt.a24.encode x).1))]
  else convWrites p.record vs auto plane p.sf vd cnt

theorem VecCaps.outConverts_a32 {p : VecCaps} (h : p.record.fmt = 5) (auto : Bool) (plane : List Byte) (vd : Reg) (cnt : Option Reg)
    (vs : List FVal) : p.outConverts auto plane vd cnt vs = [.vreg vd (mkV (vs.map toA32))] :=
  if_pos h

theorem VecCaps.outConverts_a24 {p : VecCaps} (h : p.record.fmt = 4) (auto : Bool) (plane : List Byte) (vd : Reg) (cnt : Option Reg)
    (vs : List FVal) :
    p.outConverts auto plane vd cnt vs = [.vreg vd (packV 24 (vs.map fun x => (FFmt.a24.encode x).1))] := by
  have h5 : p.record.fmt ≠ 5 := by rw [h]; decide
  rw [VecCaps.outConverts, if_neg h5, if_pos h]

/-- A format that a scaled conversion takes is neither A24 nor A32 (R47). -/
theorem FmtScale.fmt_ne_of_okScaled {r : FmtScale} (h : r.okScaled = true) : r.fmt ≠ 4 ∧ r.fmt ≠ 5 := by
  have hlt : r.fmt.toNat < 4 := of_decide_eq_true (Bool.and_eq_true_iff.mp h).1
  constructor <;> (intro he; rw [he] at hlt; exact absurd hlt (by decide))

theorem VecCaps.outConverts_scaled {p : VecCaps} (h : p.record.okScaled = true) (auto : Bool) (plane : List Byte) (vd : Reg)
    (cnt : Option Reg) (vs : List FVal) : p.outConverts auto plane vd cnt vs = convWrites p.record vs auto plane p.sf vd cnt := by
  obtain ⟨h4, h5⟩ := FmtScale.fmt_ne_of_okScaled h
  rw [VecCaps.outConverts, if_neg h5, if_neg h4]

/-- A conversion in GIVEN mode writes the packed codes, and its count for the formats that count, where it names a register (R55). -/
theorem convWrites_given {r : FmtScale} {f : FFmt} (h : fmtOf r.fmt = some f) (vs : List FVal) (plane : List Byte) (sf : Word) (vd : Reg)
    (cnt : Option Reg) :
    convWrites r vs false plane sf vd cnt =
      .vreg vd (packV (fmtBits r.fmt) (encodeAll f r (givenFine r plane) vs).1) ::
        (match cnt with
          | some c => if r.fmt.toNat < 2 then [.count c (encodeAll f r (givenFine r plane) vs).2] else []
          | none => []) := by
  simp only [convWrites, h]
  cases cnt with
  | none => simp [cntWr]
  | some c => by_cases hc : r.fmt.toNat < 2 <;> simp [hc, cntWr]

theorem FmtScale.okOut_unscaled {r : FmtScale} (h : r.fmt = 4 ∨ r.fmt = 5) (auto : Bool) : r.okOut auto = r.rsvZero :=
  if_pos h

theorem FmtScale.okOut_given {r : FmtScale} (h : r.okScaled = true) : r.okOut false = true := by
  obtain ⟨h4, h5⟩ := FmtScale.fmt_ne_of_okScaled h
  rw [FmtScale.okOut, if_neg (not_or.mpr ⟨h4, h5⟩)]
  exact h

/-- Under an accepted record only the tile's index is judged, by the layout of the read cycle (R186). -/
theorem State.outWrites_of_okOut (v : State) (k : CoreId) (dead : Bool) (vd : Reg) (tile : BitVec 6) (trow : BitVec 7) (auto : Bool)
    (cnt : Option Reg) (p : VecCaps) (h : p.record.okOut auto = true) :
    v.outWrites k dead vd tile trow auto cnt p =
      if usableTiles (v.core k).arch.layout ≤ tile.toNat then [.sticky BADFMT]
      else p.outConverts auto (v.planeRead dead p (tileWidth (v.core k).arch.layout)) vd cnt (v.tileValues k dead tile trow) := by
  have hiff (q : Prop) : (q ∨ p.record.okOut auto = false) ↔ q := or_iff_left (by rw [h]; decide)
  simp only [State.outWrites, hiff]
  rfl

/-- A record without a plane reads no plane byte (R184). -/
theorem State.planeRead_const (v : State) (dead : Bool) {p : VecCaps} (n : Nat) (h : p.record.finePlane = false) :
    v.planeRead dead p n = [] := by
  simp [State.planeRead, h]

/-! ### The start of VOUT -/

/-- VOUT in GIVEN mode touches memory outside its tile for the plane of a scaled record only (R137, R186). -/
theorem State.vecAccesses_out_given {s : State} {k : CoreId} {ss : Reg} (vd sf : Reg) (tile : BitVec 6) (trow : BitVec 7)
    (cnt : Option Reg) (h : (FmtScale.ofWord ((s.core k).sreg ss)).okScaled = true →
      (FmtScale.ofWord ((s.core k).sreg ss)).finePlane = false) :
    s.vecAccesses k (.out vd ss sf tile trow false cnt) = [] := by
  have hrec : ((s.core k).vecCaps (.out vd ss sf tile trow false cnt)).record = FmtScale.ofWord ((s.core k).sreg ss) := rfl
  simp only [State.vecAccesses, VecOp.reads, VecOp.stores, hrec]
  cases hok : (FmtScale.ofWord ((s.core k).sreg ss)).okScaled with
  | false => rfl
  | true => simp [h hok]

/-- The record that VOUT captures is the one in its SS register in the issue cycle (R137). -/
theorem State.record_vecCaps_out (s : State) (k : CoreId) (vd ss sf : Reg) (tile : BitVec 6) (trow : BitVec 7) (auto : Bool)
    (cnt : Option Reg) :
    (((s.settle k).core k).vecCaps (.out vd ss sf tile trow auto cnt)).record = FmtScale.ofWord (s.sregNow k ss) :=
  rfl

/-- VOUT's writes are made of what its read cycle finds (R186). -/
theorem State.bodyWrites_out (s v : State) (k : CoreId) (vd ss sf : Reg) (tile : BitVec 6) (trow : BitVec 7) (auto : Bool)
    (cnt : Option Reg) :
    v.bodyWrites k (s.vecBody k (.out vd ss sf tile trow auto cnt) false) =
      v.outWrites k false vd tile trow auto cnt ((s.core k).vecCaps (.out vd ss sf tile trow auto cnt)) :=
  rfl

/-- VOUT in GIVEN mode without a plane: its row is read two cycles on and lands eight cycles on (R138, R186). The record is
accepted, so that the writes are those of its format. -/
theorem State.startsSlot_vout_given {s : State} {k : CoreId} (hs : s.canStart k) (vd ss sf : Reg) (tile : BitVec 6) (trow : BitVec 7)
    (cnt : Option Reg) (hok : (FmtScale.ofWord (s.sregNow k ss)).okOut false = true)
    (hplane : (FmtScale.ofWord (s.sregNow k ss)).okScaled = true → (FmtScale.ofWord (s.sregNow k ss)).finePlane = false)
    (ws : State → List Wr)
    (hws : ∀ (v : State) (p : VecCaps), p.record = FmtScale.ofWord (s.sregNow k ss) →
      p.outConverts false (v.planeRead false p (tileWidth (v.core k).arch.layout)) vd cnt (v.tileValues k false tile trow) = ws v) :
    s.startsSlot k (.vout k vd ss sf tile trow false cnt) .vector 8 fun v =>
      if usableTiles (v.core k).arch.layout ≤ tile.toNat then [.sticky BADFMT] else ws v := by
  have hbad : (s.settle k).firstBad k ((s.settle k).vecAccesses k (.out vd ss sf tile trow false cnt)) = none := by
    rw [State.vecAccesses_out_given vd sf tile trow cnt hplane]
    rfl
  refine ⟨_, vectorRow_local hs rfl hbad, fun v _ => ?_⟩
  have hrec := s.record_vecCaps_out k vd ss sf tile trow false cnt
  rw [State.bodyWrites_out, State.outWrites_of_okOut _ _ _ _ _ _ _ _ _ (hrec ▸ hok), hws v _ hrec]

/-! ### The statement -/

/-- Settles O24, from the start of VOUT and from what its values are written as in each format. -/
theorem tileRowOutput : Obligations.TileRowOutput := by
  unfold Obligations.TileRowOutput
  intro s k vd ss sf tile trow cnt hs r vals
  -- an unscaled record is no scaled one, so that no plane is read under it
  have unscaled (h : r.fmt = 4 ∨ r.fmt = 5) (hok : r.okScaled = true) : r.finePlane = false :=
    absurd h (not_or.mpr (FmtScale.fmt_ne_of_okScaled hok))
  refine ⟨fun hrsv hfmt => ?a32, fun hrsv hfmt => ?a24, fun hok hplane f hf => ?scaled⟩
  case a32 =>
    exact State.startsSlot_vout_given hs vd ss sf tile trow cnt ((FmtScale.okOut_unscaled (.inr hfmt) false).trans hrsv)
      (unscaled (.inr hfmt)) _ fun v p hp => VecCaps.outConverts_a32 (hp ▸ hfmt) ..
  case a24 =>
    exact State.startsSlot_vout_given hs vd ss sf tile trow cnt ((FmtScale.okOut_unscaled (.inl hfmt) false).trans hrsv)
      (unscaled (.inl hfmt)) _ fun v p hp => VecCaps.outConverts_a24 (hp ▸ hfmt) ..
  case scaled =>
    refine State.startsSlot_vout_given hs vd ss sf tile trow cnt (FmtScale.okOut_given hok) (fun _ => hplane) _ fun v p hp => ?_
    rw [VecCaps.outConverts_scaled (hp ▸ hok), State.planeRead_const v false _ (hp ▸ hplane), hp]
    exact convWrites_given hf (vals v) [] p.sf vd cnt

end Sys2Proof.Machine
end

section
/-! PROOFS. VPACE and VTAIL (R113-R122, R187, R188): what becomes of a Pacer record by where it stands and by whether its update takes
it, and the pair of registers that the tailwater update writes. -/

namespace Sys2Proof.Machine

/-! ### VPACE -/

/-- VPACE finds a record at its address: 16 aligned bytes of the core's own Basin (R113, R119). -/
def State.hasPaceRecord (v : State) (k : CoreId) (a : Nat) : Prop := a % 16 = 0 ∧ v.reach k a 16 = .basin

theorem State.hasPaceRecord_iff (v : State) (k : CoreId) (a : Nat) :
    v.hasPaceRecord k a ↔ ¬ (a % 16 ≠ 0 ∨ v.reach k a 16 ≠ .basin) := by
  rw [not_or, Classical.not_not, Classical.not_not]
  rfl

section Pace

variable (v : State) (k : CoreId) (first : Bool) (ss scnt sa : Reg) (off : BitVec 24) (p : VecCaps)

theorem State.vecLands_pace_misplaced (h : ¬ v.hasPaceRecord k (slotAddr p.sa off)) :
    v.vecLands k (.pace first ss scnt sa off) p false = [.sticky BADFMT] :=
  if_pos (Classical.not_and_iff_not_or_not.mp h)

theorem State.vecLands_pace_rejected (h : v.hasPaceRecord k (slotAddr p.sa off))
    (hnone : paceUpdate first (v.rdNat (slotAddr p.sa off) 16) (p.ss.extractLsb' 0 32) p.scnt = none) :
    v.vecLands k (.pace first ss scnt sa off) p false = [.sticky BADFMT] := by
  refine (if_neg ((v.hasPaceRecord_iff k _).mp h)).trans ?_
  rw [hnone]

/-- A record that is taken is rewritten in place, and the count starts anew (R116, R121). -/
theorem State.vecLands_pace_updated {r : BitVec 128} (h : v.hasPaceRecord k (slotAddr p.sa off))
    (hsome : paceUpdate first (v.rdNat (slotAddr p.sa off) 16) (p.ss.extractLsb' 0 32) p.scnt = some r) :
    v.vecLands k (.pace first ss scnt sa off) p false = [.mem (slotAddr p.sa off) (natLe 16 r.toNat), .sreg scnt 0] := by
  refine (if_neg ((v.hasPaceRecord_iff k _).mp h)).trans ?_
  rw [hsome]

end Pace

/-- VPACE never stops its core for its address: it is in flight, reads its record two cycles on and lands ten cycles on (R138, R187). -/
theorem State.startsSlot_pace {s : State} {k : CoreId} {i : Instr} {first : Bool} {ss scnt sa : Reg} {off : BitVec 24}
    (hs : s.canStart k) (hx : exec i s = vectorRow k (.pace first ss scnt sa off) s) (ws : State → List Wr)
    (hws : ∀ v : State,
      v.vecLands k (.pace first ss scnt sa off) (((s.settle k).core k).vecCaps (.pace first ss scnt sa off)) false = ws v) :
    s.startsSlot k i .vector 10 ws :=
  ⟨_, hx.trans (vectorRow_local hs rfl rfl), fun v _ => hws v⟩

/-! ### VTAIL -/

/-- What the tailwater update makes of 256 updates, weights and tails, element by element (R122, R188). -/
def tailElems (deltas weights tails : VReg) : List (BitVec 16 × Byte × Bool) :=
  (List.range 256).map fun j =>
    tailUpdate (BitVec.ofNat 16 (bitsAt (packNat 32 (weights.toList.map BitVec.toNat)) (16 * j) 16))
      (BitVec.ofNat 8 (bitsAt (packNat 32 (tails.toList.map BitVec.toNat)) (8 * j) 8)) (deltas.toList.getD j 0)

/-- VTAIL into an even register reads no memory: what it writes is made of the registers of its issue cycle (R137, R188). -/
theorem exec_vtail_even {s : State} {k : CoreId} {vd : Reg} (hs : s.canStart k) (hvd : vd.val % 2 = 0) (va vb vc : Reg)
    (cnt : Option Reg) :
    let es := tailElems (s.vregNow k va) (s.vregNow k vb) (s.vregNow k vc)
    exec (.vtail k vd va vb vc cnt) s = Next (s.withFlying k .vector 10 (.writes
      ([.vreg vd (packV 16 (es.map fun e => e.1.toNat)), .vreg (vd + 1) (packV 8 (es.map fun e => e.2.1.toNat))] ++
        cntWr cnt (es.filter fun e => e.2.2).length))) :=
  vectorRow_local (o := .tail vd va vb vc cnt) hs (beq_iff_eq.mpr hvd) rfl

/-! ### The statement -/

/-- Settles O25, from the landings of VPACE by its record and from the elements of VTAIL. -/
theorem pacerAndTailwater : Obligations.PacerAndTailwater := by
  unfold Obligations.PacerAndTailwater
  intro s k vd va vb vc ss scnt sa off cnt hs at_ paces
  -- in both modes, and in whatever state the record is read
  have hlands (first : Bool) (v : State) :
      v.vecLands k (.pace first ss scnt sa off) (((s.settle k).core k).vecCaps (.pace first ss scnt sa off)) false = paces first v := by
    by_cases hplace : v.hasPaceRecord k at_
    · simp only [paces, if_neg ((v.hasPaceRecord_iff k at_).mp hplace)]
      split
      · next r hsome => exact v.vecLands_pace_updated k first ss scnt sa off _ hplace hsome
      · next hnone => exact v.vecLands_pace_rejected k first ss scnt sa off _ hplace hnone
    · simp only [paces, if_pos (Classical.not_and_iff_not_or_not.mp hplace)]
      exact v.vecLands_pace_misplaced k first ss scnt sa off _ hplace
  refine ⟨?step, ?first, ?tail⟩
  case step => exact State.startsSlot_pace hs rfl _ (hlands false)
  case first => exact State.startsSlot_pace hs rfl _ (hlands true)
  case tail =>
    intro hvd w tw es
    -- the count is written where a register is named for it
    cases cnt with
    | none => exact exec_vtail_even hs hvd va vb vc none
    | some c => exact exec_vtail_even hs hvd va vb vc (some c)

end Sys2Proof.Machine
end

section
/-! PROOFS. Tiles of a stream (R198, R203, R207, R212, R213): what a row of a Runnel does to its running stream, which blocks of a tile can
be moved, and the way of a tile from its buffer to its delivery. -/

namespace Sys2Proof.Machine

/-! ### A running stream -/

/-- Runnel r of the grade, on a die that is not held, runs stream x. -/
structure State.RunsStream (s : State) (r : RunId) (x : StreamRun) : Prop where
  hasCore : s.hasCore (coreOf r) = true
  free : s.dieHeld (dieOf (coreOf r)) = false
  stream : s.stream r = some x

/-- A row of a Runnel acts on the stream that runs. -/
theorem State.RunsStream.atRunnel_onStream {s : State} {r : RunId} {x : StreamRun} (h : s.RunsStream r x)
    (f : State → StreamRun → State) : atRunnel r s (fun s => s.onStream r (f s)) = Next (f s x) := by
  rw [atRunnel, atCore_of_hasCore _ _ _ h.hasCore, State.unlessHeld_free _ _ _ h.free, State.onStream, h.stream]

/-- A running stream put in the place of another one. -/
theorem State.stream_updStream_const {s : State} {r : RunId} {x : StreamRun} (h : s.stream r = some x) (y : StreamRun) :
    (s.updStream r fun _ => y).stream r = some y := by
  have hrun : s.runnels[r.val].run = some x := h
  simp [State.stream, State.updStream, hrun]

/-- An update of a running stream puts what it makes of that stream in its place. -/
theorem State.updStream_of_stream {s : State} {r : RunId} {x : StreamRun} (h : s.stream r = some x) (f : StreamRun → StreamRun) :
    s.updStream r f = s.updStream r fun _ => f x := by
  have hrun : s.runnels[r.val].run = some x := h
  simp [State.updStream, vupd, hrun]

theorem State.updStream_updStream (s : State) (r : RunId) (f g : StreamRun → StreamRun) :
    (s.updStream r f).updStream r g = s.updStream r fun x => g (f x) := by
  simp [State.updStream, vupd, Function.comp_def]

/-- The only tile of a stream changed. -/
theorem StreamRun.updTile_single {x : StreamRun} {t : StreamTile} (h : x.tiles = [t]) (f : StreamTile → StreamTile) :
    x.updTile t.n f = { x with tiles := [f t] } := by
  simp [StreamRun.updTile, h]

/-- A stream without an error has not been ended by a block. -/
theorem StreamRun.failed_of_halt_none {x : StreamRun} (h : x.halt = none) : x.failed = false := by
  simp [StreamRun.failed, h]

/-- A stream into or out of a Basin or Cistern is not one into an instruction store. -/
theorem StreamDesc.loc_ne_istore {d : StreamDesc} (h : d.loc.toNat < 2) : d.loc ≠ 2#2 := by
  rintro heq
  rw [heq] at h
  exact absurd h (by decide)

/-! ### The end of a stream (R213, R215) -/

theorem State.stream_endStream (s : State) (r : RunId) (x : StreamRun) (st : Byte) (a : Nat) : (s.endStream r x st a).stream r = none := by
  simp [State.endStream, State.finish, State.stream]

theorem State.tiles_endStream (s : State) (r : RunId) (x : StreamRun) (st : Byte) (a : Nat) :
    ((s.endStream r x st a).runnels[r]).tiles = BitVec.ofNat 16 x.complete := by
  simp [State.endStream, State.finish]

theorem State.fin_endStream {s : State} {x : StreamRun} (h : (s.queue x.queue).fin = none) (r : RunId) (st : Byte) (a : Nat) :
    ((s.endStream r x st a).queue x.queue).fin = some ⟨st, BitVec.ofNat 384 (x.complete % 2 ^ 16 + a * 2 ^ 64)⟩ := by
  rw [State.endStream, State.fin_finish (by exact h), Nat.shiftLeft_eq]

/-- A stream that has moved every block ends well and raises `ENDCTR` (R213). -/
theorem exec_streamComplete {s : State} {r : RunId} {x : StreamRun} (h : s.RunsStream r x) (he : x.ended = true)
    (hh : x.halt = none) (hem : x.emitted = []) (ht : x.tiles = [])
    (hrel : x.d.dir = true ∨ s.advanced (coreOf r) x.d.donectr x.d0 x.next = true) :
    exec (.streamComplete r) s = Next ((s.raiseOwn (coreOf r) x.d.endctr).endStream r x ST_OK 0) := by
  have hdone : s.streamDone r x = true := by
    rcases hrel with hdir | hadv
    · simp [State.streamDone, StreamRun.settled, he, hh, hem, ht, hdir]
    · simp [State.streamDone, StreamRun.settled, he, hh, hem, ht, hadv]
  refine (h.atRunnel_onStream _).trans ?_
  rw [if_pos hdone]

/-! ### Blocks that can be moved (R203, R206, R215) -/

/-- Into or out of a Basin or Cistern, a block fails where it is no skip and its far address is not reached. -/
theorem State.blockFails_sram {d : StreamDesc} (hl : d.loc.toNat < 2) (s : State) (k : CoreId) (n i : Nat) (b : StreamBlk) :
    s.blockFails k d n i b = if !b.skip && !s.runnelReach k b.addr then some b.addr else none := by
  simp [State.blockFails, StreamDesc.loc_ne_istore hl]

theorem State.firstFail_none {d : StreamDesc} (hl : d.loc.toNat < 2) {s : State} {k : CoreId} {blks : List StreamBlk}
    (h : ∀ b ∈ blks, b.skip = false → s.runnelReach k b.addr = true) (n : Nat) : s.firstFail k d n blks = none := by
  refine List.findSome?_eq_none_iff.mpr fun e he => ?_
  obtain ⟨i, hi, rfl⟩ := List.mem_mapIdx.mp he
  cases hskip : blks[i].skip with
  | true => simp [s.blockFails_sram hl, hskip]
  | false => simp [s.blockFails_sram hl, h _ (List.getElem_mem hi) hskip]

theorem State.firstFail_head {d : StreamDesc} (hl : d.loc.toNat < 2) {s : State} {k : CoreId} {b : StreamBlk} (hb : b.skip = false)
    (hr : s.runnelReach k b.addr = false) (n : Nat) (rest : List StreamBlk) : s.firstFail k d n (b :: rest) = some (0, b.addr) := by
  simp [State.firstFail, s.blockFails_sram hl, hb, hr]

/-- The places of a tile's blocks where none is a skip. -/
theorem mapIdx_skip_of_live {blks : List StreamBlk} (h : ∀ b ∈ blks, b.skip = false) :
    (blks.mapIdx fun i b => (i, b.skip)) = (List.range blks.length).map fun i => (i, false) := by
  refine List.ext_getElem (by simp) fun i hi _ => ?_
  have hn : i < blks.length := by simpa using hi
  simp [h _ (List.getElem_mem hn)]

/-- Without a skip every block of a tile is asked for. -/
theorem filterMap_asked_of_live {β : Type} {blks : List StreamBlk} (h : ∀ b ∈ blks, b.skip = false) (f : Nat → β) :
    ((blks.mapIdx fun i b => (i, b.skip)).filterMap fun e => if e.2 then none else some (f e.1)) = (List.range blks.length).map f := by
  rw [mapIdx_skip_of_live h, List.filterMap_map]
  exact congrFun List.filterMap_eq_map _

/-- Without a skip no block of a tile has landed when its requests issue. -/
theorem filterMap_landed_of_live {blks : List StreamBlk} (h : ∀ b ∈ blks, b.skip = false) :
    ((blks.mapIdx fun i b => (i, b.skip)).filterMap fun e => if e.2 then some e.1 else none) = [] := by
  rw [mapIdx_skip_of_live h, List.filterMap_map]
  exact List.filterMap_eq_nil_iff.mpr fun _ _ => rfl

/-- Without a skip nothing is written before the blocks come. -/
theorem State.zeroSkips_of_live {blks : List StreamBlk} (h : ∀ b ∈ blks, b.skip = false) (s : State) (k : CoreId) (d : StreamDesc)
    (n : Nat) : s.zeroSkips k d n blks = s := by
  refine List.foldlRecOn (motive := fun u => u = s) _ _ rfl fun u hu e he => ?_
  obtain ⟨i, hi, rfl⟩ := List.mem_mapIdx.mp he
  rw [if_neg (by simp [h _ (List.getElem_mem hi)]), hu]

/-! ### A tile into its buffer (R207, R212) -/

/-- A tile whose blocks can all be moved asks for each of them. -/
theorem State.fillTile_reached {s : State} {r : RunId} {x : StreamRun} {blks : List StreamBlk} (hx : s.stream r = some x)
    (hl : x.d.loc.toNat < 2) (hne : blks ≠ []) (hb : ∀ b ∈ blks, b.skip = false ∧ s.runnelReach (coreOf r) b.addr = true) :
    s.fillTile r x blks = s.updStream r fun _ => { (x.addTile ⟨x.next, blks, .filling, [], [], [], false, 0⟩) with
      reqs := x.reqs ++ (List.range blks.length).map fun i => (x.next, i, s.nextStamp r) } := by
  have hlive : ∀ b ∈ blks, b.skip = false := fun b hm => (hb b hm).1
  have hfail : s.firstFail (coreOf r) x.d x.next blks = none := State.firstFail_none hl (fun b hm _ => (hb b hm).2) _
  have hempty : blks.isEmpty = false := by simpa using hne
  rw [State.fillTile, if_neg fun hi => StreamDesc.loc_ne_istore hl hi.1]
  simp only [hfail, s.zeroSkips_of_live hlive, filterMap_asked_of_live hlive fun i => (x.next, i, s.nextStamp r),
    filterMap_landed_of_live hlive, State.updStream_of_stream hx, hempty, StreamRun.cut]
  rfl

/-- A tile whose first block is unmapped ends the stream, and no request issues (R203, R215). -/
theorem State.fillTile_unmapped {s : State} {r : RunId} {x : StreamRun} {b : StreamBlk} (hx : s.stream r = some x)
    (hl : x.d.loc.toNat < 2) (hb : b.skip = false) (hr : s.runnelReach (coreOf r) b.addr = false) (rest : List StreamBlk) :
    s.fillTile r x (b :: rest) = s.updStream r fun _ =>
      { x with emitted := [], ended := true, halt := some (ST_UNMAPPED, b.addr) } := by
  rw [State.fillTile, if_neg fun hi => StreamDesc.loc_ne_istore hl hi.1]
  simp only [State.firstFail_head hl hb hr, List.take_zero, State.zeroSkips, List.mapIdx_nil, List.foldl_nil, State.updStream_of_stream hx]
  simp [StreamRun.cut]

/-- A buffer is free and fewer than six tiles move: the next tile is filled. -/
theorem exec_tileFillStart {s : State} {r : RunId} {x : StreamRun} {blks : List StreamBlk} (h : s.RunsStream r x)
    (hn : x.nextBlks = some blks) (hs : x.stopping = false) (hdir : x.d.dir = false) (ho : x.outstanding < 6)
    (hroom : x.next < x.d.depth ∨ s.advanced (coreOf r) x.d.donectr x.d0 (x.next - x.d.depth + 1) = true) :
    exec (.tileFillStart r) s = Next (s.fillTile r x blks) := by
  refine (h.atRunnel_onStream _).trans ?_
  simp only [hn]
  rw [if_neg]
  rcases hroom with hlt | hadv
  · simp [hdir, hs, ho, hlt]
  · simp [hdir, hs, ho, hadv]

theorem State.readSram_clean (s : State) (a : Nat) (f : State → State) : s.readSram a .none f = f s := by
  unfold State.readSram
  split <;> rfl

/-- A block comes in its order, and the code of R332 finds nothing in the SRAM that held it: it lands, or it is fetched once more. -/
theorem exec_streamBlockArrival {s : State} {r : RunId} {x : StreamRun} {t : StreamTile} {i : Nat} {b : StreamBlk}
    (h : s.RunsStream r x) (ht : x.tiles = [t]) (hst : t.st = .filling) (hb : t.blks[i]? = some b) (hi : i ∉ t.landed)
    (ho : s.inOrder r x t.n i b.addr = true) (bad : Bool) :
    let f := s.farBlock b.addr x.d.ttag x.d.tbase
    ((!bad && bibGood f.1 f.2 x.d.ttag (blockIndex b.addr x.d.tbase)) = true →
      exec (.streamBlockArrival r t.n i ⟨bad, .none⟩) s = Next (s.landBlock r x t.n i f.1 f.2)) ∧
    ((!bad && bibGood f.1 f.2 x.d.ttag (blockIndex b.addr x.d.tbase)) = false → i ∉ t.retried →
      exec (.streamBlockArrival r t.n i ⟨bad, .none⟩) s = Next (s.updStream r fun _ => { x with
        tiles := [{ t with retried := t.retried ++ [i] }]
        reqs := (x.reqs.filter fun q => q.1 != t.n || q.2.1 != i) ++ [(t.n, i, s.nextStamp r)] })) := by
  have hfind : (x.tiles.find? fun u => u.n == t.n && u.st == .filling && !u.landed.contains i) = some t := by
    simp [ht, hst, hi]
  refine ⟨fun hgood => ?_, fun hgood hr => ?_⟩
  · refine (h.atRunnel_onStream _).trans ?_
    simp only [hfind, hb, ho, State.readSram_clean, hgood]
    rfl
  · refine (h.atRunnel_onStream _).trans ?_
    simp only [hfind, hb, ho, State.readSram_clean, hgood, State.updStream_of_stream h.stream, StreamRun.updTile_single ht]
    simp [hr]

/-- A block that does not come in its order is not taken (R16). -/
theorem exec_streamBlockArrival_early {s : State} {r : RunId} {x : StreamRun} (h : s.RunsStream r x) {n i : Nat}
    (ho : ∀ t ∈ x.tiles, ∀ b, t.n = n → t.blks[i]? = some b → s.inOrder r x n i b.addr = false) (g : StreamRead) :
    exec (.streamBlockArrival r n i g) s = Next s := by
  refine (h.atRunnel_onStream _).trans ?_
  cases hfind : x.tiles.find? fun t => t.n == n && t.st == .filling && !t.landed.contains i with
  | none => rfl
  | some t =>
    cases hb : t.blks[i]? with
    | none => simp only [hb]
    | some b =>
      obtain ⟨⟨hn, -⟩, -⟩ : (t.n = n ∧ t.st = .filling) ∧ i ∉ t.landed := by simpa using List.find?_some hfind
      simp only [hb, ho t (List.mem_of_find?_eq_some hfind) b hn hb]
      rfl

/-- A tile whose blocks have all landed is READY. -/
theorem exec_tileReady {s : State} {r : RunId} {x : StreamRun} {t : StreamTile} (h : s.RunsStream r x) (hl : x.d.loc.toNat < 2)
    (ht : x.tiles = [t]) (hst : t.st = .filling) (hall : t.blks.length ≤ t.landed.length) (hh : x.halt = none) :
    exec (.tileReady r) s = Next ((s.updStream r fun _ =>
      { x with tiles := [{ t with st := .ready }], complete := x.complete + 1 }).raiseOwn (coreOf r) x.d.rdyctr) := by
  have hfind : (x.tiles.find? fun u => u.st == .filling) = some t := by simp [ht, hst]
  refine (h.atRunnel_onStream _).trans ?_
  simp [hfind, Nat.not_lt.mpr hall, StreamDesc.loc_ne_istore hl, StreamRun.failed_of_halt_none hh, State.updStream_of_stream h.stream,
    StreamRun.updTile_single ht]

/-! ### A tile out of its buffer (R207, R212) -/

/-- The program has raised `RDYCTR` for the next tile, whose buffer is free. -/
theorem exec_outboundTileReady {s : State} {r : RunId} {x : StreamRun} {blks : List StreamBlk} (h : s.RunsStream r x)
    (hn : x.nextBlks = some blks) (hs : x.stopping = false) (hdir : x.d.dir = true)
    (hroom : (x.tiles.filter fun t => t.st != .drained).length < x.d.depth)
    (hadv : s.advanced (coreOf r) x.d.rdyctr x.r0 (x.next + 1) = true) :
    exec (.outboundTileReady r) s = Next (s.updStream r fun _ => x.addTile ⟨x.next, blks, .ready, [], [], [], false, 0⟩) := by
  refine (h.atRunnel_onStream _).trans ?_
  simp only [hn]
  rw [if_neg (by simpa [hdir, hs, hadv] using hroom), State.updStream_of_stream h.stream]

/-- The blocks of a tile that are moved, with their places. -/
def StreamTile.sent (t : StreamTile) : List (Nat × StreamBlk) := (t.blks.mapIdx fun i b => (i, b)).filter fun e => !e.2.skip

theorem StreamTile.mem_sent {t : StreamTile} {e : Nat × StreamBlk} (h : e ∈ t.sent) : t.blks[e.1]? = some e.2 ∧ e.2.skip = false := by
  obtain ⟨hm, hskip⟩ := List.mem_filter.mp h
  obtain ⟨i, hi, rfl⟩ := List.mem_mapIdx.mp hm
  exact ⟨List.getElem?_eq_getElem hi, by simpa using hskip⟩

/-- What is read out of a tile is read for the blocks that are moved. -/
theorem StreamTile.filter_mapIdx_eq_map_sent {β : Type} (t : StreamTile) (f : Nat → StreamBlk → β) :
    ((t.blks.mapIdx fun i b => (i, b, f i b)).filter fun e => !e.2.1.skip) = t.sent.map fun e => (e.1, e.2, f e.1 e.2) := by
  have hmap : (t.blks.mapIdx fun i b => (i, b, f i b)) = (t.blks.mapIdx fun i b => (i, b)).map fun e => (e.1, e.2, f e.1 e.2) := by
    exact List.ext_getElem (by simp) (by simp)
  rw [hmap, List.filter_map]
  rfl

/-- Every block of a tile can be moved and passes its check as it is read out. -/
theorem State.drainTile_good {s : State} {r : RunId} {x : StreamRun} {t : StreamTile} (hx : s.stream r = some x)
    (hl : x.d.loc.toNat < 2) (ht : x.tiles = [t]) (hpeer : x.d.peeren = true → x.d.plcore.val < s.coreCount)
    (hreach : ∀ b ∈ t.blks, b.skip = false → s.runnelReach (coreOf r) b.addr = true)
    (hidle : ∀ b ∈ t.blks, b.skip = false → s.istoreBusy b.addr = false)
    (hgood : ∀ e ∈ t.sent, (s.readOut (coreOf r) x.d t.n e.1 e.2).2.2 = false) :
    s.drainTile r x t false = s.updStream r fun _ => { x with tiles := [{ t with
      st := .draining
      stamp := s.nextStamp r
      out := t.sent.map fun e => ((s.readOut (coreOf r) x.d t.n e.1 e.2).1, (s.readOut (coreOf r) x.d t.n e.1 e.2).2.1) }] } := by
  have hfail : s.firstFail (coreOf r) x.d t.n t.blks = none := State.firstFail_none hl hreach _
  have hbusy : (t.blks.any fun b => !b.skip && s.istoreBusy b.addr) = false := by
    simpa using hidle
  have hchecks : ((t.sent.map fun e => (e.1, e.2, s.readOut (coreOf r) x.d t.n e.1 e.2)).find? fun e => e.2.2.2.2) = none := by
    rw [List.find?_map, Option.map_eq_none_iff, List.find?_eq_none]
    exact fun e he => by simpa using hgood e he
  rw [State.drainTile]
  simp only [hfail, hbusy, t.filter_mapIdx_eq_map_sent, hchecks]
  rw [if_neg fun hp => absurd (hpeer hp.1) (Nat.not_lt.mpr hp.2)]
  simp [StreamRun.readTile, StreamRun.cut, State.updStream_of_stream hx, StreamRun.updTile_single ht, Function.comp_def]

/-- A READY tile is read out where no other transfer is under way. -/
theorem exec_tileDrainStart {s : State} {r : RunId} {x : StreamRun} {t : StreamTile} (h : s.RunsStream r x) (ht : x.tiles = [t])
    (hst : t.st = .ready) (hdir : x.d.dir = true) (hs : x.stopping = false) :
    exec (.tileDrainStart r ⟨false, .none⟩) s = Next (s.drainTile r x t false) := by
  have hfind : (x.tiles.find? fun u => u.st == .ready) = some t := by simp [ht, hst]
  have hout : x.outstanding = 0 := by simp [StreamRun.outstanding, ht, StreamTile.moving, hdir, hst]
  refine (h.atRunnel_onStream _).trans ?_
  simp [hfind, hdir, hs, hout, State.readThrough]

/-- A tile that has been read out frees its buffer. -/
theorem exec_tileDrained {s : State} {r : RunId} {x : StreamRun} {t : StreamTile} (h : s.RunsStream r x) (ht : x.tiles = [t])
    (hst : t.st = .draining) (hh : x.halt = none) :
    exec (.tileDrained r) s = Next ((s.updStream r fun _ => { x with tiles := [{ t with st := .drained }] }).raiseOwn (coreOf r)
      x.d.donectr) := by
  have hfind : (x.tiles.find? fun u => u.st == .draining) = some t := by simp [ht, hst]
  refine (h.atRunnel_onStream _).trans ?_
  simp [hfind, StreamRun.failed_of_halt_none hh, State.updStream_of_stream h.stream, StreamRun.updTile_single ht]

/-! ### A tile at its destination (R29, R207, R327) -/

/-- Two states have one address map and the same Runnels. -/
structure State.SameMap (s u : State) : Prop where
  frames : u.frames = s.frames
  fuses : u.fuses = s.fuses
  runnels : u.runnels = s.runnels

theorem State.SameMap.place {s u : State} (h : s.SameMap u) (a : Nat) : u.place a = s.place a := by
  change ({ s with frames := u.frames, fuses := u.fuses } : State).place a = s.place a
  rw [h.frames, h.fuses]

theorem State.SameMap.dieAt {s u : State} (h : s.SameMap u) (a : Nat) : u.dieAt a = s.dieAt a := by
  change ({ s with frames := u.frames, fuses := u.fuses } : State).dieAt a = s.dieAt a
  rw [h.frames, h.fuses]

theorem State.SameMap.stream {s u : State} (h : s.SameMap u) (r : RunId) : u.stream r = s.stream r := by
  simp only [State.stream, h.runnels]

/-- A block written to HBM leaves the address map and the Runnels alone. -/
theorem State.SameMap.writeBlock_hbm {s u : State} (h : s.SameMap u) {a : Nat} (ha : s.place a = .hbm) (data : List Byte) (bib : Word)
    (w : Writer) : s.SameMap (u.writeBlock a data bib w) := by
  simp only [State.writeBlock, h.place, ha, State.writeHbm]
  split
  · exact h
  · exact ⟨h.frames, h.fuses, h.runnels⟩

/-- Blocks of a core's tile, each with its data and bib, written at their destination; one found bad on its way to another die gets its
`CRC` inverted (R327). -/
def State.storeSent (s : State) (k : CoreId) (bad : List Nat) (l : List ((Nat × StreamBlk) × List Byte × Word)) : State :=
  l.foldl (fun u e => u.writeBlock e.1.2.addr e.2.1
    (if e.1.1 ∈ bad ∧ s.dieAt e.1.2.addr ≠ some (dieOf k) then invertCrc e.2.2 else e.2.2) (.core k)) s

/-- A tile for HBM is stored whole; the address map and the Runnels stay as they are. -/
theorem State.storeTile_hbm {s : State} {t : StreamTile} (h : ∀ b ∈ t.blks, b.skip = false → s.place b.addr = .hbm) (r : RunId)
    (bad : List Nat) :
    s.storeTile r bad t = (s.storeSent (coreOf r) bad (t.sent.zip t.out), none) ∧
      s.SameMap (s.storeSent (coreOf r) bad (t.sent.zip t.out)) := by
  refine List.foldl_rel (r := fun (w : State × Option Nat) u => w = (u, none) ∧ s.SameMap u) ⟨rfl, rfl, rfl, rfl⟩ ?_
  rintro e he _ u ⟨rfl, hu⟩
  obtain ⟨hb, hskip⟩ := StreamTile.mem_sent (List.of_mem_zip he).1
  have hplace : s.place e.1.2.addr = .hbm := h _ (List.mem_of_getElem? hb) hskip
  have hidle : u.istoreBusy e.1.2.addr = false := by rw [State.istoreBusy, hu.place, hplace]
  exact ⟨by simp [hidle, hu.dieAt], hu.writeBlock_hbm hplace _ _ _⟩

/-- The oldest tile has not been acknowledged: no tile is handed over. -/
theorem State.passTiles_held {s : State} {r : RunId} {x : StreamRun} {t : StreamTile} {rest : List StreamTile}
    (hx : s.stream r = some x) (ht : x.tiles = t :: rest) (ha : t.acked = false) (n : Nat) : s.passTiles r n = s := by
  cases n with
  | zero => rfl
  | succ n => simp [State.passTiles, hx, ht, ha]

/-- The only tile of a stream is handed over, its peer told where the stream has one. -/
theorem State.passTiles_single {s : State} {r : RunId} {x : StreamRun} {t : StreamTile} (hx : s.stream r = some x)
    (ht : x.tiles = [t]) (ha : t.acked = true) (hh : x.halt = none) :
    s.passTiles r 1 =
      let v := s.updStream r fun _ => { x with tiles := [], complete := x.complete + 1 }
      if x.d.peeren = true then v.sendCtr ⟨x.d.plcore, 70000 + r.val, x.d.pctr, 1, false⟩ else v := by
  simp [State.passTiles, hx, ht, ha, StreamRun.failed_of_halt_none hh, State.updStream_of_stream hx]

/-- A tile that can arrive is stored, acknowledged, and handed over with the earlier ones that are acknowledged. -/
theorem exec_tileDelivered {s : State} {r : RunId} {x : StreamRun} {t : StreamTile} {bad : List Nat} {w : State}
    (h : s.RunsStream r x)
    (hfind : (x.tiles.find? fun u => u.n == t.n && u.st == .drained && !u.acked) = some t) (hc : s.canArrive r x t = true)
    (hw : s.storeTile r bad t = (w, none)) :
    exec (.tileDelivered ⟨r, t.n, bad⟩) s =
      Next ((w.updStream r fun x => x.updTile t.n fun t => { t with acked := true }).passTiles r x.tiles.length) := by
  refine (h.atRunnel_onStream _).trans ?_
  simp only [hfind, hc, hw]
  rfl

/-- The only tile of an outbound stream into HBM is delivered. -/
theorem exec_tileDelivered_single {s : State} {r : RunId} {x : StreamRun} {t : StreamTile} (h : s.RunsStream r x)
    (ht : x.tiles = [t]) (hst : t.st = .drained) (ha : t.acked = false) (hh : x.halt = none) (hc : s.canArrive r x t = true)
    (hhbm : ∀ b ∈ t.blks, b.skip = false → s.place b.addr = .hbm) (bad : List Nat) :
    exec (.tileDelivered ⟨r, t.n, bad⟩) s = Next (
      let v := (s.storeSent (coreOf r) bad (t.sent.zip t.out)).updStream r fun x => { x with tiles := [], complete := x.complete + 1 }
      if x.d.peeren = true then v.sendCtr ⟨x.d.plcore, 70000 + r.val, x.d.pctr, 1, false⟩ else v) := by
  have hfind : (x.tiles.find? fun u => u.n == t.n && u.st == .drained && !u.acked) = some t := by simp [ht, hst, ha]
  obtain ⟨hstore, hmap⟩ := State.storeTile_hbm hhbm r bad
  have hx : (s.storeSent (coreOf r) bad (t.sent.zip t.out)).stream r = some x := (hmap.stream r).trans h.stream
  rw [exec_tileDelivered h hfind hc hstore, State.updStream_of_stream hx, StreamRun.updTile_single ht, ht, List.length_singleton,
    State.passTiles_single (x := { x with tiles := [{ t with acked := true }] }) (State.stream_updStream_const hx _) rfl rfl hh]
  simp [State.updStream_updStream, State.updStream_of_stream hx]

/-- A tile behind one that is not acknowledged yet waits for it. -/
theorem exec_tileDelivered_behind {s : State} {r : RunId} {x : StreamRun} {t v : StreamTile} (h : s.RunsStream r x)
    (ht : x.tiles = [t, v]) (ha : t.acked = false) (hn : t.n ≠ v.n) (hst : v.st = .drained) (hva : v.acked = false)
    (hb : v.blks = []) :
    exec (.tileDelivered ⟨r, v.n, []⟩) s = Next (s.updStream r fun _ => { x with tiles := [t, { v with acked := true }] }) := by
  have hfind : (x.tiles.find? fun u => u.n == v.n && u.st == .drained && !u.acked) = some v := by simp [ht, hn, hst, hva]
  have hc : s.canArrive r x v = true := by simp [State.canArrive, State.tilePorts, hb]
  have hw : s.storeTile r [] v = (s, none) := by simp [State.storeTile, hb]
  have hupd : x.updTile v.n (fun u => { u with acked := true }) = { x with tiles := [t, { v with acked := true }] } := by
    simp [StreamRun.updTile, ht, hn]
  rw [exec_tileDelivered h hfind hc hw, State.updStream_of_stream h.stream, hupd,
    State.passTiles_held (State.stream_updStream_const h.stream _) rfl ha]

/-! ### The statement -/

/-- Settles O51, from the rows of a running stream, tile by tile. -/
theorem streamTilesMove : Obligations.StreamTilesMove := by
  unfold Obligations.StreamTilesMove
  intro s r x hcore hfree hx hl k turns
  have h : s.RunsStream r x := ⟨hcore, hfree, hx⟩
  refine ⟨?next, ?arrival, ?early, ?ready, ?drain, ?drained, ?delivered, ?behind, ?complete, ?ends⟩
  case next =>
    intro blks hn hne hs
    refine ⟨fun hdir ho hroom => ⟨fun hb => ?_, fun b rest heq hb hr => ?_⟩, fun hdir hroom hadv => ?_⟩
    · rw [exec_tileFillStart h hn hs hdir ho hroom, State.fillTile_reached hx hl hne hb]
    · rw [exec_tileFillStart h hn hs hdir ho hroom, heq, State.fillTile_unmapped hx hl hb hr rest]
    · exact exec_outboundTileReady h hn hs hdir hroom hadv
  case arrival =>
    intro t i b ht hst hb hi ho f good
    refine ⟨fun hgood => ?_, fun hr => (exec_streamBlockArrival h ht hst hb hi ho true).2 rfl hr⟩
    rw [(exec_streamBlockArrival h ht hst hb hi ho false).1 hgood, State.landBlock, if_neg fun hi => StreamDesc.loc_ne_istore hl hi.1]
  case early => exact fun n i bad u ho => exec_streamBlockArrival_early h ho _
  case ready => exact fun t ht hst hall hh => exec_tileReady h hl ht hst hall hh
  case drain =>
    intro t ht hst hdir hs hpeer hb hgood
    have hidle : ∀ b ∈ t.blks, b.skip = false → s.istoreBusy b.addr = false := by
      intro b hm hskip
      unfold State.istoreBusy
      split
      · next o a hp => simp [(hb b hm hskip).2 o a hp]
      · rfl
    rw [exec_tileDrainStart h ht hst hdir hs, State.drainTile_good hx hl ht hpeer (fun b hm hskip => (hb b hm hskip).1) hidle
      fun e he => hgood e.1 e.2 (StreamTile.mem_sent he).1 (StreamTile.mem_sent he).2]
    rfl
  case drained => exact fun t ht hst hh => exec_tileDrained h ht hst hh
  case delivered => exact fun t bad ht hst ha hh hc hhbm => exec_tileDelivered_single h ht hst ha hh hc hhbm bad
  case behind => exact fun t v ht ha hn hst hva hb => exec_tileDelivered_behind h ht ha hn hst hva hb
  case complete => exact fun he hh hem ht hrel => exec_streamComplete h he hh hem ht hrel
  case ends => exact fun u st a hfin => ⟨u.stream_endStream r x st a, u.tiles_endStream r x st a, State.fin_endStream hfin r st a⟩

end Sys2Proof.Machine
end

section
/-! PROOFS. A stream command at a Runnel whose die link does not carry traffic (R202, R378). -/

namespace Sys2Proof.Machine

/-- While the link of its Runnel's die is not ACTIVE a stream command stays where it is: its descriptor is not judged (R378). -/
theorem exec_stream_linkDown {s : State} {q : QId} {r : RunId} {c : BitVec 512} (hd : s.dark = false)
    (hc : s.headFor q.val 0x10 = some c) (hr : (s.queue q.val).inst.toNat = r.val) (hl : s.linkUp (dieOf (coreOf r)) = false) :
    exec (.stream q) s = Next s := by
  have hrun : (⟨(s.queue q.val).inst.toNat % 128, by omega⟩ : RunId) = r := Fin.ext (by simp [hr, Nat.mod_eq_of_lt r.isLt])
  have hx : exec (.stream q) s = execStream q s := rfl
  rw [hx, execStream, always, State.unlessDark_lit s _ hd, State.onHead_of_headFor hc, State.startStream]
  simp only [hrun]
  rw [if_pos (by simp [hl])]

/-- STREAM of the descriptor at the start of core 0's Basin. -/
def basinStreamCmd : BitVec 512 := BitVec.ofNat 512 (0x10 + basinBase 0 <<< 192)

/-- A module after power good, its die links not trained yet, with a stream command in queue 9 of Runnel 0. The descriptor has one
buffer of one block, and a program of one instruction, END. -/
def untrainedStream : State :=
  { State.reset with
    mem := [(basinBase 0 + 1, 0x11), (basinBase 0 + 20, 1), (basinBase 0 + 71, 0x70)]
    queues := [(9, { Queue.disabled with ecls := 2, qstate := .active, head := some basinStreamCmd })] }

/-- Refutes O50: a stream with a good descriptor in its core's own Basin does not start while the link of the core's die is not ACTIVE,
and no hypothesis of the statement says that it is. -/
theorem not_streamsStartAndStride : ¬ Obligations.StreamsStartAndStride := by
  unfold Obligations.StreamsStartAndStride
  intro h
  obtain ⟨hcommand, -⟩ := h untrainedStream 0 rfl rfl
  obtain ⟨hstream, -⟩ := hcommand rfl rfl 9 basinStreamCmd rfl rfl (by decide +kernel)
  obtain ⟨hstarts, -⟩ := hstream (by decide +kernel) rfl
  obtain ⟨t, x, ht, hx, -⟩ := hstarts ⟨by decide +kernel, by decide +kernel, fun _ => by decide +kernel, by decide +kernel⟩
  have hstays : exec (.stream 9) untrainedStream = Next untrainedStream :=
    exec_stream_linkDown (r := 0) rfl (c := basinStreamCmd) (by decide +kernel) rfl rfl
  obtain rfl : untrainedStream = t := Host.Outcome.next.inj (hstays.symm.trans ht)
  cases hx

end Sys2Proof.Machine
end

section
/-! SUPPORT. Barrier contexts: how they read after an update, what an error leaves alone, and what a change of a context leads to
(R228-R232, R235, R297). -/

namespace Sys2Proof.Machine

/-! ### Contexts after an update -/

@[simp] theorem State.bar_updBar_same (s : State) (d : DieId) (j : Fin 16) (f : BarCtx → BarCtx) :
    (s.updBar d j f).bar d j = f (s.bar d j) := by
  simp [State.bar, State.updBar]

@[simp] theorem State.bar_withMsgs (s : State) (x : Msgs) (d : DieId) (j : Fin 16) :
    ({ s with msgs := x } : State).bar d j = s.bar d j := rfl

@[simp] theorem State.bar_sendNotes (s : State) (src : Nat) (l : List (CoreId × Fin 16 × Nat)) (d : DieId) (j : Fin 16) :
    (s.sendNotes src l).bar d j = s.bar d j := rfl

@[simp] theorem State.bar_setWgen (s : State) (a : ArrMsg) (g : BitVec 16) (d : DieId) (j : Fin 16) :
    (s.setWgen a g).bar d j = s.bar d j := rfl

@[simp] theorem State.setWgen_msgs (s : State) (a : ArrMsg) (g : BitVec 16) : (s.setWgen a g).msgs = s.msgs := rfl

@[simp] theorem State.fab_updFab_same (s : State) (j : Fin 8) (f : FabCtx → FabCtx) : (s.updFab j f).fab j = f (s.fab j) := by
  simp [State.fab]

@[simp] theorem State.fab_sendNotes (s : State) (src : Nat) (l : List (CoreId × Fin 16 × Nat)) (j : Fin 8) :
    (s.sendNotes src l).fab j = s.fab j := rfl

/-- An update of a context is known by what it makes of that context. -/
theorem State.updFab_congr {s : State} {j : Fin 8} {f g : FabCtx → FabCtx} (h : f (s.fab j) = g (s.fab j)) :
    s.updFab j f = s.updFab j g := by
  have hfab : f s.fabs[j.val] = g s.fabs[j.val] := h
  simp [State.updFab, vupd, hfab]

/-- The marks of an abort lie in the watch slots alone (R235). -/
@[simp] theorem State.markAborted_fabs (s : State) (l : List (CoreId × Fin 16 × Nat)) : (s.markAborted l).fabs = s.fabs := by
  rw [State.markAborted]
  induction l generalizing s with
  | nil => rfl
  | cons x l ih => exact ih _

@[simp] theorem State.fab_markAborted (s : State) (l : List (CoreId × Fin 16 × Nat)) (j : Fin 8) :
    (s.markAborted l).fab j = s.fab j := by
  simp [State.fab]

/-! ### What an event record and an error leave alone -/

theorem State.interrupt_eq (s : State) (v : BitVec 11) : ∃ irqs host, s.interrupt v = { s with irqs := irqs, host := host } := by
  unfold State.interrupt
  split
  · exact ⟨_, s.host, rfl⟩
  · exact ⟨s.irqs, _, rfl⟩

theorem State.ringPut_eq (s : State) (r : EvRec) : ∃ irqs hostMem events host,
    s.ringPut r = { s with irqs := irqs, hostMem := hostMem, events := events, host := host } ∧
      events.eseq = s.events.eseq := by
  unfold State.ringPut
  dsimp only
  split
  · exact ⟨_, _, _, _, rfl, rfl⟩
  · split
    · exact ⟨s.irqs, s.hostMem, _, s.host, rfl, rfl⟩
    · split
      · exact ⟨s.irqs, _, _, s.host, rfl, rfl⟩
      · next vec _ _ _ =>
        obtain ⟨irqs, host, h⟩ := State.interrupt_eq _ vec
        exact ⟨irqs, _, _, host, h, rfl⟩

/-- An event record changes nothing but the records, the host's ring and the interrupts, and takes one sequence number (R350). -/
theorem State.emit_eq (s : State) (evt sev die : Byte) (lcore : BitVec 7) (detail : Word) (addr : Nat) (p64 : Bool) :
    ∃ irqs hostMem events host,
      s.emit evt sev die lcore detail addr p64 = { s with irqs := irqs, hostMem := hostMem, events := events, host := host } ∧
        events.eseq = s.events.eseq + 1 := by
  unfold State.emit
  dsimp only
  split
  · exact State.ringPut_eq _ _
  · split
    · exact ⟨s.irqs, s.hostMem, _, s.host, rfl, rfl⟩
    · exact ⟨s.irqs, s.hostMem, _, s.host, rfl, rfl⟩

/-- `STR_STAT` once error `e` of a context and a core is recorded in it (R239). -/
def StrStat.record (x : StrStat) (e : Fin 5) (ectx : Nat) (core : BitVec 7) : StrStat :=
  ⟨BitVec.ofNat 8 ectx, core, x.bits ||| (1#5 <<< e.val)⟩

/-- An error is recorded in its die's `STR_STAT`, and with one event record where its bit was 0 (R231). -/
theorem State.barError_eq (s : State) (d : DieId) (e : Fin 5) (ectx : Nat) (core : BitVec 7) : ∃ irqs hostMem events host,
    s.barError d e ectx core =
      { s.updDie d fun x => { x with str := x.str.record e ectx core } with
        irqs := irqs, hostMem := hostMem, events := events, host := host } ∧
      events.eseq = s.events.eseq + (if (s.dies[d]).str.bits.getLsbD e.val then 0 else 1) := by
  unfold State.barError
  dsimp only
  split
  · exact ⟨s.irqs, s.hostMem, s.events, s.host, rfl, (BitVec.add_zero _).symm⟩
  · exact State.emit_eq _ _ _ _ _ _ _ _

theorem State.eseq_barError (s : State) (d : DieId) (e : Fin 5) (ectx : Nat) (core : BitVec 7) :
    (s.barError d e ectx core).events.eseq = s.events.eseq + (if (s.dies[d]).str.bits.getLsbD e.val then 0 else 1) := by
  obtain ⟨irqs, hostMem, events, host, h, heseq⟩ := s.barError_eq d e ectx core
  rw [h]
  exact heseq

theorem State.str_barError (s : State) (d : DieId) (e : Fin 5) (ectx : Nat) (core : BitVec 7) :
    ((s.barError d e ectx core).dies[d]).str = (s.dies[d]).str.record e ectx core := by
  obtain ⟨irqs, hostMem, events, host, h, -⟩ := s.barError_eq d e ectx core
  simp [h]

/-- An error changes no context of its die. -/
@[simp] theorem State.bar_barError (s : State) (d : DieId) (e : Fin 5) (ectx : Nat) (core : BitVec 7) (j : Fin 16) :
    (s.barError d e ectx core).bar d j = s.bar d j := by
  obtain ⟨irqs, hostMem, events, host, h, -⟩ := s.barError_eq d e ectx core
  simp [h, State.bar]

/-! ### What a change of a context of a die leads to (R228, R229, R232) -/

theorem BarCtx.full_of_arrived_ne {b : BarCtx} (h : b.arrived ≠ b.cmask) : b.full = false := by
  simp [BarCtx.full, h]

/-- A context that not every participant has reached sends nothing to the other dies (R232). -/
theorem State.localPart_incomplete {s : State} {d : DieId} {j : Fin 16} (h : (s.bar d j).full = false) : s.localPart d j = s := by
  simp [State.localPart, h]

/-- A die sends its message of a generation once (R232). -/
theorem State.localPart_sent {s : State} {d : DieId} {j : Fin 16}
    (h : (s.bar d j).dieMask = true → (s.bar d j).darr.getLsbD d.val = true) : s.localPart d j = s := by
  rw [State.localPart]
  refine if_neg fun hsends => ?_
  simp only [Bool.and_eq_true, Bool.not_eq_true'] at hsends
  obtain ⟨⟨-, hdie⟩, hunsent⟩ := hsends
  exact Bool.false_ne_true (hunsent.symm.trans (h hdie))

theorem State.releaseBar_incomplete {s : State} {d : DieId} {j : Fin 16} (h : (s.bar d j).full = false) : s.releaseBar d j = s := by
  simp [State.releaseBar, State.localPart_incomplete h, BarCtx.due, h]

/-- A context that not every participant has reached sends nothing and does not release (R228). -/
theorem State.advanceBar_incomplete {s : State} {d : DieId} {j : Fin 16} (h : (s.bar d j).full = false) : s.advanceBar d j = s := by
  rw [State.advanceBar, State.releaseBar_incomplete h, State.releaseBar_incomplete h, State.localPart_incomplete h]

/-- After the release of a context without early arrivals no participant has arrived (R229). -/
theorem BarCtx.full_release {b : BarCtx} (hearly : b.early = 0) (hmask : b.cmask ≠ 0) : b.release.full = false :=
  BarCtx.full_of_arrived_ne fun h => hmask (h.symm.trans hearly)

/-- A context that is due, and whose message to the other dies of its mask has gone, releases once where no arrival is early (R229,
R232). -/
theorem State.advanceBar_due {s : State} {d : DieId} {j : Fin 16} {b : BarCtx} (hb : s.bar d j = b) (hdue : b.due = true)
    (hsent : b.dieMask = true → b.darr.getLsbD d.val = true) (hearly : b.early = 0) (hmask : b.cmask ≠ 0) :
    s.advanceBar d j = (s.updBar d j BarCtx.release).sendNotes d.val b.slots := by
  subst hb
  have hrelease : s.releaseBar d j = (s.updBar d j BarCtx.release).sendNotes d.val (s.bar d j).slots := by
    simp [State.releaseBar, State.localPart_sent hsent, hdue]
  have hempty : ((s.releaseBar d j).bar d j).full = false := by
    simpa [hrelease] using BarCtx.full_release hearly hmask
  rw [State.advanceBar, State.releaseBar_incomplete hempty, State.localPart_incomplete hempty, hrelease]

/-! ### What a change of a fabric context leads to (R297) -/

/-- A fabric context that not every core of its mask has reached sends nothing and does not release (R233). -/
theorem State.advanceFab_incomplete {s : State} {j : Fin 8} (h : (s.fab j).arrived ≠ (s.fab j).fcmask) : s.advanceFab j = s := by
  have hpart : s.fabComplete j = false := by simp [State.fabComplete, h]
  have hstep : s.stepFab j = s := by simp [State.stepFab, hpart]
  rw [State.advanceFab, hstep, hstep]

end Sys2Proof.Machine
end

section
/-! PROOFS. Arrivals and messages of the barriers of a die and of a die mask (R228-R232). -/

namespace Sys2Proof.Machine

/-! ### The commands -/

/-- The oldest arrival on its way, at a context of its die, is delivered (R228). -/
theorem exec_barrierArrival_local {s : State} {k : CoreId} {m : ArrMsg} {rest : List ArrMsg} (hcore : s.hasCore k = true)
    (hheld : s.dieHeld (dieOf k) = false) (hm : s.msgs.arrs = m :: rest) (hk : m.core = k) (hscope : m.scope = 0) :
    exec (.barrierArrival k) s = Next (({ s with msgs := { s.msgs with arrs := rest } } : State).arriveBar m) := by
  have hx : exec (.barrierArrival k) s = execBarrierArrival k s := rfl
  rw [hx, execBarrierArrival, atCore_of_hasCore k s _ hcore, State.unlessHeld_free s _ _ hheld]
  simp [hm, takeFirst, hk, hscope]

/-- The only message on its way to a die is delivered where its sender reaches the die (R232). -/
theorem exec_dieBarrierMessage_single {s : State} {d : DieId} {m : DieMsg} (hdie : s.hasDie d = true) (hout : s.dieOut d = false)
    (hm : s.msgs.dies.filter (fun x => x.target == d) = [m]) (hpath : s.path m.sender d = true) :
    exec (.dieBarrierMessage d 0) s =
      Next (({ s with msgs := { s.msgs with dies := s.msgs.dies.filter fun x => x.target != d } } : State).dieMessage m) := by
  have hx : exec (.dieBarrierMessage d 0) s = execDieBarrierMessage d 0 s := rfl
  rw [hx, execDieBarrierMessage, atDie_runs d s _ hdie hout]
  simp [hm, hpath, dropAt]

/-! ### An arrival -/

/-- A context with the arrival of core `m.core` counted (R228). -/
def BarCtx.count (b : BarCtx) (m : ArrMsg) : BarCtx :=
  { b with arrived := b.arrived ||| (1#16 <<< (m.core.val % 16)), slots := b.slots ++ [(m.core, m.slot, m.tag)] }

/-- A context of a core mask that counts an arrival of core k: it names the core, which has not arrived in the generation (R228). -/
structure BarCtx.Counts (b : BarCtx) (k : CoreId) : Prop where
  valid : b.valid = true
  coreMask : b.dieMask = false
  named : b.cmask.getLsbD (k.val % 16) = true
  first : b.arrived.getLsbD (k.val % 16) = false

theorem BarCtx.Counts.cmask_ne_zero {b : BarCtx} {k : CoreId} (h : b.Counts k) : b.cmask ≠ 0 := fun h0 => by
  simpa [h0] using h.named

section
variable {s : State} {m : ArrMsg} {j : Fin 16} {b : BarCtx}

/-- An arrival that a context counts, and what the context does then (R228). -/
theorem State.arriveBar_counts (hj : m.ctx.toNat % 16 = j.val) (hscope : m.scope = 0) (hb : s.bar (dieOf m.core) j = b)
    (h : b.Counts m.core) :
    s.arriveBar m = ((s.updBar (dieOf m.core) j fun b => b.count m).setWgen m b.gen).advanceBar (dieOf m.core) j := by
  have hctx : (⟨m.ctx.toNat % 16, by omega⟩ : Fin 16) = j := Fin.ext hj
  simp [State.arriveBar, hctx, localOf, hscope, hb, h.valid, h.coreMask, h.named, h.first, BarCtx.count]

/-- An arrival that is not the last one is kept (R228). -/
theorem State.arriveBar_incomplete (hj : m.ctx.toNat % 16 = j.val) (hscope : m.scope = 0) (hb : s.bar (dieOf m.core) j = b)
    (h : b.Counts m.core) (hpart : (b.count m).arrived ≠ b.cmask) :
    s.arriveBar m = (s.updBar (dieOf m.core) j fun b => b.count m).setWgen m b.gen := by
  rw [State.arriveBar_counts hj hscope hb h]
  refine State.advanceBar_incomplete ?_
  simpa [hb] using BarCtx.full_of_arrived_ne (b := b.count m) hpart

/-- The last arrival releases the context and notifies every slot named in it (R229). -/
theorem State.arriveBar_last (hj : m.ctx.toNat % 16 = j.val) (hscope : m.scope = 0) (hb : s.bar (dieOf m.core) j = b)
    (h : b.Counts m.core) (hlast : (b.count m).arrived = b.cmask) (hearly : b.early = 0) :
    s.arriveBar m = (((s.updBar (dieOf m.core) j fun b => b.count m).setWgen m b.gen).updBar (dieOf m.core) j
      BarCtx.release).sendNotes (dieOf m.core).val (b.count m).slots := by
  have hdue : (b.count m).due = true := by
    rw [BarCtx.due, BarCtx.full, hlast]
    simp [BarCtx.count, h.valid, h.coreMask]
  have hbar : ((s.updBar (dieOf m.core) j fun b => b.count m).setWgen m b.gen).bar (dieOf m.core) j = b.count m := by simp [hb]
  rw [State.arriveBar_counts hj hscope hb h]
  exact State.advanceBar_due hbar hdue (fun hdie => absurd (h.coreMask.symm.trans hdie) Bool.false_ne_true) hearly h.cmask_ne_zero

/-- An arrival at a context that is not configured sets `BARKIND` (R230). -/
theorem State.arriveBar_invalid (hj : m.ctx.toNat % 16 = j.val) (hvalid : (s.bar (dieOf m.core) j).valid = false) :
    s.arriveBar m = s.barError (dieOf m.core) BARKIND j.val (BitVec.ofNat 7 m.core.val) := by
  simp [State.arriveBar, hj, hvalid]

end

/-! ### A message of another die -/

/-- A context with a message of die `t` of its generation (R232). -/
def BarCtx.hear (b : BarCtx) (t : DieId) : BarCtx := { b with darr := b.darr ||| (1#4 <<< t.val) }

section
variable {s : State} {m : DieMsg} {b : BarCtx}

/-- A message of the next generation is kept as early (R232). -/
theorem State.dieMessage_early (hb : s.bar m.target m.ctx = b) (hdmask : m.dmask = b.dmask) (hgen : m.gen = b.gen + 1) :
    s.dieMessage m = s.updBar m.target m.ctx fun b => { b with dearly := b.dearly ||| (1#4 <<< m.sender.val) } := by
  simp [State.dieMessage, hb, hdmask, hgen]

/-- The last message of a generation releases a context whose own part is complete (R232). -/
theorem State.dieMessage_last (hb : s.bar m.target m.ctx = b) (hdmask : m.dmask = b.dmask) (hgen : m.gen = b.gen)
    (hfull : b.full = true) (hown : b.darr.getLsbD m.target.val = true) (hmask : b.cmask ≠ 0)
    (hlast : (b.hear m.sender).darr = b.dmask) (hearly : b.early = 0) :
    s.dieMessage m = ((s.updBar m.target m.ctx fun b => b.hear m.sender).updBar m.target m.ctx BarCtx.release).sendNotes
      m.target.val b.slots := by
  have hbar : (s.updBar m.target m.ctx fun b => b.hear m.sender).bar m.target m.ctx = b.hear m.sender := by simp [hb]
  have hheard : s.dieMessage m = (s.updBar m.target m.ctx fun b => b.hear m.sender).advanceBar m.target m.ctx := by
    simp [State.dieMessage, hb, hdmask, hgen, BarCtx.hear]
  have hdue : (b.hear m.sender).due = true := by
    rw [BarCtx.due, hlast]
    simpa [BarCtx.full, BarCtx.hear] using hfull
  have hsent : (b.hear m.sender).darr.getLsbD m.target.val = true := by simp [BarCtx.hear, hown]
  have hreleased := State.advanceBar_due hbar hdue (fun _ => hsent) hearly hmask
  exact hheard.trans hreleased

end

/-- Settles O38: an arrival or a message changes its context once, and a context that is then due releases once. -/
theorem dieBarriers : Obligations.DieBarriers := by
  unfold Obligations.DieBarriers
  intro s k j hcore hheld
  dsimp only
  refine ⟨fun m rest hm hk hscope hctx => ?arrival, fun m hdie hm hpath hj hdmask => ?message⟩
  case arrival =>
    have hx := exec_barrierArrival_local hcore hheld hm hk hscope
    have hmod : m.ctx.toNat % 16 = j.val := by
      rw [hctx, BitVec.toNat_ofNat]
      omega
    subst hk
    refine ⟨fun hvalid hkind hmask hnew => ?_, fun hvalid => ?_⟩
    · have hcounts : (s.bar (dieOf m.core) j).Counts m.core := ⟨hvalid, hkind, hmask, hnew⟩
      refine ⟨fun hpart => ?_, fun hlast hearly => ?_⟩
      · exact ⟨_, hx.trans (congrArg _ (State.arriveBar_incomplete hmod hscope rfl hcounts hpart)),
          State.bar_updBar_same _ _ _ _, rfl⟩
      · refine ⟨_, hx.trans (congrArg _ (State.arriveBar_last hmod hscope rfl hcounts hlast hearly)), ?_, rfl⟩
        simp [BarCtx.release, BarCtx.count, hearly]
    · refine ⟨_, hx.trans (congrArg _ (State.arriveBar_invalid hmod hvalid)), ?_⟩
      exact ⟨State.bar_barError _ _ _ _ _ _, State.str_barError _ _ _ _ _, State.eseq_barError _ _ _ _ _⟩
  case message =>
    have htarget : m.target = dieOf k := by
      have hmem : m ∈ s.msgs.dies.filter fun x => x.target == dieOf k := hm ▸ List.mem_singleton_self m
      simpa using (List.mem_filter.mp hmem).2
    have hx := exec_dieBarrierMessage_single hdie (State.dieOut_of_dieHeld s _ hheld) hm hpath
    generalize dieOf k = d at hheld hdie hm hpath hdmask htarget hx ⊢
    subst htarget hj
    refine ⟨fun hgen => ?_, fun hgen hfull hkind hown hne hlast hearly => ?_⟩
    · exact ⟨_, hx.trans (congrArg _ (State.dieMessage_early rfl hdmask hgen)), State.bar_updBar_same _ _ _ _, rfl⟩
    · refine ⟨_, hx.trans (congrArg _ (State.dieMessage_last rfl hdmask hgen hfull hown hne hlast hearly)), ?_, rfl⟩
      simp [BarCtx.release, BarCtx.hear, hearly]

end Sys2Proof.Machine
end

section
/-! PROOFS. Barrier configuration, binding and aborts, and the messages of fabric contexts (R233-R235, R241, R296, R297). -/

namespace Sys2Proof.Machine

/-! ### Register writes -/

theorem State.ifOpen_open {s : State} {n : Fin 3} (h : s.barOpen n = true) (f : State → State) : s.ifOpen n f = f s := by
  simp [State.ifOpen, h]

section
variable {s : State}

theorem exec_barCfgWrite {d : DieId} (hopen : s.barOpen 0 = true) (hdie : s.hasDie d = true) (hout : s.dieOut d = false)
    (j : Fin 16) (v : Word) : exec (.barCfgWrite d j v) s = Next (if s.barRefused d j v then s.barError d CFGREJ j.val 0x7F
      else s.updBar d j fun b =>
        { b with valid := v.getLsbD 63, dieMask := v.getLsbD 62, dmask := v.extractLsb' 48 4, cmask := v.extractLsb' 0 16 }) := by
  have hx : exec (.barCfgWrite d j v) s = execBarCfgWrite d j v s := rfl
  rw [hx, execBarCfgWrite, atDie_runs d s _ hdie hout, State.ifOpen_open hopen]

theorem exec_babort {d : DieId} (hopen : s.barOpen 0 = true) (hdie : s.hasDie d = true) (hout : s.dieOut d = false) (j : Fin 16) :
    exec (.babort d j) s = Next ((s.markAborted ((s.bar d j).slots ++ (s.bar d j).eslots)).updBar d j BarCtx.abort) := by
  have hx : exec (.babort d j) s = execBabort d j s := rfl
  rw [hx, execBabort, atDie_runs d s _ hdie hout, State.ifOpen_open hopen]

/-- A mask is taken where the context holds no arrival and the mask names cores of the grade (R234, R241). -/
theorem exec_fbarCfgWrite_taken (hdark : s.dark = false) (hopen : s.barOpen 0 = true) {j : Fin 8} {v : Word}
    (hidle : (s.fab j).arrivals = false) (hne : v ≠ 0) (hcores : v.toNat < 2 ^ s.coreCount) :
    exec (.fbarCfgWrite j v) s = Next (s.updFab j fun f => { f with fcmask := v }) := by
  have hx : exec (.fbarCfgWrite j v) s = execFbarCfgWrite j v s := rfl
  rw [hx, execFbarCfgWrite, always, State.unlessDark_lit s _ hdark, State.ifOpen_open hopen]
  refine congrArg Host.Outcome.next (if_neg ?_)
  rintro (h | h | h)
  · exact Bool.false_ne_true (hidle.symm.trans h)
  · exact hne h
  · omega

/-- A binding is taken where the context holds no arrival of a core or of a child and the group is valid (R296). -/
theorem exec_fbarBindWrite_taken (hdark : s.dark = false) (hopen : s.barOpen 0 = true) {j : Fin 8} {v : Word}
    (hidle : (s.fab j).arrivals = false) (hkids : (s.fab j).kids = []) (hekids : (s.fab j).ekids = [])
    (hgroup : v.getLsbD 63 = true → (s.group (v.extractLsb' 0 12)).valid = true) :
    exec (.fbarBindWrite j v) s = Next (s.updFab j fun f => { f with valid := v.getLsbD 63, group := v.extractLsb' 0 12 }) := by
  have hx : exec (.fbarBindWrite j v) s = execFbarBindWrite j v s := rfl
  have hok : ¬(v.getLsbD 63 = true ∧ (s.group (v.extractLsb' 0 12)).valid = false) := fun ⟨hv, hg⟩ =>
    Bool.false_ne_true (hg.symm.trans (hgroup hv))
  rw [hx, execFbarBindWrite, always, State.unlessDark_lit s _ hdark, State.ifOpen_open hopen]
  simp only [hidle, hkids, hekids, hok, ne_eq, not_true_eq_false, Bool.false_eq_true, or_self, if_false]

/-- Generations that an abort has ended, once FABORT has ended the current one too (R235). -/
def FabCtx.ended (f : FabCtx) : List (BitVec 16) := f.gen :: f.aborted.filter fun g => decide ((f.gen - g).toNat < 2 ^ 15)

/-- FABORT clears the context and keeps the generation it ended, so that no message of it counts as released (R235). -/
theorem exec_fabort (hdark : s.dark = false) (hopen : s.barOpen 0 = true) (j : Fin 8) : ∃ l : List (BitVec 16), (s.fab j).gen ∈ l ∧
    exec (.fabort j) s = Next ((s.markAborted ((s.fab j).slots ++ (s.fab j).eslots)).updFab j fun f =>
      { f with gen := f.gen + 1, arrived := 0, early := 0, slots := [], eslots := [], kids := [], ekids := [], sent := false,
               relGen := none, aborted := l }) := by
  have hx : exec (.fabort j) s = execFabort j s := rfl
  refine ⟨(s.fab j).ended, List.mem_cons_self, ?_⟩
  rw [hx, execFabort, always, State.unlessDark_lit s _ hdark, State.ifOpen_open hopen]
  refine congrArg Host.Outcome.next (State.updFab_congr ?_)
  rw [State.fab_markAborted]
  rfl

end

/-! ### The messages of a fabric context (R297) -/

section
variable {s : State} {j : Fin 8} {m : FabMsg}

/-- A message with a wrong fingerprint is discarded and counted (R297, R300). -/
theorem exec_fabricBarrierMessage_refused (hdark : s.dark = false) (h : (s.group (s.fab j).group).gfp ≠ m.gfp) :
    exec (.fabricBarrierMessage j m) s = Next s.gfpRefused := by
  have hx : exec (.fabricBarrierMessage j m) s = execFabricBarrierMessage j m s := rfl
  rw [hx, execFabricBarrierMessage, always, State.unlessDark_lit s _ hdark]
  simp [h]

theorem exec_fabricBarrierMessage_release (hdark : s.dark = false) (hvalid : (s.fab j).valid = true)
    (hgroup : (s.group (s.fab j).group).valid = true) (hgfp : (s.group (s.fab j).group).gfp = m.gfp) (hgen : m.gen = (s.fab j).gen)
    (hrel : m.release = true) : exec (.fabricBarrierMessage j m) s = Next ((s.releaseFab j).advanceFab j) := by
  have hx : exec (.fabricBarrierMessage j m) s = execFabricBarrierMessage j m s := rfl
  rw [hx, execFabricBarrierMessage, always, State.unlessDark_lit s _ hdark]
  simp [hvalid, hgroup, hgfp, hrel, hgen]

theorem exec_fabricBarrierMessage_arrival (hdark : s.dark = false) (hvalid : (s.fab j).valid = true)
    (hgroup : (s.group (s.fab j).group).valid = true) (hgfp : (s.group (s.fab j).group).gfp = m.gfp) (hrel : m.release = false) :
    exec (.fabricBarrierMessage j m) s = Next (s.childArrival j m) := by
  have hx : exec (.fabricBarrierMessage j m) s = execFabricBarrierMessage j m s := rfl
  rw [hx, execFabricBarrierMessage, always, State.unlessDark_lit s _ hdark]
  simp [hvalid, hgroup, hgfp, hrel]

/-- A member without children releases its own participants, once where no arrival is early (R297). -/
theorem State.releaseFab_leaf (hleaf : childrenOf (s.group (s.fab j).group) (s.group (s.fab j).group).myrank.toNat = [])
    (hearly : (s.fab j).early = 0) (hmask : (s.fab j).fcmask ≠ 0) :
    (s.releaseFab j).advanceFab j = (s.updFab j FabCtx.release).sendNotes 4 (s.fab j).slots := by
  have hrel : s.releaseFab j = (s.updFab j FabCtx.release).sendNotes 4 (s.fab j).slots := by simp [State.releaseFab, hleaf]
  have hempty : ((s.releaseFab j).fab j).arrived ≠ ((s.releaseFab j).fab j).fcmask := by
    simpa [hrel, FabCtx.release, hearly] using hmask.symm
  rw [State.advanceFab_incomplete hempty, hrel]

/-- The arrival of a child is kept while the own part is not complete (R297). -/
theorem State.childArrival_kept (hchild : m.fromRank.toNat ∈ childrenOf (s.group (s.fab j).group) (s.group (s.fab j).group).myrank.toNat)
    (hgen : m.gen = (s.fab j).gen) (hpart : (s.fab j).arrived ≠ (s.fab j).fcmask) (hnew : m.fromRank.toNat ∉ (s.fab j).kids) :
    s.childArrival j m = s.updFab j fun f => { f with kids := f.kids ++ [m.fromRank.toNat] } := by
  have hkept : s.childArrival j m =
      (s.updFab j fun f => { f with kids := f.kids ++ [m.fromRank.toNat] }).advanceFab j := by
    simp only [State.childArrival, FabCtx.released, hgen, bne_self_eq_false, Bool.false_and, List.contains_iff_mem.mpr hchild,
      Bool.true_eq_false, Bool.false_eq_true, if_false, if_true]
    exact congrArg (fun u : State => u.advanceFab j) (State.updFab_congr (by simp [hnew]))
  rw [hkept]
  exact State.advanceFab_incomplete (by simpa using hpart)

/-- An arrival of the current generation that has gone to the parent goes again (R297). -/
theorem exec_fabricBarrierResend_arrival (hdark : s.dark = false) (hvalid : (s.fab j).valid = true) (hsent : (s.fab j).sent = true)
    (hrank : (s.group (s.fab j).group).myrank ≠ 0) (hrel : (s.fab j).relGen = none) :
    exec (.fabricBarrierResend j) s = Next (s.sendFabric j (s.group (s.fab j).group)
      (((s.group (s.fab j).group).myrank.toNat - 1) / 16) false (s.fab j).gen) := by
  have hx : exec (.fabricBarrierResend j) s = execFabricBarrierResend j s := rfl
  rw [hx, execFabricBarrierResend, always, State.unlessDark_lit s _ hdark]
  simp only [hvalid, hsent, hrel, hrank, ne_eq, not_false_eq_true, and_self, if_true]

/-- The last release goes again to the children that have not gone on (R297). -/
theorem exec_fabricBarrierResend_release {gen : BitVec 16} (hdark : s.dark = false) (hvalid : (s.fab j).valid = true)
    (hsent : (s.fab j).sent = false) (hrel : (s.fab j).relGen = some gen) :
    exec (.fabricBarrierResend j) s = Next (((childrenOf (s.group (s.fab j).group) (s.group (s.fab j).group).myrank.toNat).filter
      fun r => !(s.fab j).kids.contains r).foldl (fun t r => t.sendFabric j (s.group (s.fab j).group) r true gen) s) := by
  have hx : exec (.fabricBarrierResend j) s = execFabricBarrierResend j s := rfl
  rw [hx, execFabricBarrierResend, always, State.unlessDark_lit s _ hdark]
  simp [hvalid, hsent, hrel]

end

/-- Settles O39, command by command. -/
theorem barrierRegistersAndFabric : Obligations.BarrierRegistersAndFabric := by
  unfold Obligations.BarrierRegistersAndFabric
  intro s hdark
  refine ⟨fun hopen d j v hdie hout => ?die, fun hopen j v => ?fabric, fun j m => ?messages⟩
  case die =>
    have hx := exec_barCfgWrite hopen hdie hout j v
    refine ⟨fun htaken => ?_, fun hrefused => ?_, exec_babort hopen hdie hout j⟩
    · rw [hx, htaken]
      rfl
    · rw [hrefused] at hx
      exact ⟨_, hx, State.bar_barError _ _ _ _ _ _, congrArg StrStat.bits (State.str_barError _ _ _ _ _)⟩
  case fabric =>
    exact ⟨exec_fbarCfgWrite_taken hdark hopen, exec_fabort hdark hopen j, exec_fbarBindWrite_taken hdark hopen⟩
  case messages =>
    refine ⟨exec_fabricBarrierMessage_refused hdark, fun hvalid hgroup hgfp hgen => ⟨fun hrel hleaf hearly hmask => ?_,
      fun hrel hchild hpart hnew => ?_⟩, exec_fabricBarrierResend_arrival hdark,
      fun gen hvalid hsent hrel => exec_fabricBarrierResend_release hdark hvalid hsent hrel⟩
    · rw [exec_fabricBarrierMessage_release hdark hvalid hgroup hgfp hgen hrel, State.releaseFab_leaf hleaf hearly hmask]
      refine congrArg (fun u : State => Next (u.sendNotes 4 (s.fab j).slots)) (State.updFab_congr ?_)
      simp [FabCtx.release, hearly]
    · rw [exec_fabricBarrierMessage_arrival hdark hvalid hgroup hgfp hrel, State.childArrival_kept hchild hgen hpart hnew]

end Sys2Proof.Machine
end

section
/-! SUPPORT. Queues after an update, what the judgement of waiting heads and the reading ahead leave alone (R247, R252, R253), and what a
completion leaves behind (R254-R257). -/

namespace Sys2Proof.Machine

/-! ### A queue after an update -/

theorem Sparse.put_put {α : Type} (m : Sparse α) (a : Nat) (v w : α) : Sparse.put (Sparse.put m a v) a w = Sparse.put m a w := by
  induction m with
  | nil => simp [Sparse.put]
  | cons e m ih =>
    obtain ⟨k, x⟩ := e
    by_cases hlt : a < k
    · simp [Sparse.put, hlt]
    · by_cases heq : a = k
      · simp [Sparse.put, heq]
      · simp [Sparse.put, hlt, heq, ih]

theorem State.updQueue_updQueue (s : State) (q : Nat) (f g : Queue → Queue) :
    (s.updQueue q f).updQueue q g = s.updQueue q fun x => g (f x) := by
  rw [State.updQueue, State.queue_updQueue_same, State.updQueue_queues, Sparse.put_put]
  rfl

/-- An update of a queue is known by what it makes of that queue. -/
theorem State.updQueue_congr {s : State} {q : Nat} {f g : Queue → Queue} (h : f (s.queue q) = g (s.queue q)) :
    s.updQueue q f = s.updQueue q g := by
  rw [State.updQueue, State.updQueue, h]

/-! ### Waiting heads judged (R252, R253) -/

/-- t differs from s only in what waiting heads keep of their dependencies and in which of them are ready. -/
structure State.Noted (s t : State) : Prop where
  rest : { t with queues := s.queues, ready := s.ready } = s
  queue : ∀ r, { t.queue r with
    head := (s.queue r).head, w1 := (s.queue r).w1, w2 := (s.queue r).w2, depHalt := (s.queue r).depHalt } = s.queue r
  settled : ∀ r, (s.queue r).qstate ≠ .waiting → t.queue r = s.queue r
  ready : ∀ r, r ∈ t.ready → r ∈ s.ready ∨ (s.queue r).qstate = .waiting

theorem State.Noted.refl (s : State) : s.Noted s := ⟨rfl, fun _ => rfl, fun _ _ => rfl, fun _ h => .inl h⟩

theorem State.Noted.qstate {s t : State} (h : s.Noted t) (r : Nat) : (t.queue r).qstate = (s.queue r).qstate := by
  have hq := congrArg Queue.qstate (h.queue r)
  exact hq

theorem State.Noted.trans {s t u : State} (h : s.Noted t) (k : t.Noted u) : s.Noted u where
  rest := (congrArg (fun v : State => { v with queues := s.queues, ready := s.ready }) k.rest).trans h.rest
  queue r := (congrArg (fun x : Queue => { x with
    head := (s.queue r).head, w1 := (s.queue r).w1, w2 := (s.queue r).w2, depHalt := (s.queue r).depHalt }) (k.queue r)).trans (h.queue r)
  settled r hr := (k.settled r (by rwa [h.qstate])).trans (h.settled r hr)
  ready r hr := (k.ready r hr).elim (h.ready r) fun hw => .inr ((h.qstate r).symm.trans hw)

theorem State.Noted.updQueue {s : State} {q : Nat} (hw : (s.queue q).qstate = .waiting) (c : Option (BitVec 512)) (b1 b2 h : Bool) :
    s.Noted (s.updQueue q fun x => { x with head := c, w1 := b1, w2 := b2, depHalt := h }) where
  rest := rfl
  queue r := by
    by_cases hr : r = q
    · rw [hr, State.queue_updQueue_same]
    · rw [State.queue_updQueue_ne _ _ _ _ hr]
  settled r hr := State.queue_updQueue_ne _ _ _ _ fun h => hr (h ▸ hw)
  ready _ := .inl

theorem State.Noted.enqueue {s : State} {q : Nat} (hw : (s.queue q).qstate = .waiting) :
    s.Noted { s with ready := s.ready ++ [q] } where
  rest := rfl
  queue _ := rfl
  settled _ _ := rfl
  ready r hr := (List.mem_append.mp hr).imp_right fun h => by rw [List.mem_singleton.mp h, hw]

/-- A waiting head that passes its checks, as `noteHead` leaves it: with the words `m1` and `m2` met and a halt `h` seen (R252). -/
theorem State.noteHead_judged {s : State} {q : Nat} {c : BitVec 512} {m1 m2 h : Bool} (hw : (s.queue q).qstate = .waiting)
    (hr : q ∉ s.ready) (hc : s.headCmd q = c) (hj : s.judgeHead q c = none)
    (h1 : ((s.queue q).w1 || s.depMet (cmdDep c 0)) = m1) (h2 : ((s.queue q).w2 || s.depMet (cmdDep c 1)) = m2)
    (hh : ((s.queue q).depHalt || (!m1 && s.depHalted (cmdDep c 0)) || (!m2 && s.depHalted (cmdDep c 1))) = h) :
    s.noteHead q =
      if m1 && m2 && !h then
        { s.updQueue q fun x => { x with head := some c, w1 := true, w2 := true, depHalt := false } with ready := s.ready ++ [q] }
      else s.updQueue q fun x => { x with head := some c, w1 := m1, w2 := m2, depHalt := h } := by
  subst hc
  have hskip : ¬ ((s.queue q).qstate ≠ .waiting ∨ s.ready.contains q = true) := by simp [hw, hr]
  simp only [State.noteHead, if_neg hskip, hj, h1, h2, hh]
  cases m1 <;> cases m2 <;> cases h <;> rfl

/-- A halt once seen stays seen (R252). -/
theorem State.depHalt_noteHead {s : State} {q : Nat} {c : BitVec 512} {m1 m2 h : Bool} (hw : (s.queue q).qstate = .waiting)
    (hr : q ∉ s.ready) (hc : s.headCmd q = c) (hj : s.judgeHead q c = none)
    (h1 : ((s.queue q).w1 || s.depMet (cmdDep c 0)) = m1) (h2 : ((s.queue q).w2 || s.depMet (cmdDep c 1)) = m2)
    (hh : ((s.queue q).depHalt || (!m1 && s.depHalted (cmdDep c 0)) || (!m2 && s.depHalted (cmdDep c 1))) = h) :
    ((s.noteHead q).queue q).depHalt = h := by
  rw [State.noteHead_judged hw hr hc hj h1 h2 hh]
  split
  · next hready =>
    obtain ⟨-, hclear⟩ := Bool.and_eq_true_iff.mp hready
    have hq := congrArg Queue.depHalt (State.queue_updQueue_same s q fun x =>
      { x with head := some c, w1 := true, w2 := true, depHalt := false })
    exact hq.trans (by simpa using hclear.symm)
  · rw [State.queue_updQueue_same]

theorem State.noted_noteHead (s : State) (q : Nat) : s.Noted (s.noteHead q) := by
  by_cases hskip : (s.queue q).qstate ≠ .waiting ∨ s.ready.contains q = true
  · rw [State.noteHead, if_pos hskip]
    exact .refl s
  · obtain ⟨hw, hr⟩ : (s.queue q).qstate = .waiting ∧ q ∉ s.ready := by simpa using hskip
    cases hj : s.judgeHead q (s.headCmd q) with
    | some st =>
      have hstays : s.noteHead q = s := by simp only [State.noteHead, if_neg hskip, hj]
      rw [hstays]
      exact .refl s
    | none =>
      rw [State.noteHead_judged hw hr rfl hj rfl rfl rfl]
      split
      · exact (State.Noted.updQueue hw _ _ _ _).trans (.enqueue (((State.Noted.updQueue hw _ _ _ _).qstate q).trans hw))
      · exact .updQueue hw _ _ _ _

theorem State.noted_noteDeps (s : State) : s.Noted s.noteDeps := by
  have hfold (l : List Nat) (u : State) (h : s.Noted u) : s.Noted (l.foldl (fun s q => s.noteHead q) u) := by
    induction l generalizing u with
    | nil => exact h
    | cons q l ih => exact ih _ (h.trans (u.noted_noteHead q))
  exact hfold _ s (.refl s)

/-! ### One queue changed, with what follows from it (R247, R252) -/

theorem State.readAhead_cases (s : State) (q : Nat) :
    s.readAhead q = s ∨ ∃ l, s.readAhead q = s.updQueue q fun x => { x with ahead := l } := by
  unfold State.readAhead
  dsimp only
  split
  · exact .inl rfl
  · exact .inr ⟨_, State.updQueue_congr rfl⟩

theorem State.readAhead_halted {s : State} {q : Nat} (h : (s.queue q).qstate = .halted) : s.readAhead q = s := by
  rw [State.readAhead]
  exact if_pos (.inr h)

theorem State.onlyQueue_updQueue (s : State) (q : Nat) (f : Queue → Queue) : s.onlyQueue (s.updQueue q f) q (f (s.queue q)) :=
  ⟨rfl, by rw [State.queue_updQueue_same], fun r hr => by rw [State.queue_updQueue_ne _ _ _ _ hr]⟩

theorem State.onlyQueue.readAhead {s u : State} {q : Nat} {y : Queue} (h : s.onlyQueue u q y) : s.onlyQueue (u.readAhead q) q y := by
  obtain ⟨hrest, hq, hne⟩ := h
  obtain hr | ⟨l, hr⟩ := u.readAhead_cases q
  · rw [hr]
    exact ⟨hrest, hq, hne⟩
  · rw [hr]
    refine ⟨hrest, ?_, fun r hr => ?_⟩
    · rw [State.queue_updQueue_same]
      exact hq
    · rw [State.queue_updQueue_ne _ _ _ _ hr]
      exact hne r hr

theorem State.onlyQueue.noted {s u t : State} {q : Nat} {y : Queue} (h : s.onlyQueue u q y) (k : u.Noted t) : s.onlyQueue t q y := by
  obtain ⟨hrest, hq, hne⟩ := h
  refine ⟨?_, ?_, fun r hr => ?_⟩
  · exact (congrArg (fun v : State => { v with queues := s.queues, ready := s.ready }) k.rest).trans hrest
  · exact (congrArg (fun x : Queue => { x with
      head := y.head, ahead := y.ahead, w1 := y.w1, w2 := y.w2, depHalt := y.depHalt }) (k.queue q)).trans hq
  · exact (congrArg (fun x : Queue => { x with
      head := (s.queue r).head, w1 := (s.queue r).w1, w2 := (s.queue r).w2, depHalt := (s.queue r).depHalt }) (k.queue r)).trans (hne r hr)

/-- A change of a queue, with the commands behind its head read ahead and every waiting head judged anew. -/
theorem State.onlyQueue_reread (s : State) (q : Nat) (f : Queue → Queue) :
    s.onlyQueue ((s.updQueue q f).readAhead q).noteDeps q (f (s.queue q)) :=
  (s.onlyQueue_updQueue q f).readAhead.noted (State.noted_noteDeps _)

/-! ### A record written (R254) -/

theorem State.writeHbm_eq (s : State) (blk : Nat) (data : List Byte) (bib : Word) : ∃ mem bibs poison l,
    s.writeHbm blk data bib .other = { s with mem := mem, bibs := bibs, poison := poison, guard := { s.guard with list := l } } := by
  unfold State.writeHbm
  split
  · exact ⟨s.mem, s.bibs, s.poison, s.guard.list, rfl⟩
  · exact ⟨_, _, _, _, rfl⟩

theorem State.mergeHbm_eq (s : State) (a : Nat) (bs : List Byte) : ∃ mem bibs poison l,
    s.mergeHbm a bs .other = { s with mem := mem, bibs := bibs, poison := poison, guard := { s.guard with list := l } } := by
  unfold State.mergeHbm
  dsimp only
  split
  · exact ⟨s.mem, s.bibs, s.poison, s.guard.list, rfl⟩
  · obtain ⟨mem, bibs, poison, l, h⟩ := s.writeHbm_eq (a / 4096) (splice (s.rd (4096 * (a / 4096)) 4096) (a % 4096) bs)
      (mkBib (bibTag (s.hbmBib (a / 4096))) (bibIdx (s.hbmBib (a / 4096))).toNat
        (crc32c (splice (s.rd (4096 * (a / 4096)) 4096) (a % 4096) bs)))
    rw [h]
    split
    · exact ⟨mem, bibs, _, l, rfl⟩
    · exact ⟨mem, bibs, poison, l, rfl⟩

theorem length_natLe (n v : Nat) : (natLe n v).length = n := by
  induction n generalizing v with
  | zero => rfl
  | succ n ih => exact congrArg (· + 1) (ih (v / 256))

/-- One codeword is one merge into its block (R403). -/
theorem State.writeHbmBytes_codeword (s : State) (a : Nat) {bs : List Byte} (h : bs.length = 64) :
    s.writeHbmBytes a bs = s.mergeHbm a bs .other := by
  rw [State.writeHbmBytes, h]
  change s.mergeHbm a (bs.take 64) .other = _
  rw [List.take_of_length_le (Nat.le_of_eq h)]

theorem State.putRecord_eq_mergeHbm (s : State) (q : Nat) (seq tag : BitVec 32) (st : Byte) (r : BitVec 384) :
    s.putRecord q seq tag st r = s.mergeHbm ((s.queue q).slotAddr seq) (natLe 64 (completionRecord q seq tag st r).toNat) .other :=
  s.writeHbmBytes_codeword _ (length_natLe _ _)

theorem State.putRecord_eq (s : State) (q : Nat) (seq tag : BitVec 32) (st : Byte) (r : BitVec 384) : ∃ mem bibs poison l,
    s.putRecord q seq tag st r = { s with mem := mem, bibs := bibs, poison := poison, guard := { s.guard with list := l } } := by
  rw [State.putRecord_eq_mergeHbm]
  exact s.mergeHbm_eq _ _

@[simp] theorem State.queue_putRecord (s : State) (q r : Nat) (seq tag : BitVec 32) (st : Byte) (res : BitVec 384) :
    (s.putRecord q seq tag st res).queue r = s.queue r := by
  obtain ⟨mem, bibs, poison, l, h⟩ := s.putRecord_eq q seq tag st res
  rw [h]
  rfl

/-! ### A completion (R254-R257) -/

/-- A queue whose head has completed with a status. -/
def Queue.completed (x : Queue) (st : Byte) : Queue :=
  if goesOn st then
    let y := { x.dropHead with done := x.done + 1 }
    if x.qstate = .stopping then y.halt ST_STOPPED else { y with qstate := y.nextState }
  else x.halt st

theorem Queue.completed_halts (x : Queue) {st : Byte} (h : goesOn st = false) : x.completed st = x.halt st := by
  rw [Queue.completed, h]
  rfl

/-- The state with the record of a head written and its queue gone on or halted, and no head judged yet. -/
def State.retired (s : State) (q : Nat) (st : Byte) (r : BitVec 384) : State :=
  let u := s.putRecord q (s.queue q).done (cmdTag (s.headCmd q)) st r
  { u.updQueue q fun x => x.completed st with ready := u.ready.filter (· != q), active := u.active.filter (· != q) }

theorem State.queue_retired (s : State) (q : Nat) (st : Byte) (r : BitVec 384) :
    (s.retired q st r).queue q = (s.queue q).completed st := by
  have h := State.queue_updQueue_same (s.putRecord q (s.queue q).done (cmdTag (s.headCmd q)) st r) q fun x => x.completed st
  rwa [State.queue_putRecord] at h

theorem State.sigRaise_eq (s : State) (q : Nat) (c : BitVec 512) : ∃ msgs, s.sigRaise q c = { s with msgs := msgs } := by
  unfold State.sigRaise
  split
  · exact ⟨_, rfl⟩
  · exact ⟨s.msgs, rfl⟩

/-- Beside its record and its queue, a completion judges the waiting heads, and sends a raise and an interrupt (R255). -/
theorem State.complete_eq (s : State) (q : Nat) (st : Byte) (r : BitVec 384) : ∃ msgs irqs host,
    s.complete q st r = { ((s.retired q st r).readAhead q).noteDeps with msgs := msgs, irqs := irqs, host := host } := by
  let v := ((s.retired q st r).readAhead q).noteDeps
  let w := if st = ST_OK then v.sigRaise q (s.headCmd q) else v
  have hc : s.complete q st r = if cmdNotify (s.headCmd q) || !goesOn st then w.interrupt (s.queue q).vector else w := rfl
  obtain ⟨msgs, hw⟩ : ∃ msgs, w = { v with msgs := msgs } := by
    by_cases hst : st = ST_OK
    · obtain ⟨msgs, h⟩ := v.sigRaise_eq q (s.headCmd q)
      exact ⟨msgs, (if_pos hst).trans h⟩
    · exact ⟨v.msgs, if_neg hst⟩
  rw [hc, hw]
  split
  · obtain ⟨irqs, host, h⟩ := State.interrupt_eq _ (s.queue q).vector
    exact ⟨msgs, irqs, host, h⟩
  · exact ⟨msgs, _, _, rfl⟩

/-- What the completion of the head of queue q with status st and result r leaves of state s. -/
structure State.Completed (s t : State) (q : Nat) (st : Byte) (r : BitVec 384) : Prop where
  mem : t.mem = (s.putRecord q (s.queue q).done (cmdTag (s.headCmd q)) st r).mem
  cores : t.cores = s.cores
  twin : t.guard.twin = s.guard.twin
  queue : { t.queue q with
    head := ((s.queue q).completed st).head, ahead := ((s.queue q).completed st).ahead, w1 := ((s.queue q).completed st).w1
    w2 := ((s.queue q).completed st).w2, depHalt := ((s.queue q).completed st).depHalt } = (s.queue q).completed st
  halted : goesOn st = false → t.queue q = (s.queue q).halt st
  unready : ((s.queue q).completed st).qstate ≠ .waiting → q ∉ t.ready
  inactive : q ∉ t.active

theorem State.rest_retired (s : State) (q : Nat) (st : Byte) (r : BitVec 384) :
    (s.retired q st r).cores = s.cores ∧ (s.retired q st r).guard.twin = s.guard.twin := by
  obtain ⟨mem, bibs, poison, l, h⟩ := s.putRecord_eq q (s.queue q).done (cmdTag (s.headCmd q)) st r
  rw [State.retired, h]
  exact ⟨rfl, rfl⟩

theorem State.completed_complete (s : State) (q : Nat) (st : Byte) (r : BitVec 384) : s.Completed (s.complete q st r) q st r := by
  obtain ⟨msgs, irqs, host, hc⟩ := s.complete_eq q st r
  have hself : (s.retired q st r).onlyQueue (s.retired q st r) q ((s.queue q).completed st) :=
    ⟨rfl, by rw [State.queue_retired], fun _ _ => rfl⟩
  have hnoted := State.noted_noteDeps ((s.retired q st r).readAhead q)
  obtain ⟨hrest, hqueue, -⟩ := hself.readAhead.noted hnoted
  obtain ⟨hcores, htwin⟩ := s.rest_retired q st r
  have hread : ((s.retired q st r).readAhead q).ready = (s.retired q st r).ready ∧
      (((s.retired q st r).readAhead q).queue q).qstate = ((s.queue q).completed st).qstate := by
    obtain h | ⟨l, h⟩ := (s.retired q st r).readAhead_cases q
    · rw [h, State.queue_retired]
      exact ⟨rfl, rfl⟩
    · rw [h, State.queue_updQueue_same, State.queue_retired]
      exact ⟨rfl, rfl⟩
  have hfilter : ∀ l : List Nat, q ∉ l.filter fun p => p != q := by simp
  have hmem := congrArg State.mem hrest
  have hcores' := (congrArg State.cores hrest).trans hcores
  have htwin' := (congrArg (fun u : State => u.guard.twin) hrest).trans htwin
  rw [hc]
  refine ⟨hmem, hcores', htwin', hqueue, fun hst => ?halted, fun hq hr => ?unready, ?inactive⟩
  case halted =>
    have hcompleted := (s.queue q).completed_halts hst
    have hhalt : ((s.retired q st r).queue q).qstate = .halted := by rw [State.queue_retired, hcompleted]; rfl
    rw [State.readAhead_halted hhalt] at hnoted
    have hkept := hnoted.settled q (by rw [hhalt]; decide)
    rw [State.queue_retired, hcompleted] at hkept
    rw [State.readAhead_halted hhalt]
    exact hkept
  case unready =>
    obtain h | h := hnoted.ready q hr
    · rw [hread.1] at h
      exact hfilter _ h
    · exact hq (hread.2.symm.trans h)
  case inactive =>
    have hactive := congrArg State.active hrest
    exact fun h => hfilter _ (hactive ▸ h)

end Sys2Proof.Machine
end

section
/-! PROOFS. What host software does to a queue (R246, R257, R258, R357). -/

namespace Sys2Proof.Machine

/-! ### A job at a core that is due (R357) -/

/-- Physical core p serves the core of queue x and is due for a test. -/
def State.dueFor (s : State) (x : Queue) (p : PCoreNo) : Prop :=
  (x.ecls = 1 ∨ x.ecls = 2) ∧ s.servedBy x.lcore = some p ∧ (s.pcore (dieOf x.lcore) p).due.isSome = true

/-- Which cores are due for a queue depends on the dies and on the engine of the queue. -/
theorem State.dueFor_iff {s u : State} {x y : Queue} (hdies : u.dies = s.dies) (hecls : y.ecls = x.ecls) (hinst : y.inst = x.inst)
    (p : PCoreNo) : u.dueFor y p ↔ s.dueFor x p := by
  simp only [State.dueFor, State.servedBy, State.findPCore, State.pcore, Queue.lcore, hdies, hecls, hinst]

theorem vupd_self {α : Type} {n : Nat} {v : Vector α n} {i : Fin n} {f : α → α} (h : f v[i] = v[i]) : vupd v i f = v := by
  rw [vupd, h]
  exact Vector.set_getElem_self _

theorem State.updPCore_congr {s : State} {d : DieId} {p : PCoreNo} {f g : PCore → PCore} (h : f (s.pcore d p) = g (s.pcore d p)) :
    s.updPCore d p f = s.updPCore d p g := by
  have hp : f (s.dies[d.val].pcores[p.val]) = g (s.dies[d.val].pcores[p.val]) := h
  simp [State.updPCore, State.updDie, vupd, hp]

theorem State.updPCore_self (s : State) (d : DieId) (p : PCoreNo) : s.updPCore d p (fun x => x) = s := by
  have hdie : vupd s.dies d (fun x => { x with pcores := vupd x.pcores p fun x => x }) = s.dies :=
    vupd_self (congrArg (fun l => { s.dies[d] with pcores := l }) (vupd_self rfl))
  rw [State.updPCore, State.updDie, hdie]

theorem State.jobArrives_undue {s : State} {q : Nat} (h : ∀ p, ¬ s.dueFor (s.queue q) p) : s.jobArrives q = s := by
  unfold State.jobArrives
  dsimp only
  split
  · next hjob =>
    split
    · next p hp =>
      have hdue : (s.pcore (dieOf (s.queue q).lcore) p).due.isSome = false :=
        Bool.eq_false_iff.mpr fun hdue => h p ⟨hjob.1, hp, hdue⟩
      rw [State.updPCore_congr (g := fun x => x) (by simp [PCore.becomesOwed, hdue])]
      exact s.updPCore_self _ _
    · rfl
  · rfl

theorem State.jobArrives_due {s : State} {q : Nat} {p : PCoreNo} (h : s.dueFor (s.queue q) p)
    (htest : (s.pcore (dieOf (s.queue q).lcore) p).test = none) (howed : (s.pcore (dieOf (s.queue q).lcore) p).owed = false)
    (hjob : (s.queue q).done ≠ (s.queue q).tail) :
    s.jobArrives q = s.updPCore (dieOf (s.queue q).lcore) p fun c =>
      { c with owed := true, owedAt := s.cooldown.phours, due := none } := by
  obtain ⟨hclass, hserved, hdue⟩ := h
  have harrives : s.jobArrives q = s.updPCore (dieOf (s.queue q).lcore) p fun c => c.becomesOwed s.cooldown.phours := by
    simp only [State.jobArrives, if_pos (And.intro hclass hjob), hserved]
  rw [harrives]
  exact State.updPCore_congr (if_pos ⟨hdue, by rw [htest]; rfl, howed⟩)

/-! ### Doorbells (R246) -/

section
variable {s : State} {q : QId}

theorem exec_doorbell (hdark : s.dark = false) (hopen : s.barOpen 1 = true) (hready : s.host.ready = true) (v : Word) (whole : Bool) :
    exec (.doorbell q v whole) s = Next ((s.doorbell q.val v whole).jobArrives q.val) := by
  have hx : exec (.doorbell q v whole) s = execDoorbell q v whole s := rfl
  rw [hx, execDoorbell, always, State.unlessDark_lit s _ hdark, State.ifOpen_open hopen, if_pos hready]

/-- A doorbell that is refused: not written whole, with a high bit, past the ring's end, or back (R246). -/
theorem State.doorbell_refused {q : Nat} {v : Word} {whole : Bool} (hen : (s.queue q).en = true)
    (h : whole = false ∨ v.extractLsb' 32 32 ≠ 0 ∨ 2 ^ (s.queue q).log2n.toNat < (v.extractLsb' 0 32 - (s.queue q).done).toNat ∨
      2 ^ 31 ≤ (v.extractLsb' 0 32 - (s.queue q).tail).toNat) :
    s.doorbell q v whole = s.updQueue q fun x => { x with dberr := true } := by
  have hhigh : fld v 32 32 ≠ 0 ↔ v.extractLsb' 32 32 ≠ 0 := not_congr (BitVec.toNat_eq (y := 0#32)).symm
  rw [State.doorbell, if_neg (by simp [hen])]
  exact if_pos (by rwa [hhigh])

/-- A queue with `TAIL` moved to t: an idle one that then holds a command waits (R246). -/
def Queue.rung (x : Queue) (t : BitVec 32) : Queue :=
  { x with tail := t, qstate := if x.qstate = .idle ∧ x.done ≠ t then .waiting else x.qstate }

theorem State.doorbell_taken {q : Nat} {v : Word} (hen : (s.queue q).en = true) (hhigh : v.extractLsb' 32 32 = 0)
    (hring : (v.extractLsb' 0 32 - (s.queue q).done).toNat ≤ 2 ^ (s.queue q).log2n.toNat)
    (hback : (v.extractLsb' 0 32 - (s.queue q).tail).toNat < 2 ^ 31) :
    s.doorbell q v true = ((s.updQueue q fun x => x.rung (v.extractLsb' 0 32)).readAhead q).noteDeps := by
  have hfld : fld v 32 32 = 0 := congrArg BitVec.toNat hhigh
  rw [State.doorbell, if_neg (by simp [hen])]
  refine if_neg ?_
  rintro (h | h | h | h)
  · cases h
  · exact h hfld
  · omega
  · omega

/-- A change of queue q that leaves its engine leaves the cores that are due for it. -/
theorem State.onlyQueue.due_iff {u : State} {q : Nat} {y : Queue} (h : s.onlyQueue u q y) (hecls : y.ecls = (s.queue q).ecls)
    (hinst : y.inst = (s.queue q).inst) (p : PCoreNo) :
    (u.queue q).lcore = (s.queue q).lcore ∧ (u.dueFor (u.queue q) p ↔ s.dueFor (s.queue q) p) := by
  obtain ⟨hrest, hq, -⟩ := h
  have hue : (u.queue q).ecls = (s.queue q).ecls := Eq.trans (congrArg Queue.ecls hq :) hecls
  have hui : (u.queue q).inst = (s.queue q).inst := Eq.trans (congrArg Queue.inst hq :) hinst
  exact ⟨by simp only [Queue.lcore, hue, hui], State.dueFor_iff (congrArg State.dies hrest :) hue hui p⟩

/-- Where no core is due for a queue, a job that arrives in it changes none. -/
theorem State.onlyQueue.jobArrives_undue {u : State} {q : Nat} {y : Queue} (h : s.onlyQueue u q y) (hecls : y.ecls = (s.queue q).ecls)
    (hinst : y.inst = (s.queue q).inst) (hdue : ∀ p, ¬ s.dueFor (s.queue q) p) : u.jobArrives q = u :=
  State.jobArrives_undue fun p hp => hdue p ((h.due_iff hecls hinst p).2.mp hp)

/-- A job that arrives for a core that is due makes it owed (R357). -/
theorem State.onlyQueue.jobArrives_due {u : State} {q : Nat} {y : Queue} {p : PCoreNo} (h : s.onlyQueue u q y)
    (hecls : y.ecls = (s.queue q).ecls) (hinst : y.inst = (s.queue q).inst) (hdue : s.dueFor (s.queue q) p)
    (htest : (s.pcore (dieOf (s.queue q).lcore) p).test = none) (howed : (s.pcore (dieOf (s.queue q).lcore) p).owed = false)
    (hjob : y.done ≠ y.tail) :
    u.jobArrives q = u.updPCore (dieOf (s.queue q).lcore) p fun c =>
      { c with owed := true, owedAt := s.cooldown.phours, due := none } := by
  obtain ⟨hlcore, hdue'⟩ := h.due_iff hecls hinst p
  obtain ⟨hrest, hq, -⟩ := h
  have hdies : u.dies = s.dies := (congrArg State.dies hrest :)
  have hphours : u.cooldown.phours = s.cooldown.phours := (congrArg (fun v : State => v.cooldown.phours) hrest :)
  have hdone : (u.queue q).done = y.done := (congrArg Queue.done hq :)
  have htail : (u.queue q).tail = y.tail := (congrArg Queue.tail hq :)
  have hpcore : u.pcore (dieOf (s.queue q).lcore) p = s.pcore (dieOf (s.queue q).lcore) p := by simp only [State.pcore, hdies]
  rw [State.jobArrives_due (hdue'.mpr hdue) (by rw [hlcore, hpcore, htest]) (by rw [hlcore, hpcore, howed])
    (by rwa [hdone, htail]), hlcore, hphours]

/-! ### STOP (R257, R258) -/

theorem exec_stop (hdark : s.dark = false) (hopen : s.barOpen 0 = true) : exec (.stop q) s = Next (s.stopQueue q.val) := by
  have hx : exec (.stop q) s = execStop q s := rfl
  rw [hx, execStop, always, State.unlessDark_lit s _ hdark, State.ifOpen_open hopen]

theorem State.stopQueue_active {q : Nat} (h : (s.queue q).qstate = .active) :
    s.stopQueue q = (s.windDown q).updQueue q fun x => { x with qstate := .stopping } := by
  simp only [State.stopQueue, h]

/-- A command that its engine has not begun ends at once (R258). -/
theorem State.windDown_unbegun {q : Nat} (hbegun : (s.queue q).begun = false) (hfin : (s.queue q).fin = none) :
    s.windDown q = s.updQueue q fun x => { x with fin := some ⟨ST_STOPPED, 0⟩ } := by
  rw [← State.finish_unfinished hfin]
  simp only [State.windDown, hfin, hbegun, if_true]

/-- A TALLOC whose record is not written gives its handle back (R258, R497). -/
theorem State.windDown_talloc {q : Nat} {r : BitVec 384} (hecls : (s.queue q).ecls = 5)
    (hopc : cmdOpc ((s.queue q).head.getD 0) = 0x50) (hfin : (s.queue q).fin = some ⟨ST_OK, r⟩) :
    s.windDown q = ({ s with handles := s.handles.untake (r.toNat % 2 ^ 20) } : State).updQueue q fun x =>
      { x with fin := some ⟨ST_STOPPED, 0⟩ } := by
  simp only [State.windDown, hfin, hecls, hopc, and_self, if_true]

theorem State.updCore_congr {k : CoreId} {f g : Core → Core} (h : f (s.core k) = g (s.core k)) : s.updCore k f = s.updCore k g := by
  have hcore : f s.cores[k.val] = g s.cores[k.val] := h
  simp [State.updCore, vupd, hcore]

/-- The sequencer of a launch is stopped (R160, R258). -/
theorem State.windDown_launch {q : Nat} (hbegun : (s.queue q).begun = true) (hfin : (s.queue q).fin = none)
    (hecls : (s.queue q).ecls = 1) (hrun : (s.core (s.queue q).lcore).running = true) :
    s.windDown q = s.updCore (s.queue q).lcore fun c => c.stopSeq 0x07 := by
  have hstop : s.updCore (s.queue q).lcore Core.hostStop = s.updCore (s.queue q).lcore fun c => c.stopSeq 0x07 :=
    State.updCore_congr (if_pos hrun)
  rw [← hstop]
  simp [State.windDown, hfin, hbegun, hecls]

/-! ### RESUME, SKIP and FLUSH (R257) -/

theorem exec_resume (hdark : s.dark = false) (hopen : s.barOpen 0 = true) (hhalted : (s.queue q.val).qstate = .halted) :
    exec (.resume q) s = Next
      ((s.updQueue q.val fun x => { x.dropHead with qstate := x.nextState, hcause := 0 }).readAhead q.val).noteDeps := by
  have hx : exec (.resume q) s = execResume q s := rfl
  rw [hx, execResume, always, State.unlessDark_lit s _ hdark, State.ifOpen_open hopen, State.resumeQueue, if_neg (by simp [hhalted])]

theorem exec_skip (hdark : s.dark = false) (hopen : s.barOpen 0 = true) (hhalted : (s.queue q.val).qstate = .halted)
    (hheld : (s.queue q.val).done ≠ (s.queue q.val).tail) :
    exec (.skip q) s = Next ((s.updQueue q.val fun x => { x.dropHead with
      done := x.done + 1, hcause := 0, qstate := if x.done + 1 = x.tail then .idle else .waiting }).readAhead q.val).noteDeps := by
  have hx : exec (.skip q) s = execSkip q s := rfl
  rw [hx, execSkip, always, State.unlessDark_lit s _ hdark, State.ifOpen_open hopen, State.skipQueue, if_neg (by simp [hhalted])]
  refine congrArg (fun u : State => Next (u.readAhead q.val).noteDeps) (State.updQueue_congr ?_)
  simp only [if_neg hheld]
  rfl

theorem State.queue_interrupt (s : State) (v : BitVec 11) (q : Nat) : (s.interrupt v).queue q = s.queue q := by
  obtain ⟨irqs, host, h⟩ := s.interrupt_eq v
  rw [h]
  rfl

/-- The slots of a flush go by one by one; nothing else of the queue changes (R257). -/
theorem State.queue_flushSlots (s : State) (q n : Nat) :
    (s.flushSlots q n).queue q = { s.queue q with done := (s.queue q).done + BitVec.ofNat 32 n } := by
  induction n generalizing s with
  | zero => simp [State.flushSlots]
  | succ n ih =>
    rw [State.flushSlots, ih]
    have hslot (u : State) (b : Bool) (v : BitVec 11) : (if b then u.interrupt v else u).queue q = u.queue q := by
      split
      · exact u.queue_interrupt v q
      · rfl
    rw [hslot, State.queue_updQueue_same, State.queue_putRecord]
    simp [BitVec.ofNat_add, BitVec.add_assoc, BitVec.add_comm]

theorem exec_flush (hdark : s.dark = false) (hopen : s.barOpen 0 = true)
    (hrests : (s.queue q.val).qstate = .halted ∨ (s.queue q.val).qstate = .idle ∨ (s.queue q.val).qstate = .waiting) :
    ∃ t, exec (.flush q) s = Next t ∧ q.val ∉ t.ready ∧
      t.queue q.val = { (s.queue q.val).dropHead with done := (s.queue q.val).tail, qstate := .idle, hcause := 0, ahead := [] } := by
  have hx : exec (.flush q) s = execFlush q s := rfl
  let n := ((s.queue q.val).tail - (s.queue q.val).done).toNat
  let u : State := { (s.flushSlots q.val n).updQueue q.val fun x => { x.dropHead with qstate := .idle, hcause := 0, ahead := [] } with
    ready := (s.flushSlots q.val n).ready.filter (· != q.val) }
  have hu : u.queue q.val = { (s.queue q.val).dropHead with done := (s.queue q.val).tail, qstate := .idle, hcause := 0, ahead := [] } := by
    have hq := State.queue_updQueue_same (s.flushSlots q.val n) q.val fun x =>
      { x.dropHead with qstate := .idle, hcause := 0, ahead := [] }
    have hdone : (s.queue q.val).done + BitVec.ofNat 32 n = (s.queue q.val).tail := by
      rw [BitVec.ofNat_toNat, BitVec.setWidth_eq, BitVec.add_comm, BitVec.sub_add_cancel]
    rw [State.queue_flushSlots, hdone] at hq
    exact hq
  have hnoted := u.noted_noteDeps
  refine ⟨u.noteDeps, ?_, fun h => ?_, (hnoted.settled q.val (by rw [hu]; simp)).trans hu⟩
  · rw [hx, execFlush, always, State.unlessDark_lit s _ hdark, State.ifOpen_open hopen, State.flushQueue, if_pos hrests]
  · obtain h | h := hnoted.ready q.val h
    · simp [u] at h
    · rw [hu] at h
      cases h

end

/-- Settles O40, act by act. -/
theorem hostActsOnQueues : Obligations.HostActsOnQueues := by
  unfold Obligations.HostActsOnQueues
  intro s q hdark hopen0 hopen1 hready
  dsimp only
  refine ⟨fun v hen => ⟨fun hhigh hring hback => ⟨fun hdue => ?rung, fun p hdue htest howed hjob => ?rungDue⟩,
      fun hdue hbad => ?refused, fun hdue => ?partialWrite⟩,
    fun hidle => ?stopIdle, fun hwait => ?stopWaiting, fun hactive hbegun hfin => ?stopUnbegun,
    fun r hactive hecls hopc hfin => ?stopTalloc, fun hactive hbegun hfin hecls hrun => ?stopLaunch,
    fun hhalted => ⟨?resume, fun hheld => ?skip⟩, fun hrests => ?flush⟩
  case rung =>
    have honly := s.onlyQueue_reread q.val fun x => x.rung (v.extractLsb' 0 32)
    refine ⟨_, honly, ?_⟩
    rw [exec_doorbell hdark hopen1 hready, State.doorbell_taken hen hhigh hring hback, honly.jobArrives_undue rfl rfl hdue]
  case rungDue =>
    have honly := s.onlyQueue_reread q.val fun x => x.rung (v.extractLsb' 0 32)
    refine ⟨_, honly, ?_⟩
    rw [exec_doorbell hdark hopen1 hready, State.doorbell_taken hen hhigh hring hback, honly.jobArrives_due rfl rfl hdue htest howed hjob]
  case refused =>
    have honly := s.onlyQueue_updQueue q.val fun x => { x with dberr := true }
    rw [exec_doorbell hdark hopen1 hready, State.doorbell_refused hen (.inr hbad), honly.jobArrives_undue rfl rfl hdue]
  case partialWrite =>
    have honly := s.onlyQueue_updQueue q.val fun x => { x with dberr := true }
    rw [exec_doorbell hdark hopen1 hready, State.doorbell_refused hen (.inl rfl), honly.jobArrives_undue rfl rfl hdue]
  case stopIdle =>
    refine ⟨_, (s.onlyQueue_updQueue q.val fun x => x.halt ST_STOPPED).noted (State.noted_noteDeps _), ?_⟩
    rw [exec_stop hdark hopen0]
    simp only [State.stopQueue, hidle]
  case stopWaiting =>
    have hc := s.completed_complete q.val ST_STOPPED 0
    have hhalted := (s.queue q.val).completed_halts (st := ST_STOPPED) rfl
    refine ⟨s.complete q.val ST_STOPPED 0, ?_, ?_⟩
    · rw [exec_stop hdark hopen0]
      simp only [State.stopQueue, hwait]
    · rw [hc.halted rfl]
      exact ⟨rfl, rfl, rfl, rfl, hc.unready (by rw [hhalted]; exact nofun), hc.inactive⟩
  case stopUnbegun =>
    rw [exec_stop hdark hopen0, State.stopQueue_active hactive, State.windDown_unbegun hbegun hfin, State.updQueue_updQueue]
  case stopTalloc =>
    rw [exec_stop hdark hopen0, State.stopQueue_active hactive, State.windDown_talloc hecls hopc hfin, State.updQueue_updQueue]
    rfl
  case stopLaunch =>
    rw [exec_stop hdark hopen0, State.stopQueue_active hactive, State.windDown_launch hbegun hfin hecls hrun]
    rfl
  case resume => exact ⟨_, s.onlyQueue_reread q.val _, exec_resume hdark hopen0 hhalted⟩
  case skip => exact ⟨_, s.onlyQueue_reread q.val _, exec_skip hdark hopen0 hhalted hheld⟩
  case flush =>
    obtain ⟨t, ht, hunready, hq⟩ := exec_flush hdark hopen0 hrests
    refine ⟨t, ht, ?_⟩
    rw [hq]
    exact ⟨rfl, rfl, rfl, rfl, hunready⟩

end Sys2Proof.Machine
end

section
/-! PROOFS. A waiting head judged, and its dispatch (R242, R252, R253, R256, R504). -/

namespace Sys2Proof.Machine

/-! ### DEPENDENCY_MET -/

/-- A dependency on something absent or disabled has a status that halts the queue (R252, R256). -/
theorem State.halts_of_depAbsent {s : State} {q : Nat} {done : BitVec 32} {w : Word} {st : Byte} (h : s.depAbsent q done w = some st) :
    goesOn st = false := by
  simp only [State.depAbsent] at h
  split at h
  · split at h
    · cases h; rfl
    · cases h
  · split at h
    · split at h
      · cases h; rfl
      · cases h
    · cases h

/-- A head that fails a check gets a status that halts its queue (R256). -/
theorem State.halts_of_judgeHead {s : State} {q : Nat} {c : BitVec 512} {st : Byte} (h : s.judgeHead q c = some st) :
    goesOn st = false := by
  simp only [State.judgeHead] at h
  split at h
  case isTrue => cases h; rfl
  case isFalse =>
  split at h
  case isTrue => cases h; rfl
  case isFalse =>
  split at h
  case isTrue => cases h; rfl
  case isFalse =>
  split at h
  case isTrue => cases h; rfl
  case isFalse =>
  obtain hw | ⟨-, hw⟩ := Option.or_eq_some_iff.mp h
  · exact State.halts_of_depAbsent hw
  · exact State.halts_of_depAbsent hw

/-- No digest of a unit waits to be formed again: a Baton command sends none (R346). -/
theorem State.regate_none {s : State} (h : s.guard.twin.redo = []) (q : Nat) : s.regate q = s := by
  unfold State.regate
  split
  · split
    · rw [h]
      rfl
    · rfl
  · rfl

section
variable {s : State} {q : QId} {c : BitVec 512}

/-- A waiting head c of queue q that is not ready, in a module whose twin owes nothing. -/
structure State.Judges (s : State) (q : QId) (c : BitVec 512) : Prop where
  lit : s.dark = false
  waiting : (s.queue q.val).qstate = .waiting
  head : (s.queue q.val).head = some c
  unready : q.val ∉ s.ready
  redo : s.guard.twin.redo = []

theorem State.Judges.headCmd (h : s.Judges q c) : s.headCmd q.val = c := by
  rw [State.headCmd, h.head]
  rfl

theorem State.Judges.exec (h : s.Judges q c) {t : State} (ht : s.judgeWaiting q.val = t) (htwin : t.guard.twin = s.guard.twin) :
    exec (.dependencyMet q) s = Next t := by
  have hx : Machine.exec (.dependencyMet q) s = execDependencyMet q s := rfl
  rw [hx, execDependencyMet, always, State.unlessDark_lit s _ h.lit, ht, State.regate_none (by rw [htwin, h.redo])]

theorem State.Judges.judged (h : s.Judges q c) : ¬ ((s.queue q.val).qstate ≠ .waiting ∨ s.ready.contains q.val = true) := by
  simp [h.waiting, h.unready]

theorem State.Judges.judgeWaiting_fails (h : s.Judges q c) {st : Byte} (hj : s.judgeHead q.val c = some st) :
    s.judgeWaiting q.val = s.complete q.val st 0 := by
  simp only [State.judgeWaiting, if_neg h.judged, h.headCmd, hj]

theorem State.Judges.judgeWaiting_passes (h : s.Judges q c) (hj : s.judgeHead q.val c = none) :
    s.judgeWaiting q.val = if ((s.noteHead q.val).queue q.val).depHalt then (s.noteHead q.val).complete q.val ST_DEP_HALTED 0
      else s.noteHead q.val := by
  simp only [State.judgeWaiting, if_neg h.judged, h.headCmd, hj]

/-- A head that completes while it waits, with a status that is no success, halts its queue. -/
theorem State.Judges.completes (h : s.Judges q c) {u : State} (hu : s.Noted u) {st : Byte} (hst : goesOn st = false)
    (hj : s.judgeWaiting q.val = u.complete q.val st 0) : ∃ t, Machine.exec (.dependencyMet q) s = Next t ∧
      (t.queue q.val).qstate = .halted ∧ (t.queue q.val).hcause = st ∧ (t.queue q.val).done = (s.queue q.val).done := by
  have hdone := congrArg Queue.done (hu.queue q.val)
  have htwin := congrArg (fun v : State => v.guard.twin) hu.rest
  have hc := u.completed_complete q.val st 0
  refine ⟨_, h.exec hj (hc.twin.trans htwin), ?_⟩
  rw [hc.halted hst]
  exact ⟨rfl, rfl, hdone⟩

/-- A head that passes its checks, where it or an unmet word of it has seen a halt, completes with DEP_HALTED (R252). -/
theorem State.Judges.sees_halt (h : s.Judges q c) (hj : s.judgeHead q.val c = none)
    (hh : ((s.queue q.val).depHalt || (!((s.queue q.val).w1 || s.depMet (cmdDep c 0)) && s.depHalted (cmdDep c 0)) ||
      (!((s.queue q.val).w2 || s.depMet (cmdDep c 1)) && s.depHalted (cmdDep c 1))) = true) :
    ∃ t, Machine.exec (.dependencyMet q) s = Next t ∧ (t.queue q.val).qstate = .halted ∧ (t.queue q.val).hcause = ST_DEP_HALTED ∧
      (t.queue q.val).done = (s.queue q.val).done := by
  refine h.completes (s.noted_noteHead q.val) (st := ST_DEP_HALTED) rfl ?_
  rw [h.judgeWaiting_passes hj]
  exact if_pos (State.depHalt_noteHead h.waiting h.unready h.headCmd hj rfl rfl hh)

/-- A head that passes its checks and has seen no halt keeps its words, and is ready once both are met (R252, R253). -/
theorem State.Judges.keeps (h : s.Judges q c) (hj : s.judgeHead q.val c = none) (hdep : (s.queue q.val).depHalt = false) {m1 m2 : Bool}
    (h1 : ((s.queue q.val).w1 || s.depMet (cmdDep c 0)) = m1) (h2 : ((s.queue q.val).w2 || s.depMet (cmdDep c 1)) = m2)
    (hh1 : (!m1 && s.depHalted (cmdDep c 0)) = false) (hh2 : (!m2 && s.depHalted (cmdDep c 1)) = false) :
    Machine.exec (.dependencyMet q) s = Next (if m1 && m2 then
        { s.updQueue q.val fun x => { x with w1 := true, w2 := true } with ready := s.ready ++ [q.val] }
      else s.updQueue q.val fun x => { x with w1 := m1, w2 := m2 }) := by
  have hkept (b1 b2 : Bool) : (s.updQueue q.val fun x => { x with head := some c, w1 := b1, w2 := b2, depHalt := false }) =
      s.updQueue q.val fun x => { x with w1 := b1, w2 := b2 } := State.updQueue_congr (by simp [h.head, hdep])
  have hseen : ((s.queue q.val).depHalt || (!m1 && s.depHalted (cmdDep c 0)) || (!m2 && s.depHalted (cmdDep c 1))) = false := by
    rw [hdep, hh1, hh2]
    rfl
  have hnote := State.noteHead_judged h.waiting h.unready h.headCmd hj h1 h2 hseen
  simp only [hkept, Bool.not_false, Bool.and_true] at hnote
  have htwin := congrArg (fun v : State => v.guard.twin) (s.noted_noteHead q.val).rest
  rw [← hnote]
  refine h.exec ?_ htwin
  rw [h.judgeWaiting_passes hj]
  refine if_neg ?_
  rw [State.depHalt_noteHead h.waiting h.unready h.headCmd hj h1 h2 hseen]
  exact Bool.false_ne_true

/-! ### COMMAND_DISPATCH -/

theorem exec_commandDispatch (hdark : s.dark = false) (hwait : (s.queue q.val).qstate = .waiting) (hnext : s.nextTaken q.val = true)
    (hcore : (s.queue q.val).ecls = 1 ∨ (s.queue q.val).ecls = 2 → (s.core (s.queue q.val).lcore).unavailable = false) :
    exec (.commandDispatch q) s = Next { (s.updQueue q.val fun x =>
        { x with qstate := .active, begun := false, moved := 0, fin := none }) with
      ready := s.ready.filter (fun r => r != q.val), active := s.active ++ [q.val] } := by
  have hx : exec (.commandDispatch q) s = execCommandDispatch q s := rfl
  have hserved : ¬ (((s.queue q.val).ecls = 1 ∨ (s.queue q.val).ecls = 2) ∧ (s.core (s.queue q.val).lcore).unavailable = true) :=
    fun ⟨hclass, hgone⟩ => Bool.false_ne_true ((hcore hclass).symm.trans hgone)
  rw [hx, execCommandDispatch, always, State.unlessDark_lit s _ hdark]
  simp only [if_pos (show (s.queue q.val).qstate = .waiting ∧ s.nextTaken q.val = true from ⟨hwait, hnext⟩), if_neg hserved]

end

/-- Settles O41, by how the head stands: it fails a check, has seen a halt, or keeps its words. -/
theorem headsAreJudgedAndTaken : Obligations.HeadsAreJudgedAndTaken := by
  unfold Obligations.HeadsAreJudgedAndTaken
  intro s q c hdark hwait hhead hredo
  dsimp only
  have judges (hready : q.val ∉ s.ready) : s.Judges q c := ⟨hdark, hwait, hhead, hready, hredo⟩
  refine ⟨fun hready hj hdep => ⟨fun h1 h2 => ?ready, fun hunmet hh1 hh2 => ?waits, fun h1 hhalt => ?halt⟩,
    fun hready hj hdep => ?haltSeen, fun st hready hj => ?fails, fun hnext hcore => exec_commandDispatch hdark hwait hnext hcore⟩
  case ready => exact (judges hready).keeps hj hdep h1 h2 rfl rfl
  case waits => rw [(judges hready).keeps hj hdep rfl rfl hh1 hh2, if_neg (by rw [hunmet]; decide)]
  case halt => exact (judges hready).sees_halt hj (by rw [h1, hhalt]; simp)
  case haltSeen => exact (judges hready).sees_halt hj (by rw [hdep]; rfl)
  case fails =>
    exact (judges hready).completes (.refl s) (State.halts_of_judgeHead hj) ((judges hready).judgeWaiting_fails hj)

end Sys2Proof.Machine
end

section
/-! PROOFS. The end of a command: its record in its slot, and what becomes of its queue (R254-R257, R260). -/

namespace Sys2Proof.Machine

/-! ### Bytes merged into a block (R403) -/

theorem Memory.getElem_bytes (m : Memory) (a n i : Nat) (h : i < (Memory.bytes m a n).length) :
    (Memory.bytes m a n)[i] = Memory.byte m (a + i) := by
  induction n generalizing a i with
  | zero => cases h
  | succ n ih =>
    cases i with
    | zero => rfl
    | succ i => exact (ih (a + 1) i _).trans (congrArg (Memory.byte m) (by omega))

/-- Bytes spliced into a range of memory that is written back: these bytes change, and no other. -/
theorem Memory.byte_setBytes_splice {m : Memory} (hm : Memory.wf m = true) (a n o : Nat) (bs : List Byte) (h : o + bs.length ≤ n) :
    (∀ i (hi : i < bs.length), Memory.byte (Memory.setBytes m a (splice (Memory.bytes m a n) o bs)) (a + o + i) = bs[i]) ∧
    ∀ c, c < a + o ∨ a + o + bs.length ≤ c →
      Memory.byte (Memory.setBytes m a (splice (Memory.bytes m a n) o bs)) c = Memory.byte m c := by
  have hlen : (splice (Memory.bytes m a n) o bs).length = n := by
    simp only [splice, List.length_append, List.length_take, List.length_drop, Memory.length_bytes]
    omega
  refine ⟨fun i hi => ?_, fun c hc => ?_⟩
  · rw [Nat.add_assoc, Memory.byte_setBytes_in m a (o + i) _ hm (by omega)]
    simp [splice, Memory.length_bytes, hi, show min o n = o by omega]
  · by_cases hin : a ≤ c ∧ c < a + n
    · obtain ⟨i, rfl⟩ := Nat.exists_eq_add_of_le hin.1
      rw [Memory.byte_setBytes_in m a i _ hm (by omega)]
      have hi : i < o ∨ o + bs.length ≤ i := by omega
      grind [splice, Memory.length_bytes, Memory.getElem_bytes]
    · exact Memory.byte_setBytes_out m a c _ hm (by omega)

theorem Memory.bytes_eq {m : Memory} {a : Nat} {bs : List Byte} (h : ∀ i (hi : i < bs.length), Memory.byte m (a + i) = bs[i]) :
    Memory.bytes m a bs.length = bs :=
  List.ext_getElem (Memory.length_bytes _ _ _) fun i _ hi => (Memory.getElem_bytes _ _ _ _ _).trans (h i hi)

/-- A block lies on one stack (R398). -/
theorem State.stackDead_block (s : State) (a : Nat) : s.stackDead (4096 * (a / 4096)) = s.stackDead a := by
  have hframe : 4096 * (a / 4096) / 2 ^ 30 = a / 2 ^ 30 := by omega
  have hgroup : 4096 * (a / 4096) % 2 ^ 30 / 4096 = a % 2 ^ 30 / 4096 := by omega
  simp only [State.stackDead, State.stackAt, hframe, hgroup]
  cases Sparse.find s.frames (a / 2 ^ 30) <;> rfl

theorem State.mem_mergeHbm {s : State} {a : Nat} (h : s.stackDead a = false) (bs : List Byte) (w : Writer) :
    (s.mergeHbm a bs w).mem =
      Memory.setBytes s.mem (4096 * (a / 4096)) (splice (Memory.bytes s.mem (4096 * (a / 4096)) 4096) (a % 4096) bs) := by
  have hblock : s.stackDead (4096 * (a / 4096)) = false := (s.stackDead_block a).trans h
  simp only [State.mergeHbm, State.writeHbm, h, hblock, Bool.false_eq_true, if_false]
  split <;> rfl

/-- A merge into a stack in service writes its bytes and no other byte (R403). -/
theorem State.byte_mergeHbm {s : State} {a : Nat} {bs : List Byte} (hwf : Memory.wf s.mem = true) (h : s.stackDead a = false)
    (hfit : a % 4096 + bs.length ≤ 4096) (w : Writer) :
    Memory.bytes (s.mergeHbm a bs w).mem a bs.length = bs ∧
      ∀ c, c < a ∨ a + bs.length ≤ c → Memory.byte (s.mergeHbm a bs w).mem c = Memory.byte s.mem c := by
  obtain ⟨hin, hout⟩ := Memory.byte_setBytes_splice hwf (4096 * (a / 4096)) 4096 (a % 4096) bs hfit
  rw [Nat.div_add_mod] at hin hout
  rw [State.mem_mergeHbm h]
  exact ⟨Memory.bytes_eq hin, hout⟩

/-! ### The record of a head (R254) -/

/-- A ring begins on a codeword, so a record lies within one block. -/
theorem State.bytes_putRecord {s : State} {q : Nat} {seq : BitVec 32} (hwf : Memory.wf s.mem = true) (hbase : (s.queue q).base % 64 = 0)
    (hlive : s.stackDead ((s.queue q).slotAddr seq) = false) (tag : BitVec 32) (st : Byte) (r : BitVec 384) :
    Memory.bytes (s.putRecord q seq tag st r).mem ((s.queue q).slotAddr seq) 64 =
        natLe 64 (completionRecord q seq tag st r).toNat ∧
      ∀ c, c < (s.queue q).slotAddr seq ∨ (s.queue q).slotAddr seq + 64 ≤ c →
        Memory.byte (s.putRecord q seq tag st r).mem c = Memory.byte s.mem c := by
  have halign : (s.queue q).slotAddr seq % 64 = 0 := by
    rw [Queue.slotAddr]
    omega
  have h := State.byte_mergeHbm (bs := natLe 64 (completionRecord q seq tag st r).toNat) hwf hlive
    (by rw [length_natLe]; omega) .other
  rwa [length_natLe, ← State.putRecord_eq_mergeHbm] at h

/-! ### COMMAND_COMPLETION -/

theorem exec_commandCompletion {s : State} {q : QId} {f : Finish} (hdark : s.dark = false) (hactive : (s.queue q.val).qstate = .active)
    (hfin : (s.queue q.val).fin = some f ∨ ((s.queue q.val).fin = none ∧ s.launchFin q.val = some f)) :
    exec (.commandCompletion q) s = Next (s.complete q.val f.status f.result) := by
  have hx : exec (.commandCompletion q) s = execCommandCompletion q s := rfl
  have hor : (s.queue q.val).fin.or (s.launchFin q.val) = some f := by
    obtain h | ⟨hnone, h⟩ := hfin
    · rw [h]
      rfl
    · rw [hnone, h]
      rfl
  rw [hx, execCommandCompletion, always, State.unlessDark_lit s _ hdark]
  simp [State.completeFinished, Queue.isActive, hactive, hor]

theorem goesOn_iff (st : Byte) : goesOn st = true ↔ st = ST_OK ∨ st = ST_PREFIX_STOP ∨ st = ST_FLUSHED := by
  simp [goesOn, or_assoc]

theorem Queue.completed_active {x : Queue} {st : Byte} (hactive : x.qstate = .active) (hst : goesOn st = true) :
    x.completed st = { x.dropHead with done := x.done + 1, qstate := if x.done + 1 = x.tail then .idle else .waiting } := by
  simp [Queue.completed, Queue.nextState, Queue.dropHead, hst, hactive]

theorem Queue.unbegun_completed (x : Queue) (st : Byte) : (x.completed st).begun = false ∧ (x.completed st).fin = none := by
  unfold Queue.completed
  split
  · split <;> exact ⟨rfl, rfl⟩
  · exact ⟨rfl, rfl⟩

/-- Settles O42: the record is one codeword of the ring, and the queue goes on or halts by the status. -/
theorem commandsComplete : Obligations.CommandsComplete := by
  unfold Obligations.CommandsComplete
  intro s q c f hdark hactive hhead hfin
  dsimp only
  intro hbase hlive hwf
  have hcmd : cmdTag (s.headCmd q.val) = c.extractLsb' 32 32 := by
    rw [State.headCmd, hhead]
    rfl
  obtain ⟨hmem, hcores, -, hqueue, hhalted, -, hinactive⟩ := s.completed_complete q.val f.status f.result
  obtain ⟨hrecord, hframe⟩ := State.bytes_putRecord hwf hbase hlive (cmdTag (s.headCmd q.val)) f.status f.result
  rw [← hmem] at hrecord hframe
  rw [hcmd] at hrecord
  have hbegun := (congrArg Queue.begun hqueue).trans ((s.queue q.val).unbegun_completed f.status).1
  have hnofin := (congrArg Queue.fin hqueue).trans ((s.queue q.val).unbegun_completed f.status).2
  refine ⟨_, exec_commandCompletion hdark hactive hfin, hrecord, hframe, fun hst => ?goesOn, fun hok hprefix hflushed => ?halts, hbegun,
    hnofin, hinactive, fun j => congrArg (fun v : Vector Core 64 => v[j]) hcores⟩
  case goesOn =>
    rw [Queue.completed_active hactive ((goesOn_iff f.status).mpr hst)] at hqueue
    have hdone := congrArg Queue.done hqueue
    have hstate := congrArg Queue.qstate hqueue
    exact ⟨hdone, hstate⟩
  case halts =>
    have hst : goesOn f.status = false := by simp [goesOn, hok, hprefix, hflushed]
    rw [hhalted hst]
    exact ⟨rfl, rfl, rfl, rfl, rfl⟩

end Sys2Proof.Machine
end

section
/-! PROOFS. TALLOC and TFREE (R263-R265, R497). -/

namespace Sys2Proof.Machine

/-! ### What an allocation leaves alone -/

/-- A fold of steps that leave the queues alone leaves them alone. -/
theorem State.queues_foldl {α : Type} {f : State → α → State} (h : ∀ u x, (f u x).queues = u.queues) (l : List α) (s : State) :
    (l.foldl f s).queues = s.queues := by
  induction l generalizing s with
  | nil => rfl
  | cons x l ih => exact (ih (f s x)).trans (h s x)

theorem State.queues_shelve (s : State) (f : Nat) : (s.shelve f).queues = s.queues := by
  simp only [State.shelve, State.clearFrame]

theorem State.queues_clearFrame (s : State) (f : Nat) : (s.clearFrame f).queues = s.queues := by
  simp only [State.clearFrame]

theorem State.queues_unshelve (s : State) (e : Nat × Frame) : (s.unshelve e).queues = s.queues := by
  simp only [State.unshelve]

theorem State.queues_setFrames (s : State) (frames : Sparse Frame) : (s.setFrames frames).queues = s.queues := by
  have hanew (u : State) (e : Nat × Frame) : ((u.clearFrame e.1).unshelve e).queues = u.queues := by
    rw [State.queues_unshelve, State.queues_clearFrame]
  have hgone (u : State) (e : Nat × Frame) : (u.shelve e.1).queues = u.queues := u.queues_shelve e.1
  rw [State.setFrames, State.queues_foldl hanew]
  exact State.queues_foldl hgone _ s

/-- An allocation changes no queue (R404). -/
theorem State.queues_allocate {s u : State} {m : Interleave} {n first : Nat} {tagOf : Nat → BitVec 12}
    (h : s.allocate m n tagOf = some (first, u)) : u.queues = s.queues := by
  obtain ⟨⟨c, frames⟩, -, hu⟩ := Option.map_eq_some_iff.mp h
  obtain ⟨-, rfl⟩ := Prod.mk.inj hu
  exact s.queues_setFrames frames

/-! ### TALLOC (R265, R497) -/

/-- The result words of TALLOC: the handle, the tag and the address of the range. -/
def tallocResult (h : BitVec 32) (tag : BitVec 12) (first : Nat) : BitVec 384 :=
  BitVec.ofNat 384 (h.toNat + tag.toNat <<< 32 + (4096 * first) <<< 64)

/-- A field of a number that lies within its word. -/
theorem extractLsb'_ofNat_of_le {n start len : Nat} (h : start + len ≤ n) (x : Nat) :
    (BitVec.ofNat n x).extractLsb' start len = BitVec.ofNat len (x / 2 ^ start) := by
  obtain ⟨k, rfl⟩ := Nat.exists_eq_add_of_le h
  apply BitVec.eq_of_toNat_eq
  rw [BitVec.extractLsb'_toNat, BitVec.toNat_ofNat, BitVec.toNat_ofNat, Nat.shiftRight_eq_div_pow, Nat.add_assoc, Nat.pow_add,
    Nat.mod_mul_right_div_self, Nat.mod_mod_of_dvd _ (Nat.pow_dvd_pow 2 (Nat.le_add_right len k))]

theorem handle_tallocResult (h : BitVec 32) (tag : BitVec 12) (first : Nat) : (tallocResult h tag first).extractLsb' 0 32 = h := by
  rw [tallocResult, extractLsb'_ofNat_of_le (by decide)]
  apply BitVec.eq_of_toNat_eq
  have hlt := h.isLt
  rw [BitVec.toNat_ofNat, Nat.shiftLeft_eq, Nat.shiftLeft_eq]
  omega

theorem tag_tallocResult (h : BitVec 32) (tag : BitVec 12) (first : Nat) : (tallocResult h tag first).extractLsb' 32 12 = tag := by
  rw [tallocResult, extractLsb'_ofNat_of_le (by decide)]
  apply BitVec.eq_of_toNat_eq
  have hlt := h.isLt
  have htag := tag.isLt
  rw [BitVec.toNat_ofNat, Nat.shiftLeft_eq, Nat.shiftLeft_eq]
  omega

section
variable {s : State} {size : Nat} {hint : BitVec 32}

theorem State.talloc_bad (h : s.badAlloc size hint = true) : s.talloc size hint = (ST_BAD_CMD, 0, s) := by
  rw [State.talloc, if_pos h]

theorem State.talloc_noHandle (h : s.badAlloc size hint = false) (hfront : s.handles.front = none) :
    s.talloc size hint = (ST_NO_HANDLE, 0, s) := by
  simp [State.talloc, h, hfront]

/-- The record of a tag's reuse leaves the handles and the queues alone (R328, R350). -/
theorem State.emit_kept (s : State) (evt sev die : Byte) (lcore : BitVec 7) (detail : Word) (addr : Nat) (p64 : Bool) :
    (s.emit evt sev die lcore detail addr p64).queues = s.queues ∧ (s.emit evt sev die lcore detail addr p64).handles = s.handles := by
  obtain ⟨irqs, hostMem, events, host, h, -⟩ := s.emit_eq evt sev die lcore detail addr p64
  rw [h]
  exact ⟨rfl, rfl⟩

/-- What a TALLOC with status OK has taken: the index at the front of the free list, for a range under a tag. -/
theorem State.talloc_ok {r : BitVec 384} {t : State} (h : s.talloc size hint = (ST_OK, r, t)) :
    t.queues = s.queues ∧ ∃ idx x, s.handles.front = some idx ∧ Sparse.find t.handles.live idx = some x ∧ x.blocks = size ∧
      x.hint = hint ∧ r = tallocResult (mkHandle x.gen idx) x.tag x.first := by
  cases hbad : s.badAlloc size hint with
  | true =>
    rw [State.talloc_bad hbad] at h
    exact absurd (Prod.mk.inj h).1 (by decide)
  | false =>
    cases hfront : s.handles.front with
    | none =>
      rw [State.talloc_noHandle hbad hfront] at h
      exact absurd (Prod.mk.inj h).1 (by decide)
    | some idx =>
      simp only [State.talloc, hbad, hfront, Bool.false_eq_true, if_false] at h
      split at h
      · exact absurd (Prod.mk.inj h).1 (by decide)
      · next first u hu =>
        obtain ⟨hr, ht⟩ := Prod.mk.inj (Prod.mk.inj h).2
        let x : HandleRec := ⟨(Sparse.find s.handles.gens idx).getD 0, first, size, BitVec.ofNat 12 (s.chooseTag first size).1, hint⟩
        let v : State := { u with handles := u.handles.take idx x }
        have hkept : t.queues = v.queues ∧ t.handles = v.handles := by
          rw [← ht]
          split
          · exact v.emit_kept _ _ _ _ _ _ _
          · exact ⟨rfl, rfl⟩
        obtain ⟨hqueues, hhandles⟩ := hkept
        refine ⟨hqueues.trans (State.queues_allocate (u := u) hu), idx, x, rfl, ?_, rfl, rfl, hr.symm⟩
        rw [hhandles]
        exact Sparse.find_put_same _ _ _

theorem exec_talloc {q : QId} {c : BitVec 512} (hdark : s.dark = false) (hc : s.headFor q.val 0x50 = some c) {st : Byte} {r : BitVec 384}
    {t : State} (ht : s.talloc (opf c 0 32) (BitVec.ofNat 32 (opf c 32 32)) = (st, r, t)) (hq : t.queues = s.queues) :
    exec (.talloc q) s = Next (t.updQueue q.val fun x => { x with fin := some ⟨st, r⟩ }) := by
  have hx : exec (.talloc q) s = execTalloc q s := rfl
  have hfin : (t.queue q.val).fin = none := by
    rw [State.queue, hq]
    exact State.headFor_unfinished hc
  rw [hx, execTalloc, always, State.unlessDark_lit s _ hdark, State.onHead_of_headFor hc, ht, ← State.finish_unfinished hfin]

end

/-! ### TFREE (R263, R265) -/

theorem Sparse.find_mapValues {α : Type} (m : Sparse α) (g : Nat → α → α) (n : Nat) :
    Sparse.find (m.map fun e => (e.1, g e.1 e.2)) n = (Sparse.find m n).map (g n) := by
  induction m with
  | nil => rfl
  | cons e m ih =>
    obtain ⟨k, v⟩ := e
    simp only [List.map_cons, Sparse.find, ih]
    split
    · next h => rw [h]; rfl
    · split <;> rfl

theorem bibTag_untagged (b : Word) : bibTag (untagged b) = 0 := by
  rw [bibTag, untagged, mkBib, BitVec.extractLsb'_append_eq_left]

theorem State.find_untag (s : State) (first n b : Nat) : Sparse.find (s.untag first n).bibs b =
    (Sparse.find s.bibs b).map fun w => if first ≤ b ∧ b < first + n then untagged w else w := by
  have hmap : (s.untag first n).bibs =
      s.bibs.map fun e => (e.1, if first ≤ e.1 ∧ e.1 < first + n then untagged e.2 else e.2) := by
    refine List.map_congr_left fun e _ => ?_
    split <;> rfl
  rw [hmap]
  exact Sparse.find_mapValues s.bibs (fun b w => if first ≤ b ∧ b < first + n then untagged w else w) b

/-- A bib of a freed range has lost its tag (R265). -/
theorem State.bibTag_of_find_untag {s : State} {first n b : Nat} {w : Word} (hlo : first ≤ b) (hhi : b < first + n)
    (h : Sparse.find (s.untag first n).bibs b = some w) : bibTag w = 0 := by
  rw [State.find_untag] at h
  obtain ⟨w', -, rfl⟩ := Option.map_eq_some_iff.mp h
  rw [if_pos ⟨hlo, hhi⟩, bibTag_untagged]

/-- A bib outside a freed range stays. -/
theorem State.find_untag_outside {s : State} {first n b : Nat} (h : b < first ∨ first + n ≤ b) :
    Sparse.find (s.untag first n).bibs b = Sparse.find s.bibs b := by
  have hout : ¬ (first ≤ b ∧ b < first + n) := by omega
  simp [State.find_untag, hout]

section
variable {s : State} {q : QId} {c : BitVec 512}

theorem exec_tfree_badHandle (hdark : s.dark = false) (hc : s.headFor q.val 0x51 = some c)
    (hnone : s.handle (BitVec.ofNat 32 (opf c 0 32)) = none) :
    exec (.tfree q) s = Next (s.updQueue q.val fun x => { x with fin := some ⟨ST_BAD_HANDLE, 0⟩ }) := by
  have hx : exec (.tfree q) s = execTfree q s := rfl
  rw [hx, execTfree, always, State.unlessDark_lit s _ hdark, State.onHead_of_headFor hc]
  simp only [hnone]
  exact congrArg Host.Outcome.next (State.finish_unfinished (State.headFor_unfinished hc) _ _)

/-- The state with handle h, whose record is r, freed. -/
def State.freed (s : State) (h : BitVec 32) (r : HandleRec) : State :=
  ({ s with handles := s.handles.free (h.extractLsb' 0 20).toNat r } : State).untag r.first r.blocks

/-- A freed handle names nothing (R263). -/
theorem State.handle_freed {h : BitVec 32} {r : HandleRec} (hsorted : Sparse.sorted s.handles.live = true) :
    (s.freed h r).handle h = none := by
  have hgone : Sparse.find (s.freed h r).handles.live (fld h 0 20) = none := Sparse.find_del_same _ _ hsorted
  rw [State.handle, hgone]

theorem exec_tfree {r : HandleRec} (hdark : s.dark = false) (hc : s.headFor q.val 0x51 = some c)
    (hr : s.handle (BitVec.ofNat 32 (opf c 0 32)) = some r) :
    exec (.tfree q) s =
      Next ((s.freed (BitVec.ofNat 32 (opf c 0 32)) r).updQueue q.val fun x => { x with fin := some ⟨ST_OK, 0⟩ }) := by
  have hx : exec (.tfree q) s = execTfree q s := rfl
  have hfin : ((s.freed (BitVec.ofNat 32 (opf c 0 32)) r).queue q.val).fin = none := State.headFor_unfinished hc
  rw [hx, execTfree, always, State.unlessDark_lit s _ hdark, State.onHead_of_headFor hc]
  simp only [hr]
  exact congrArg Host.Outcome.next (State.finish_unfinished hfin _ _)

end

/-- Settles O44: TALLOC takes the front index of the free list, and TFREE puts an index at its back. -/
theorem tensorHandles : Obligations.TensorHandles := by
  unfold Obligations.TensorHandles
  intro s q c hdark
  dsimp only
  refine ⟨fun hc => ⟨fun hbad => ?bad, fun hgood hfront => ?noHandle, fun r t ht => ?allocated⟩,
    fun hc => ⟨fun hnone => ?badHandle, fun r hr hsorted => ?freed⟩⟩
  case bad => exact exec_talloc hdark hc (State.talloc_bad hbad) rfl
  case noHandle => exact exec_talloc hdark hc (State.talloc_noHandle hgood hfront) rfl
  case allocated =>
    obtain ⟨hq, idx, x, hfront, hfind, hblocks, hhint, rfl⟩ := State.talloc_ok ht
    exact ⟨exec_talloc hdark hc ht hq, idx, x, hfront, hfind, hblocks, hhint, handle_tallocResult _ _ _, tag_tallocResult _ _ _⟩
  case badHandle => exact exec_tfree_badHandle hdark hc hnone
  case freed =>
    refine ⟨_, exec_tfree hdark hc hr, State.handle_freed hsorted, rfl, Sparse.find_put_same _ _ _,
      fun n b hlo hhi hb => State.bibTag_of_find_untag hlo hhi hb, fun n hn => State.find_untag_outside hn, rfl⟩

end Sys2Proof.Machine
end

section
/-! PROOFS. An HCOPY of a tensor that lies on another die than the device blocks of the same numbers (R267, R378). -/

namespace Sys2Proof.Machine

/-- An HCOPY moves no block while the device block whose number is that of its next block within the tensor is not reached. -/
theorem State.hcopyBlocks_waits {s : State} {q first : Nat} (h : s.hubReaches (4096 * (first + (s.queue q).moved)) = false)
    (r : HandleRec) (haddr count : Nat) (out : Bool) (n : Nat) : s.hcopyBlocks q r haddr first count out n = s := by
  cases n with
  | zero => rfl
  | succ n => exact if_pos (.inr h)

/-- A move that has blocks left goes on waiting while the host port carries traffic (R435). -/
theorem State.endMove_waits {s : State} {q count : Nat} (hfin : (s.queue q).fin = none) (hleft : (s.queue q).moved < count)
    (hlink : s.host.linkUp = true) (result : Nat) : s.endMove q count false result = s := by
  have hstays : ¬ (false = true ∨ s.host.linkUp = false) := by
    rw [hlink]
    decide
  have hopen : ¬ (s.queue q).fin.isSome = true := by
    rw [hfin]
    exact Bool.false_ne_true
  rw [State.endMove, if_neg hopen, if_neg (Nat.not_le_of_gt hleft), if_neg hstays]

/-- So a good HCOPY stays at its first block, though its tensor may be reached. -/
theorem exec_hcopy_waits {s : State} {q : QId} {c : BitVec 512} {r : HandleRec} (hdark : s.dark = false)
    (hc : s.headFor q.val 0x52 = some c) (hr : s.handle (BitVec.ofNat 32 (opf c 64 32)) = some r) (halign : opf c 0 64 % 64 = 0)
    (hfits : opf c 96 32 + opf c 128 32 ≤ r.blocks) (hleft : (s.queue q.val).moved < opf c 128 32) (hlink : s.host.linkUp = true)
    (hreach : s.hubReaches (4096 * (opf c 96 32 + (s.queue q.val).moved)) = false) (n : Nat) :
    exec (.hcopy q n false) s = Next (s.begin q.val) := by
  have hx : exec (.hcopy q n false) s = execHcopy q n false s := rfl
  have hqueue : (s.begin q.val).queue q.val = { s.queue q.val with begun := true } := State.queue_updQueue_same _ _ _
  have hwaits := State.hcopyBlocks_waits (s := s.begin q.val) (q := q.val) (first := opf c 96 32) (by rw [hqueue]; exact hreach)
    r (opf c 0 64) (opf c 128 32) (opf c 160 1 == 1) n
  have hend := State.endMove_waits (s := s.begin q.val) (q := q.val) (count := opf c 128 32)
    (by rw [hqueue]; exact State.headFor_unfinished hc) (by rw [hqueue]; exact hleft) hlink (s.queue q.val).moved
  have hgood : ¬ (opf c 0 64 % 64 ≠ 0 ∨ r.blocks < opf c 96 32 + opf c 128 32) := by omega
  rw [hx, execHcopy, always, State.unlessDark_lit s _ hdark, State.onHead_of_headFor hc]
  simp only [hr, if_neg hgood, hlink, if_true, hwaits]
  rw [hqueue]
  exact congrArg Host.Outcome.next hend

/-- HCOPY of block 0 of the tensor with handle 1, from host address 0. -/
def hcopyCmd : BitVec 512 := BitVec.ofNat 512 (0x52 + (1 <<< 64 + 1 <<< 128) <<< 192)

/-- A tensor of one block, at the start of frame 1. -/
def frameOneTensor : HandleRec := ⟨0, frameBlocks, 1, 1, 0⟩

/-- A module with the link of die 0 ACTIVE and that of die 1 not trained yet. Frame 0 is backed on die 1; frame 1, with the tensor of an
HCOPY in queue 9, on die 0. -/
def crossedCopy : State :=
  { State.reset with
    frames := [(0, ⟨false, 1, 0⟩), (1, ⟨false, 0, 0⟩)]
    handles := { Handles.reset with live := [(1, frameOneTensor)], fresh := 2 }
    links := vupd State.reset.links 0 fun l =>
      { l with hub := { l.hub with lstate := .active }, die := { l.die with lstate := .active } }
    host := { HostPort.reset with linkUp := true }
    queues := [(9, { Queue.disabled with ecls := 5, qstate := .active, head := some hcopyCmd })] }

/-- The tensor is reached, and device block 0 is not. -/
theorem crossedCopy_reaches : crossedCopy.hubReaches (4096 * (frameOneTensor.first + 0)) = true ∧
    crossedCopy.hubReaches (4096 * 0) = false ∧ crossedCopy.stackDead (4096 * (frameOneTensor.first + 0)) = false := by
  decide +kernel

/-- Refutes O45: an HCOPY to a tensor that is reached does not move its block where the device block with the block's number within
the tensor lies on a die that is not reached, for the model asks after that block's address. -/
theorem not_clerkCopies : ¬ Obligations.ClerkCopies := by
  unfold Obligations.ClerkCopies
  intro h
  obtain ⟨htensor, hblock, hlive⟩ := crossedCopy_reaches
  have hhead : crossedCopy.headFor 9 0x52 = some hcopyCmd := by decide +kernel
  have hhandle : crossedCopy.handle (BitVec.ofNat 32 (opf hcopyCmd 64 32)) = some frameOneTensor := by decide +kernel
  obtain ⟨halign, hfirst, hcount, hdir⟩ :
      opf hcopyCmd 0 64 = 0 ∧ opf hcopyCmd 96 32 = 0 ∧ opf hcopyCmd 128 32 = 1 ∧ opf hcopyCmd 160 1 = 0 := by decide +kernel
  obtain ⟨hcopy, -⟩ := h crossedCopy 9 hcopyCmd rfl
  obtain ⟨-, hmoves⟩ := hcopy hhead frameOneTensor 1 false hhandle
  rw [halign, hfirst, hcount, hdir] at hmoves
  obtain ⟨-, -, hinward⟩ := hmoves rfl (by decide) rfl rfl rfl htensor
  obtain ⟨t, ht, -, hfin, -⟩ := hinward rfl hlive
  have hstays : exec (.hcopy 9 1 false) crossedCopy = Next (crossedCopy.begin 9) :=
    exec_hcopy_waits (q := 9) rfl hhead hhandle (by rw [halign]) (by rw [hfirst, hcount]; decide) (by rw [hcount]; decide) rfl
      (by rw [hfirst]; exact hblock) 1
  obtain rfl : crossedCopy.begin 9 = t := Host.Outcome.next.inj (hstays.symm.trans ht)
  cases hfin

end Sys2Proof.Machine
end
